-- ==== Sys2Proof/Word.lean ====
section
/-! DEFINITION. The word types of the Poari: a byte, and the 16-, 32- and 64-bit words of its registers
and records (R3), and nothing more. -/

namespace Sys2Proof

/-- One byte. -/
abbrev Byte := BitVec 8
/-- A 16-bit field. -/
abbrev W16 := BitVec 16
/-- A 32-bit register, or a binary32 word. -/
abbrev W32 := BitVec 32
/-- A 64-bit register. -/
abbrev W64 := BitVec 64

end Sys2Proof
end

