-- ==== Sys2Proof/Machine/Tab.lean ====
section
/-! DEFINITION. Sparse banks: a bank of registers, records or bytes is a list of (number, value) pairs in
one canonical form, numbers strictly rising and no entry equal to what an unlisted number reads as. -/

namespace Sys2Proof.Machine

/-- A sparse bank of values of type `V`. -/
abbrev Tab (V : Type) := List (Nat × V)

/-- Read number `k`; a number the bank does not list reads as `d`. -/
def tabGet {V : Type} (d : V) : Tab V → Nat → V
  | [], _ => d
  | (k', v) :: t, k => if k' = k then v else tabGet d t k

/-- Put `v` in front of a bank, unless it is the value an unlisted number reads as. -/
def tabCons {V : Type} [DecidableEq V] (d : V) (k : Nat) (v : V) (t : Tab V) : Tab V :=
  if v = d then t else (k, v) :: t

/-- A bank without number `k`. -/
def tabDrop {V : Type} (k : Nat) : Tab V → Tab V
  | [] => []
  | (k', v) :: t => if k' = k then tabDrop k t else (k', v) :: tabDrop k t

/-- Write number `k`, keeping the canonical form. -/
def tabSet {V : Type} [DecidableEq V] (d : V) : Tab V → Nat → V → Tab V
  | [], k, v => tabCons d k v []
  | (k', v') :: t, k, v =>
    if k < k' then tabCons d k v ((k', v') :: tabDrop k t)
    else if k = k' then tabCons d k v (tabDrop k t)
    else (k', v') :: tabSet d t k v

/-- The canonical form, every listed number being above `lo`. -/
def tabWfFrom {V : Type} [DecidableEq V] (d : V) : Nat → Tab V → Bool
  | _, [] => true
  | lo, (k, v) :: t => decide (lo ≤ k) && !decide (v = d) && tabWfFrom d (k + 1) t

/-- The canonical form of a bank. -/
def tabWf {V : Type} [DecidableEq V] (d : V) (t : Tab V) : Bool := tabWfFrom d 0 t

/-- The listed numbers that satisfy `p`. -/
def tabKeys {V : Type} (t : Tab V) (p : Nat → V → Bool) : List Nat :=
  (t.filter (fun kv => p kv.1 kv.2)).map (·.1)

/-- Change every listed value by a function, dropping the ones that become the unlisted value. -/
def tabMapAll {V : Type} [DecidableEq V] (d : V) (f : Nat → V → V) : Tab V → Tab V
  | [] => []
  | (k, v) :: t => tabCons d k (f k v) (tabMapAll d f t)

end Sys2Proof.Machine
end

