-- ==== Sys2Proof/Types/Arrays.lean ====
section
/-! DEFINITION. The records of the charge arrays and of everything kept beside them: array registers and
writes (chapter 2), converters (3), splice regions (4), accumulators (5), trim and ageing (6). -/

namespace Sys2Proof

/-- Table 2.10: array states. -/
inductive ArrState where
  | off | blank | writing | ready | active | retired
  deriving DecidableEq, Repr

/-- A ply slot: the context that owns it and the context-relative slot on the array's mast (R151, R157). -/
structure SlotRef where
  ctx : Nat
  slot : Nat
  deriving DecidableEq, Repr

/-- A write of a whole array in progress or queued (R36 to R38): what the command latched, the next row to
drive, the rows whose read-back failed. -/
structure WriteJob where
  lmap : BitVec 2
  span : BitVec 4
  src : W64
  colMap : List (Nat × Nat)
  row : Nat
  failed : List Nat
  /-- The rows hold the standby pattern of R122 and are read from no image. -/
  pattern : Bool
  restart : Bool
  /-- A restart rewrite whose digest differed once runs again (R326, Table 14.8). -/
  second : Bool := false
  /-- The slot whose derived image firmware writes, and that image's recorded digest (R193, R325). -/
  image : Option SlotRef := none
  digest : List Byte := []
  deriving DecidableEq, Repr

/-- What firmware has still to issue on one array: a WRITE, a LOAD of its region, or both, from the derived image of a slot at a
level map, or a WRITE of the standby pattern (R122, R126, R185, R201); before that, it rebuilds the image where that was lost (Table
14.2). -/
structure FwJob where
  image : Option SlotRef
  lmap : BitVec 2
  write : Bool := true
  load : Bool := true
  rebuild : Bool := false
  deriving DecidableEq, Repr

/-- A COLWRITE in progress (R40). -/
structure ColJob where
  colP : Nat
  colL : Nat
  src : W64
  row : Nat
  failed : List Nat
  /-- Trim issued it for a column swap (Table 6.4). -/
  swap : Bool
  /-- The array holds the standby pattern (R122) and no image, or the derived image of a slot (R193). -/
  pattern : Bool := false
  image : Option SlotRef := none
  deriving DecidableEq, Repr

/-- The registers of one array (Tables 2.22 to 2.28) and the work in progress on it. -/
structure Arr where
  st : ArrState := .off
  retirePend : Bool := false
  queued : Bool := false
  cmdBusy : Bool := false
  cmdStatus : Byte := 0
  cmdLast : BitVec 4 := 0
  lmap : BitVec 2 := 0
  span : BitVec 4 := 0
  src : W64 := 0
  colP : BitVec 11 := 0
  colL : BitVec 10 := 0
  cfgLmap : BitVec 2 := 0
  cfgSpan : BitVec 4 := 8
  /-- MAST_ARR_RET.RETIRED. -/
  retired : Bool := false
  /-- RETIRED was set by a permanent fault (R332, R340). -/
  perm : Bool := false
  clip : W32 := 0
  q4 : W16 := 0
  q8 : W16 := 0
  wcnt : W32 := 0
  /-- Cells counted in the running restore cycle, at 1/4 level and at 1/8 level or more (R42). -/
  run4 : Nat := 0
  run8 : Nat := 0
  /-- Restore cycles, latest first, of the last 16 with the array's own Q4 above zero (rung 3 of R135). -/
  q4Hist : List Bool := []
  /-- The last command was the host's (MBX_GEN_CAUSE.ARR). -/
  byHost : Bool := false
  write : Option WriteJob := none
  col : Option ColJob := none
  /-- The ply slot the array serves or is assigned to. -/
  slot : Option SlotRef := none
  /-- The slot it computes for was released at a commit, and the array leaves ACTIVE at the next boundary (R47, R157). -/
  leaving : Bool := false
  /-- What firmware issues on it once no command runs there (R50, R94). -/
  fw : Option FwJob := none
  /-- What it was last written with: the derived image of a slot, with that image's recorded digest (R325), or the standby pattern
  (R122). -/
  image : Option SlotRef := none
  digest : List Byte := []
  pattern : Bool := false
  deriving DecidableEq, Repr

/-- The fourteen sums kept beside each physical column: W_j (R31), B_0 to B_3 (R117), S_0 to S_9 (R323). -/
structure ColSum where
  w : W16 := 0
  b : List W16 := [0, 0, 0, 0]
  s : List W16 := [0, 0, 0, 0, 0, 0, 0, 0, 0, 0]
  deriving DecidableEq, Repr

/-- Table 3.14: CAL. -/
inductive Cal where
  | invalid | calibrating | valid | failed
  deriving DecidableEq, Repr

/-- Table 3.15: the spare converters' assignment. -/
structure ConvMap where
  enA : Bool := false
  grpA : Byte := 0
  enB : Bool := false
  grpB : Byte := 0
  deriving DecidableEq, Repr

/-- The converter state of one array (R61, R73, R74). -/
structure ArrCal where
  cal : Cal := .invalid
  calTemp : W16 := 0
  map : ConvMap := {}
  pendMap : Option ConvMap := none
  pendFac : List (Nat × W64) := []
  /-- Which of them are trim's corrections, that HOLD holds back and a new set replaces (R127). -/
  trimMap : Bool := false
  trimFac : List Nat := []
  /-- The running ADC_SELFCAL has committed the array. -/
  committed : Bool := false
  deriving DecidableEq, Repr

/-- The reset value of a converter factor word (Table 3.2). -/
def facReset : W64 := 0x8000000000000000

/-- Table 4.13: splice region states. -/
inductive SplState where
  | empty | loading | valid
  deriving DecidableEq, Repr

/-- One array's splice registers and the load in progress (R89, R95). -/
structure Spl where
  st : SplState := .empty
  lmap : BitVec 2 := 0
  busy : Bool := false
  maxCount : BitVec 6 := 0
  status : Byte := 0
  entries : BitVec 12 := 0
  src : W64 := 0
  latchLmap : BitVec 2 := 0
  latchSrc : W64 := 0
  byHost : Bool := false
  /-- The slot whose derived image firmware loads (R193). -/
  image : Option SlotRef := none
  deriving DecidableEq, Repr

/-- Table 6.3: what a column word holds; `pcol` 0 stands for the column's own number (R32, R120). -/
structure ColVal where
  cg : BitVec 24 := 0x435E51
  co : W16 := 0
  inherit : Bool := false
  pcol : Nat := 0
  deriving DecidableEq, Repr

/-- A column word in force, and the correction or write that waits for a beat boundary (R121, R125). -/
structure ColWord where
  val : ColVal := {}
  pend : Option ColVal := none
  /-- The waiting value is a correction by trim, that HOLD holds back and a new set replaces (R127). -/
  pendTrim : Bool := false
  deriving DecidableEq, Repr

/-- Table 6.17 and what trim keeps of one array beside it. -/
structure ArrTrim where
  measTemp : W16 := 0
  rcerr : W16 := 0
  stale : BitVec 4 := 0xF
  measSpan : BitVec 4 := 8
  /-- The standby that a pending array swap brings in, and whether the array is then retired (R126). -/
  swap : Option Nat := none
  swapRetire : Bool := false
  /-- The pending swap is a step of its group's re-plan (R135, R136). -/
  swapPlan : Bool := false
  atLimit : Bool := false
  /-- Spare columns marked unusable, bit c for physical column 1,026 + c. -/
  unusable : BitVec 14 := 0
  /-- The array was swapped out and rewritten as a standby; a next finding retires it (Table 6.4). -/
  probation : Bool := false
  /-- Restore cycles of the running trim cycle the array was measured in (R118); `fresh` while the restore cycle in
  which the array became READY still runs. -/
  measured : Nat := 0
  fresh : Bool := false
  /-- Its die ran ADC_SELFCAL in the running restore cycle, so that it missed measurements of it (R115). -/
  calHit : Bool := false
  /-- Column swaps whose COLWRITE has ended and which wait for one full trim cycle: logical, physical, and whether the trim cycle in
  which the COLWRITE ended is over (Table 6.4). -/
  colSwaps : List (Nat × Nat × Bool) := []
  /-- COLWRITEs that trim has still to issue: logical column, spare column (Table 6.4). -/
  colTodo : List (Nat × Nat) := []
  /-- Sum and number of the reference errors of the trim cycle (Table 6.2, RCERR), in 1/256 code units. -/
  refSum : Nat := 0
  refCnt : Nat := 0
  deriving DecidableEq, Repr

/-- Table 6.19 of one ageing group, with the 16-cycle history behind Q4CYC, latest first. -/
structure AgeGrp where
  lmap : BitVec 2 := 0
  rung : BitVec 2 := 0
  leak : Byte := 0
  hist : List Bool := []
  retired : Byte := 0
  /-- Largest Q8 of the group in the running trim cycle (LEAK, Table 6.10). -/
  q8max : Nat := 0
  /-- Restore cycles since the group's last re-plan completed (rung 3 of Table 6.11). -/
  sincePlan : Nat := 0
  /-- Slots of the group still to re-plan, by mast-local array number (R136). -/
  replan : List Nat := []
  deriving DecidableEq, Repr

/-- One array die: its power, its last temperature report (Table 2.19), and what a calibration in progress
keeps of it. -/
structure Die where
  powered : Bool := false
  poweringUp : Bool := false
  valid : Bool := false
  temp : W16 := 0
  /-- Least and greatest temperature reported in the running trim cycle of the mast (R119). -/
  trimLo : W16 := 0
  trimHi : W16 := 0
  deriving DecidableEq, Repr

/-- Table 5.9: tile states. -/
inductive TileState where
  | free | filling | closed | draining
  deriving DecidableEq, Repr

/-- A token's outputs in a tile: its place in the ply's token stream, whether its checks have passed, and
its row of encoded output values. -/
structure TileTok where
  tau : Nat
  tok : Nat
  ok : Bool
  vals : List Nat
  /-- The accumulated sums, binary32, that the values were formed from. -/
  sums : List W32
  /-- BOUND_VOID and NONFIN of the token, and its output values that MAST_ACC_NONFIN and MAST_ACC_SAT count (R102, R103, R107). -/
  void : Bool := false
  nonfin : Bool := false
  nonfins : Nat := 0
  sats : Nat := 0
  deriving DecidableEq, Repr

/-- An output tile (R109). -/
structure Tile where
  st : TileState := .free
  toks : List TileTok := []
  void : Bool := false
  nonfin : Bool := false
  deriving DecidableEq, Repr

/-- A ply accumulator (R108, Tables 5.9 and 5.10) and its binding. -/
structure Acc where
  bound : Bool := false
  void : Bool := false
  t0 : Tile := {}
  t1 : Tile := {}
  outFmt : BitVec 3 := 0
  act : BitVec 2 := 0
  terms : BitVec 9 := 0
  ply : BitVec 10 := 0
  seed : W64 := 0
  tiles : W64 := 0
  /-- Context, step and operation of the binding. -/
  ctx : Nat := 0
  step : Nat := 0
  op : Nat := 0
  /-- Which tile fills: 0 for T0, 1 for T1. -/
  fill : Nat := 0
  /-- Tokens still to issue: place in the ply's token stream, and token of the block. -/
  todo : List (Nat × Nat) := []
  /-- TRIM_VOID counts the binding's tiles (R133). -/
  trimVoid : Bool := false
  /-- The arrays bound: for each K slot, the arrays (one, or two of a doubled slot). -/
  arrays : List (List Nat) := []
  deriving DecidableEq, Repr

/-- A calibration in progress (R64, R68): the dies it runs on, their temperatures at acceptance, and whether something made it partial. -/
structure CalJob where
  dies : List Nat
  temps : List (Nat × W16)
  partialFlag : Bool
  deriving DecidableEq, Repr

/-- The converter block's registers (Tables 3.9 to 3.13). -/
structure Adc where
  busy : Bool := false
  phase : BitVec 3 := 0
  wrRej : Bool := false
  status : Byte := 0
  cmdLast : BitVec 4 := 0
  mask : W32 := 0
  done : W32 := 0
  buf : W64 := 0
  sel : W32 := 0
  /-- The mask and the buffer of the running command, as it took them. -/
  latchMask : W32 := 0
  latchBuf : W64 := 0
  job : Option CalJob := none
  deriving DecidableEq, Repr

/-- The trim block's registers (Tables 6.14 to 6.18). -/
structure Trim where
  busy : Bool := false
  phase : BitVec 3 := 0
  wrRej : Bool := false
  skipped : Bool := false
  status : Byte := 0
  cmdLast : BitVec 4 := 0
  mask : W32 := 0
  done : W32 := 0
  buf : W64 := 0
  sel : W32 := 0
  /-- The mask and the buffer of the running command, as it took them. -/
  latchMask : W32 := 0
  latchBuf : W64 := 0
  hold : Bool := false
  voidCnt : W32 := 0
  lastTime : W64 := 0
  deriving DecidableEq, Repr

/-- The ageing block's registers (Tables 6.14 to 6.19). -/
structure Age where
  epoch : W64 := 0
  busy : Bool := false
  status : Byte := 0
  cmdLast : BitVec 4 := 0
  buf : W64 := 0
  sel : W32 := 0
  deriving DecidableEq, Repr

/-- What one row window of a write meets (R36, R39): whether the row's image block passes its check value,
whether it passed only when read again (R317), and whether the previous row read back as written. -/
structure RowRead where
  blockOk : Bool
  reread : Bool
  backOk : Bool
  deriving DecidableEq, Repr

/-- What the restore loop senses in one row of one array (R42): the snapped level indices of its 1,040 columns, and
the cells at 1/8 level or more and at 1/4 level or more. -/
structure Sense where
  p : Nat
  row : Nat
  levels : List Byte
  ge8 : Nat
  ge4 : Nat
  deriving DecidableEq, Repr

/-- A raw code that a converter latches (R58, R59): its array, column and phase, the decisions of its eight bits, and the bit that had
not resolved at the end of its root cycle, if there was one. In a step the column is a physical one; in a known-answer kernel slot a
logical one (1,024 and 1,025 for the reference columns). -/
structure RawCode where
  p : Nat
  col : Nat
  phase : Nat
  n : Byte
  unresolved : Option (Fin 8) := none
  deriving DecidableEq, Repr

/-- Codes of a probe as they fell: raw code, and how often (R115). -/
abbrev Codes := List (Int × Nat)

/-- Probe readings of one column in a trim cycle: the raw codes that the converters latched, physical facts of the silicon. -/
structure ColProbe where
  /-- Logical column, or 1,024 and 1,025 for REF_A and REF_B. -/
  col : Nat
  /-- The null-probe codes. -/
  nulls : Codes
  /-- The block-probe codes of the four blocks. -/
  blocks : List Codes
  /-- The converter probe is wrong by more than 1 LSB on this column alone. -/
  probeAlone : Bool
  deriving DecidableEq, Repr

/-- Readings of one converter in a trim cycle: its mean idle code, and its mean code at each of the sixteen probe levels. -/
structure ConvProbe where
  conv : Nat
  idle : Rat
  levels : List Rat
  deriving DecidableEq, Repr

/-- The readings of one array in a trim cycle; what is not listed agrees with the values in force. -/
structure TrimProbe where
  p : Nat
  cols : List ColProbe
  convs : List ConvProbe
  deriving DecidableEq, Repr

/-- Readings of one converter in a calibration (R64, R65), physical facts of the silicon: its mean code on reset-level inputs; its mean
code at every code of the test DAC, from t = −512 up; whether every n from 1 to 254 occurred; its mean code and its standard deviation
at each of the eight VERIFY codes. -/
structure CalMeas where
  conv : Nat
  zero : Rat
  sweep : List Rat
  allCodes : Bool
  verify : List Rat
  devs : List Rat
  deriving DecidableEq, Repr

/-- What a calibration measured on one array: mast, array, and the converters whose readings differ from the
command's default reading. -/
structure ArrMeas where
  m : Nat
  p : Nat
  convs : List CalMeas
  deriving DecidableEq, Repr

end Sys2Proof
end

