-- ==== Sys2Proof/Types/Events.lean ====
section
/-! DEFINITION. What the device meets at an event, where one operand tells several things. -/

namespace Sys2Proof

/-- A commit sweep (R226): the context of the batch, and how many completion writes the host takes (R467). -/
structure SweepOf where
  ctx : Nat
  written : Nat
  deriving DecidableEq, Repr

/-- Where the task of a reset spindle goes (R290), and, where a word of its scratch reset it (R319), that word's address ÷ 8. -/
structure Heir where
  spindle : Nat
  ecc : Option Nat
  deriving DecidableEq, Repr

/-- The context that a member takes a RESERVE item for, and the handle of a FORK's source (log entries 35 and 36). -/
structure ReserveFor where
  ctx : Nat
  fork : Option W32
  deriving DecidableEq, Repr

/-- The context that a member takes a RELEASE item for, and whether the whole sequence is released (log entries 35 and 36). -/
structure ReleaseFor where
  ctx : Nat
  whole : Bool
  deriving DecidableEq, Repr

/-- What the engine meets as it goes on with the rings (R380): the commands it reads, and how many completion writes the host takes. -/
structure RingGoes where
  cmds : List (Option (List Byte))
  written : Nat
  deriving DecidableEq, Repr

/-- Of a power sample: the 10 µs average in W (R410), and the laser bias currents of the optical engines (Table 6.10). -/
structure PowerTold where
  avg10 : Nat
  bias : List W16
  deriving DecidableEq, Repr

end Sys2Proof
end

