-- ==== Sys2Proof/Types/Integrity.lean ====
section
/-! DEFINITION. The records of chapter 14: severities, error records, repeats, digest rounds, and the
registers of the integrity block. -/

namespace Sys2Proof

/-- Table 14.5: severities. -/
inductive Sev where
  | corrected | repeated | degraded | ctxFatal | jobFatal | devFatal
  deriving DecidableEq, Repr

/-- Table 14.6: an error record. -/
structure ErrRec where
  seqno : W32
  sev : Sev
  nested : Bool
  escalated : Bool
  source : Nat
  typ : Nat
  time : W64
  step : Nat
  ctx : Option Nat
  detail : W64
  deriving DecidableEq, Repr

/-- A block that fails its check value when an operation reads it (R317): 0 an activation-store line, 1 an inbox row (by HBM
address), 2 a tensor of the master copy (by HBM address); its line or address; whether the second read fails too. -/
structure BlkFail where
  kind : Nat
  addr : Nat
  again : Bool
  deriving DecidableEq, Repr

/-- A block or word of the sequence engine's own stores that cannot be read (Table 14.2, Table 10.13): 0 a sequence entry, 1 an
input-store block, 2 a block of the page-table store, of a count table or of the sampler record store; its HBM address, where it
lies in HBM; the sequences that use it (log entry 89); whether its second read fails too (R317; an entry has none). -/
structure StoreFault where
  kind : Nat
  addr : Nat
  entries : List Nat
  again : Bool := true
  deriving DecidableEq, Repr

/-- A finding of a check on a token: its record's type and DETAIL, and the arrays it charges (R328). -/
structure Find where
  typ : Nat
  detail : W64
  arrays : List Nat
  deriving DecidableEq, Repr

/-- What a token's path meets as its words arrive (R328): a parity error in a word of converter codes of an array, and whether the word
sent again fails too (R318); an error in the splice SRAM, met by an array, or in the outlier table of the ply, by its word address ÷ 8,
and whether it is a double-bit one (R93); a partial input whose block fails its check value, by line number, and whether the second read
fails too (Table 5.5, R317). -/
inductive PathFault where
  | bond (p : Nat) (again : Bool)
  | splice (p : Nat) (addr : Nat) (double : Bool)
  | outlier (addr : Nat) (double : Bool)
  | partialIn (line : Nat) (again : Bool)
  deriving DecidableEq, Repr

/-- A word of a mast's splice SRAM or outlier store that cannot be corrected any more (R93): its mast; the array, or the mast-wide ply,
that it belongs to; its word address ÷ 8. -/
structure BadWord where
  outlier : Bool
  mast : Nat
  owner : Nat
  addr : Nat
  deriving DecidableEq, Repr

/-- An error found here that no other row brings: a parity error on an on-chip hop, by its number in Table 14.17, and whether the word
sent again fails too (R318); a single-bit error that an ECC corrects, by the memory code of Table 14.7, its source (0 to 3 a mast, 4 the
hub) and its word address ÷ 8 (R319). -/
inductive Found where
  | hop (n : Nat) (again : Bool)
  | single (memory : Nat) (source : Nat) (addr : Nat)
  deriving DecidableEq, Repr

/-- A token's repeat in progress (R329), or its arbitration (R330): where it is, its findings, when they were detected and whether
another error was being handled then (R335, R338); once the repeat has failed on plausibility alone: the arrays whose terms lie outside
their bounds, the values that bands would have to let in. -/
structure Repeat where
  mast : Nat
  acc : Nat
  tau : Nat
  finds : List Find
  time : W64 := 0
  nested : Bool := false
  arbitrating : Bool
  outside : List Nat
  wide : List (Nat × Rat)
  deriving DecidableEq, Repr

/-- A known-answer finding that waits for its repeat (R324, Table 14.3): mast, array, pattern, logical columns, and its detection. -/
structure KernFind where
  m : Nat
  p : Nat
  pat : Nat
  cols : List Nat
  time : W64 := 0
  nested : Bool := false
  deriving DecidableEq, Repr

/-- A cell digest that mismatched once and is taken again in the next restore cycle (R326): mast, array, and its
detection. -/
structure CellFind where
  m : Nat
  p : Nat
  time : W64
  nested : Bool
  deriving DecidableEq, Repr

/-- A digest round in progress (R325): the device step at which it began, the whole restore cycles that each mast has given it (none while a cycle runs that had begun before the round), the arrays to
take again, and the permanent mismatches of cells. -/
structure DigestRound where
  step : Nat
  cycles : List (Option Nat) := [some 0, some 0, some 0, some 0]
  again : List CellFind := []
  fails : Nat := 0
  deriving DecidableEq, Repr

/-- The registers of the integrity block (Tables 14.12 to 14.16) and what stands behind them. -/
structure Integ where
  plausWide : Byte := 0x08
  refMult : Byte := 0x05
  kakTol : Byte := 0x20
  logOvf : Bool := false
  fatalFull : Bool := false
  restartTmo : Bool := false
  ctxFatal : W16 := 0
  log : List ErrRec := []
  tail : W32 := 0
  head : W32 := 0
  lost : W32 := 0
  sel : W32 := 0
  copy : List W64 := []
  /-- INT_JOB. -/
  jobState : BitVec 4 := 0
  phase : BitVec 3 := 0
  lostDev : BitVec 17 := 0
  epoch : W32 := 0
  jobTmo : W32 := 0x1F4
  haltTime : Nat := 0
  haltSrc : Nat := 0
  haltReason : Nat := 0
  /-- Ranks whose RESTART_READY of the epoch the coordinator holds (R340). -/
  readys : List Nat := []
  /-- LOCAL_TIME of the last RESTART_READY or JOB_HALT sent (R372). -/
  sentAt : Nat := 0
  foreign : W32 := 0
  corrected : W64 := 0
  data : W64 := 0
  digEn : Bool := true
  digLog2 : BitVec 6 := 0x10
  digBusy : Bool := false
  digFails : BitVec 15 := 0
  digRounds : W16 := 0
  digBuf : W64 := 0
  round : Option DigestRound := none
  /-- RESTART_TMO has been recorded for the halt in progress (R342). -/
  tmoDone : Bool := false
  /-- Known-answer findings that wait for their repeat (R324, Table 14.3). -/
  kernels : List KernFind := []
  /-- Words of splice SRAMs and outlier stores with an error that ECC cannot correct (R93). -/
  badWords : List BadWord := []
  /-- Pages that VERIFY checks: those of the steps that the halt rolled back (Table 14.8). -/
  verify : List Nat := []
  /-- Arrays whose restart rewrite waits, because their slot's image in HBM is being written into the incoming array of a re-plan
  (Table 14.8, R136): mast, array. -/
  owed : List (Nat × Nat) := []
  /-- A round is due and waits for the one in progress (R325). -/
  roundDue : Bool := false
  /-- Repeats and arbitrations in progress: errors being handled (R338). -/
  repeats : List Repeat := []
  deriving DecidableEq, Repr

end Sys2Proof
end

