-- ==== Sys2Proof/Types/Seq.lean ====
section
/-! DEFINITION. The records of the sequence engine (chapter 10): table entries, command descriptors,
completions, batches in flight. -/

namespace Sys2Proof

/-- Table 10.2: sequence states. -/
inductive SeqState where
  | free | admitted | prefill | decode | waiting | parked | spilled | ended | cancelled | expired
  | faulted | restarting
  deriving DecidableEq, Repr

/-- Table 10.4: a command descriptor. -/
structure Desc where
  opcode : Nat
  flags : Nat
  ctx : Nat
  priority : Nat
  handle : W32
  tag : W32
  count : Nat
  tokens : W64
  deadline : Nat
  hint : Nat
  pfx : Nat
  reel : W64
  smp : W64
  deriving DecidableEq, Repr

/-- Table 10.5: a completion, byte 11 included (R235). -/
structure Cpl where
  tag : W32
  handle : W32
  status : Byte
  opcode : Nat
  state : Nat
  byte11 : Nat
  deriving DecidableEq, Repr

/-- Table 10.1: a sequence entry, and what the engine keeps beside it: its place in the order of promotion
(R222), the CANCELs that wait (R230), the fault reported for its step (R227), and the state PARKED left. -/
structure SeqEntry where
  st : SeqState := .free
  prior : SeqState := .free
  ctx : BitVec 4 := 0
  priority : BitVec 3 := 0
  promoted : Bool := false
  inFlight : Bool := false
  gen : BitVec 15 := 1
  pendRec : BitVec 2 := 0
  fault : BitVec 4 := 0
  moving : Bool := false
  cancelPend : Bool := false
  /-- EXP_FROM: true for DECODE. -/
  expFrom : Bool := false
  length : BitVec 21 := 0
  skip : BitVec 10 := 0
  input : BitVec 21 := 0
  nextValid : Bool := false
  next : BitVec 20 := 0
  deadline : W64 := 0
  hint : W64 := 0
  pageTable : W64 := 0
  inputPtr : W64 := 0
  reel : W64 := 0
  smp : W32 := 0
  commits : W32 := 0
  promoOrder : Nat := 0
  cancels : List Desc := []
  stepFault : BitVec 4 := 0
  deriving DecidableEq, Repr

/-- One sequence of a batch step: its entry, its positions before the step, the input tokens it takes (NEXT or
a chunk), and whether the step samples (R225). `pages` are the pages of its snapshot (R261), `took` those of them
that the step took from the pool. -/
structure Member where
  idx : Nat
  base : Nat
  toks : List Nat
  prefill : Bool
  samples : Bool
  pages : List Nat := []
  took : List Nat := []
  /-- The sequence's step is a re-run after a job restart (R232). -/
  rerun : Bool := false
  /-- Exclusion ranges and learned-prefix length at formation (R279, R280). -/
  ranges : List W64 := []
  p0 : Nat := 0
  /-- Tokens of the chunk that came from APPEND's NEXT (R302). -/
  nextFirst : Bool := false
  deriving DecidableEq, Repr

/-- A batch step in flight (R14, R15, R469). -/
structure Batch where
  step : Nat
  ctx : Nat
  group : Nat
  /-- The layer of a reload-mode batch. -/
  layer : Nat := 0
  members : List Member
  /-- The batch has finished its layer group and waits to move (R469). -/
  finished : Bool := false
  /-- Masts whose stream has completed the batch's work in this beat. -/
  doneMasts : List Nat := []
  /-- A replay batch (R354), and a batch that a restart re-forms (R232). -/
  replay : Bool := false
  /-- SAMPLE has released the batch to the sampler, and the sampler has delivered (R179, R305). -/
  released : Bool := false
  sampledAll : Bool := false
  /-- The commit sweep has run. -/
  swept : Bool := false
  /-- TRIM_GEN of the masts at formation (Table 15.4). -/
  trimGen : List W32 := []
  /-- First τ of each member; set by the head, or from the BATCH items (R238), or by a replay record. -/
  taus : List Nat := []
  /-- τ of the sampling vector of a replay batch. -/
  tauL : Nat := 0
  /-- A batch that a head on another device formed (R238). -/
  remote : Bool := false
  /-- A reload-mode batch whose present beat only loads its layer (R185). -/
  loading : Bool := false
  deriving DecidableEq, Repr

/-- What the sampler delivered for one member: token, LP word, flags, until its commit point (R226, R305). -/
structure Sampled where
  step : Nat
  idx : Nat
  token : Nat
  lp : W32
  rank : Nat
  deriving DecidableEq, Repr

/-- A command that waits for the members' reservations (R239): its entry, the ranks that have not answered and those
that have reserved, the reel descriptor and sampler record read for it; the rows and store blocks that it has reserved here while its
entry is FREE (R255, R259); whether a member has refused. -/
structure Await where
  idx : Nat
  ctx : Nat
  cmd : Desc
  rows : Nat := 0
  blocks : Nat := 0
  refused : Bool := false
  waiting : List Nat
  acked : List Nat
  reel : List Byte
  smp : List Byte
  deriving DecidableEq, Repr

/-- The registers and queues of the sequence engine (Tables 10.15 to 10.18). -/
structure SeqRegs where
  enable : Bool := false
  ageLimit : BitVec 10 := 0x40
  chunkMax : BitVec 14 := 0x2000
  cqErr : Bool := false
  fetchErr : Bool := false
  cplErr : Bool := false
  cqBase : W64 := 0
  cqSize : BitVec 17 := 0x40
  cqTail : W16 := 0
  cqHead : W16 := 0
  cplSize : BitVec 17 := 0x40
  cplBase : W64 := 0
  cplTail : W16 := 0
  cplHead : W16 := 0
  step : BitVec 48 := 0
  hint : W64 := 0
  sel : BitVec 17 := 0
  expired : W32 := 0
  promoted : W32 := 0
  copy : List W64 := []
  /-- Commands fetched and not yet decided, in ring order (R212). -/
  fetched : List Desc := []
  /-- Completions held, in order (R467). -/
  held : List Cpl := []
  /-- LOCAL_TIME of the last failed completion write (R467). -/
  retryAt : Nat := 0
  /-- Context last served by the formation rotation (R222). -/
  lastServed : Nat := 15
  /-- Commands that wait for members (R239). -/
  awaits : List Await := []
  /-- Records and completions wait for SEQ_CTL.ENABLE after a CXL link reset (R310, R467). -/
  linkStop : Bool := false
  /-- Fetching stopped by a failed fetch until the next write of SEQ_CQ_TAIL (R467). -/
  fetchStop : Bool := false
  /-- The next promotion's place in the order. -/
  promoNext : Nat := 0
  deriving DecidableEq, Repr

end Sys2Proof
end

