-- ==== Sys2Proof/Types/Kv.lean ====
section
/-! DEFINITION. The records of chapters 10, 11, 13 and 15 kept beside each sequence entry: page descriptors and
tables, input store, exclusion ranges, sampler records, reels; moves, prefixes, the recorder and the replay. -/

namespace Sys2Proof

open Machine

/-- A page descriptor (Table 11.8). -/
structure PDesc where
  refs : W16 := 0
  ro : Bool := false
  defer : Bool := false
  lost : Bool := false
  zeroing : Bool := false
  inuse : Bool := false
  ctx : BitVec 4 := 0
  tag : BitVec 48 := 0
  deriving DecidableEq, Repr

/-- The page tables of one sequence on this device (R249) and its reservation word (R255). `pages` maps entry e to
its page number plus one, 0 for an entry that is not VALID; `ptrs` a pointer to its table block, plus one. The blocks of the page-table store
show both as words (`State.storeWord`). -/
structure Tables where
  owned : Bool := false
  ctx : Nat := 0
  /-- The first store block of the directory. -/
  dir : Nat := 0
  dirBlocks : Nat := 0
  ptrs : Tab Nat := []
  pages : Tab Nat := []
  resRows : W16 := 0
  released : Bool := false
  /-- LENGTH of a head entry shadowed by a member, and the head's rank (R238). -/
  shadow : Nat := 0
  headRank : Nat := 0
  deriving DecidableEq, Repr

/-- The input tokens of a sequence (R219): tokens not yet prefilled, tokens already taken from the first block, and
whether the first one is the NEXT that APPEND placed (R220). -/
structure Input where
  toks : List Nat := []
  off : Nat := 0
  nextFirst : Bool := false
  /-- Tokens still being copied. -/
  copying : Nat := 0
  deriving DecidableEq, Repr

/-- Exclusion ranges of an entry, the length and slot of its learned prefix (R279, R280). -/
structure Xr where
  ranges : List W64 := [0, 0, 0, 0, 0, 0, 0, 0]
  p0 : Nat := 0
  prefixSlot : Option Nat := none
  deriving DecidableEq, Repr

/-- A stored sampler record (R295): bytes 0 to 215, NEW, FULL, the MATCH words, sampled tokens whose MATCH update is due
(R303), and the count table (R302), token to COUNT. -/
structure Smp where
  par : List Byte := []
  new : W32 := 0
  full : Bool := false
  matches_ : List Byte := [0, 0, 0, 0]
  due : Option Nat := none
  counts : Tab Nat := []
  deriving DecidableEq, Repr

/-- A reel (R306 to R310): the descriptor as read, HEAD as last read, the SEQNO of the next record, the SEQNO of the
last TOKEN record; records with room whose writes have not completed, records held; a stop by WR_ERR; TAIL owed. -/
structure Reel where
  base : W64 := 0
  size : Nat := 0
  notify : Nat := 0
  head : W32 := 0
  seqno : W32 := 0
  lastToken : Option W32 := none
  queue : List (List Byte) := []
  held : List (List Byte) := []
  /-- Records at the head of the queue up to the last one that had been held: a parked sequence waits for their writes (R233). -/
  heldQ : Nat := 0
  stopped : Bool := false
  tailOwed : Bool := false
  /-- A status record, or any record, is among those written since the last TAIL write. -/
  status : Bool := false
  any : Bool := false
  /-- LOCAL_TIME of the last read of HEAD. -/
  readAt : Nat := 0
  deriving DecidableEq, Repr

/-- A SPILL or RECALL accepted and not yet complete (R266), and the table entries of the pages that it has lost (R267). -/
structure Move where
  back : Bool
  idx : Nat
  cmd : Desc
  lost : List Nat := []
  deriving DecidableEq, Repr

/-- How the transfer of one page of a move ends (R267, R317): the page has moved, with the bytes of a recalled one, a block of it perhaps
passing its check value only when read again; the host link failed twice; a block of the source failed twice. -/
inductive PageMove where
  | moved (data : List Byte) (reread : Bool)
  | linkError
  | badBlock
  deriving DecidableEq, Repr

/-- A learned-prefix slot on this device (R257): pages by table entry e, as in `Tables`. -/
structure PrefixSlot where
  loaded : Bool := false
  length : Nat := 0
  users : Nat := 0
  pages : Tab Nat := []
  deriving DecidableEq, Repr

/-- A prefix command in progress: context, slot, length. A command on a slot that a SUBMIT names waits until that is decided (Table
11.4). -/
structure PfxJob where
  ctx : Nat
  slot : Nat
  len : Nat
  src : W64
  /-- A SUBMIT that names the slot is still to be decided (R271). -/
  held : Bool := false
  clear : Bool := false
  deriving DecidableEq, Repr

/-- The page registers (Tables 11.6 to 11.9) and the moves accepted. -/
structure Kv where
  starved : Bool := false
  lost : Bool := false
  wrRej : Bool := false
  retain : W16 := 0
  hostBase : W64 := 0
  hostPages : BitVec 25 := 0
  starve : W32 := 0
  lostCnt : W32 := 0
  floors : List (BitVec 22) := [0x4000, 0x4000, 0x4000, 0x4000, 0x4000, 0x4000, 0x4000, 0x4000]
  copies : W64 := 0
  moved : W64 := 0
  ctxSel : BitVec 4 := 0
  psel : BitVec 25 := 0
  moves : List Move := []
  pfxStatus : Byte := 0
  pfxCmd : BitVec 4 := 0
  pfxSrc : W64 := 0
  pfxSelCtx : BitVec 4 := 0
  pfxSelSlot : BitVec 12 := 0
  pfxJob : Option PfxJob := none
  /-- Pages with a copy-on-write copy still running: source, new page, slots to copy (R260). -/
  copying : List (Nat × Nat × Nat) := []
  deriving DecidableEq, Repr

/-- The exclusion-range registers (Table 12.14). -/
structure XRegs where
  handle : W32 := 0
  status : Byte := 0
  cmdLast : BitVec 4 := 0
  ranges : List W64 := [0, 0, 0, 0, 0, 0, 0, 0]
  deriving DecidableEq, Repr

/-- The sampler and reel registers (Tables 13.7 to 13.10). -/
structure SmpRegs where
  faults : W32 := 0
  full : W32 := 0
  draws : W64 := 0
  copy : List W64 := []
  pollUs : W16 := 0x64
  badHead : Bool := false
  wrErr : Bool := false
  kickRej : Bool := false
  headErr : Bool := false
  records : W64 := 0
  err : W32 := 0
  deriving DecidableEq, Repr

/-- A STEP record a commit point owes the recorder (R349): the records are written after the sweep. -/
structure RecDue where
  idx : Nat
  step : Nat
  tau : Nat
  batchToks : Nat
  batchSeqs : Nat
  toks : List Nat
  length : Nat
  outcome : Nat
  sampled : Bool
  restart : Bool
  token : Nat
  lp : Nat
  tauL : Nat
  trimGen : List W32
  ranges : List W64
  deriving DecidableEq, Repr

/-- The recorder's registers (Table 15.9), the armed entries with the ranges last recorded, and the records due. -/
structure Recorder where
  en : Bool := false
  ctxAuto : W16 := 0
  ovf : Bool := false
  armRej : Bool := false
  armStatus : Byte := 0
  size : BitVec 9 := 0x40
  tail : BitVec 22 := 0
  head : BitVec 22 := 0
  dropped : W32 := 0
  seqno : W32 := 0
  armed : List (Nat × List W64) := []
  due : List RecDue := []
  deriving DecidableEq, Repr

/-- A STEP record of a replay chain, with the ranges in force (R354). -/
structure RplStep where
  step : Nat
  tau : Nat
  tauL : Nat
  sampled : Bool
  token : Nat
  lp : Nat
  toks : List Nat
  base : Nat
  ranges : List W64
  /-- The first token is the NEXT of the step before, so that COUNT_INPUT does not count it (R302). -/
  nextFirst : Bool
  deriving DecidableEq, Repr

/-- A replay in progress: its context, prefix, sampler record, steps still to run, ordinary formations since the last
replay batch, the text its digest has absorbed, whether ABORT waits, whether a batch is in flight. -/
structure RplJob where
  ctx : Nat
  prefixSlot : Nat
  p0 : Nat
  smp : Smp
  steps : List RplStep
  gap : Nat
  absorbed : List Byte
  abort : Bool
  flight : Bool
  deriving DecidableEq, Repr

/-- The replay registers (Table 15.9). -/
structure Rpl where
  /-- A chain is being read (R353): the length latched. -/
  reading : Bool := false
  readLen : Nat := 0
  status : Byte := 0
  cmdLast : BitVec 4 := 0
  src : W64 := 0
  len : W32 := 0
  gap : Byte := 0x10
  maxDlp : W16 := 0
  diff : W16 := 0
  steps : W32 := 0
  first : Option (BitVec 48) := none
  digest : List W64 := [0, 0, 0, 0]
  job : Option RplJob := none
  deriving DecidableEq, Repr

end Sys2Proof
end

