-- ==== Sys2Proof/Types/Link.lean ====
section
/-! DEFINITION. The records of the host link and the mailboxes (chapter 17). -/

namespace Sys2Proof

/-- One MSI-X vector (R383, R384): its mask bit (1 at reset, log entry 8), its PBA bit, its holdoff, when it was
last sent, and whether events are gathered for the message at the holdoff's end. -/
structure Vec where
  masked : Bool := true
  pba : Bool := false
  holdoff : W16 := 0
  sent : Bool := false
  sentAt : Nat := 0
  gathered : Bool := false
  /-- The message of the vector's table entry: address and data. -/
  addr : W64 := 0
  data : W32 := 0
  deriving DecidableEq, Repr

/-- A reply that waits for its mailbox (R391): the buffer address, the bytes to write there, the notice's length and SEQ. -/
structure Reply where
  addr : W64
  bytes : List Byte
  len : Nat
  seq : W32
  deriving DecidableEq, Repr

/-- One mailbox (Tables 17.16 to 17.18) and the replies that wait for it. -/
structure Mbx where
  addr : W64 := 0
  len : W32 := 0
  seq : W32 := 0
  full : Bool := false
  overrun : Bool := false
  wrRej : Bool := false
  cleatRej : Bool := false
  owner : BitVec 10 := 0
  dropped : Byte := 0
  held : List Reply := []
  deriving DecidableEq, Repr

/-- Requests over DOE (R385): discovery, and the SPDM requests that the Poari supports, GET_MEASUREMENTS, IDE_KM and
END_SESSION apart, which are commands of their own. -/
inductive DoeReq where
  | discovery | getVersion | getCapabilities | negotiateAlgorithms | getDigests | getCertificate (slot : Nat) | challenge
  | keyExchange (session : Nat)
  /-- FINISH of a session, with the requester's public key where it was authenticated. -/
  | finish (session : Nat) (requester : Option (List Byte))
  | keyUpdate (session : Nat) | heartbeat (session : Nat)
  /-- Any other request. -/
  | other
  deriving DecidableEq, Repr

/-- An SPDM session (R387): its number, whether FINISH has come, and the SHA3-256 digest of the requester's public key where the
session used mutual authentication. -/
structure Session where
  id : Nat
  done : Bool
  requester : Option (List Byte)
  deriving DecidableEq, Repr

/-- The host link and the bound stream (Tables 17.13 and 17.15). -/
structure HostLink where
  st : BitVec 2 := 0
  lanes : W16 := 0
  pairMap : Byte := 0
  resets : W32 := 0
  /-- Bus Master Enable and D3hot of the function (R380). -/
  bme : Bool := false
  d3hot : Bool := false
  /-- LOCAL_TIME at which training last began (R376). -/
  trainAt : Nat := 0
  secRej : W32 := 0
  bound : Bool := false
  memIde : Bool := false
  ioIde : Bool := false
  memId : Byte := 0
  ioId : Byte := 0
  /-- The session of the bound stream, and the requester digest kept since the last cold or warm reset. -/
  boundSession : Nat := 0
  requester : Option (List Byte) := none
  sessions : List Session := []
  deriving DecidableEq, Repr

end Sys2Proof
end

