-- ==== Sys2Proof/Types/Mast.lean ====
section
/-! DEFINITION. The registers of one mast window that are not an array's or an accumulator's own. -/

namespace Sys2Proof

/-- One mast's registers and counters (Tables 1.6, 2.16 to 2.20, 4.9 to 4.11, 5.7, 5.8, 6.18). -/
structure Mast where
  /-- MAST_BEAT_STAT. -/
  cause : BitVec 4 := 0
  tokens : BitVec 14 := 0
  duration : W32 := 0
  /-- The array step counter (R41) and whether the maintenance work of the present slot is done. -/
  stepCtr : Nat := 0
  slotDone : Bool := false
  /-- Maintenance slot of the restore cycle, 0 to 780 (R42). -/
  slotNo : Nat := 0
  hostInt : BitVec 2 := 0
  effInt : BitVec 2 := 0
  ageInt : BitVec 2 := 0
  tempInt : BitVec 2 := 0
  /-- Row of Table 2.9 the mast is in. -/
  band : Nat := 0
  rstFail : Bool := false
  rstCycles : W64 := 0
  wrQueue : List Nat := []
  splNonfin : W32 := 0
  splZero : W32 := 0
  splDed : W16 := 0
  splSec : W16 := 0
  kover : W32 := 0
  accNonfin : W32 := 0
  accSat : W32 := 0
  accStall : W64 := 0
  adcMeta : W32 := 0
  trimGen : W32 := 0
  trimCount : W64 := 0
  /-- Restore cycles completed of the running trim cycle (R118). -/
  trimRc : Nat := 0
  /-- Restore cycles left of the hold after a ladder change, and consecutive quiet ones (R135). -/
  ladderHold : Nat := 0
  quiet : Nat := 0
  deriving DecidableEq, Repr

/-- What a beat measured of one mast (R470), in ticks: its times of ATTEND, VECTOR and RECV, whether its time fell short of the beat,
and the time a reload beat waited on writes (R186). ARRAY and MEMORY follow from the batch's work. -/
structure MastTerms where
  mast : Nat
  attend : Nat
  vector : Nat
  recv : Nat
  short : Bool
  wait : Nat
  deriving DecidableEq, Repr

end Sys2Proof
end

