-- ==== Sys2Proof/Syntax.lean ====
section
/-! DEFINITION. The commands of the Poari: one constructor for each row of the table of operations and events, with the row's
operands. Numbers of masts, arrays, contexts and the like are natural numbers, whose ranges WellFormed.lean gives. An operand
that is no operand of a host's command tells what the device meets as the event happens: what a read of host memory or a
sensor returned, whether a write succeeded, which blocks fail their check values. -/

namespace Sys2Proof

/-- The commands. -/
inductive Instr where
  /-- REGISTER_WRITE (R5). -/
  | registerWrite (bar2 : Bool) (spindle : Bool) (o : Nat) (width : Nat) (v : W64)
  /-- BEAT_BOUNDARY (R15). -/
  | beatBoundary (terms : List MastTerms) (stores : List StoreFault)
  /-- SLICE_EXPIRED (R159). -/
  | sliceExpired
  /-- ARRAY_STEP_SLOT (R41). -/
  | arrayStepSlot (m : Nat) (codes : List RawCode)
  /-- MAINTENANCE_SLOT (R42). -/
  | maintenanceSlot (m : Nat) (senses : List Sense) (codes : List RawCode)
  /-- RESTORE_CYCLE_END (R43). -/
  | restoreCycleEnd (m : Nat) (scrubbed : List (Nat × Nat))
  /-- RESTORE_FAILURE (R44). -/
  | restoreFailure (m : Nat) (p : Nat)
  /-- DIE_TEMP_SAMPLE (R45). -/
  | dieTempSample (m : Nat) (temps : List W16)
  /-- WRITE (R36). -/
  | write (m : Nat) (p : Nat) (host : Bool)
  /-- WRITE_DEQUEUE (R37). -/
  | writeDequeue (m : Nat)
  /-- WRITE_ROW_WINDOW (R36). -/
  | writeRowWindow (m : Nat) (p : Nat) (r : RowRead)
  /-- WRITE_COMPLETE (R38). -/
  | writeComplete (m : Nat) (p : Nat) (bad : List Nat)
  /-- COLWRITE (R40). -/
  | colwrite (m : Nat) (p : Nat) (host : Bool)
  /-- COLWRITE_COMPLETE (R40). -/
  | colwriteComplete (m : Nat) (p : Nat) (fails : Bool)
  /-- ABORT (R50). -/
  | abort (m : Nat) (p : Nat) (host : Bool)
  /-- DISCARD (R46). -/
  | discard (m : Nat) (p : Nat) (host : Bool)
  /-- MAST_ARR_RET_WRITE (R48). -/
  | mastArrRetWrite (m : Nat) (p : Nat) (retired : Bool)
  /-- ADC_SELFCAL (R63). -/
  | adcSelfcal
  /-- ADC_SELFCAL_PHASE_END (R64). -/
  | adcSelfcalPhaseEnd (meas : List ArrMeas) (dflt : CalMeas) (last : Bool)
  /-- ADC_ABORT (R68). -/
  | adcAbort
  /-- ADC_SAVE (R71). -/
  | adcSave
  /-- ADC_SAVE_COMPLETE (R71). -/
  | adcSaveComplete
  /-- ADC_RESTORE (R72). -/
  | adcRestore
  /-- ADC_RESTORE_COMPLETE (R72). -/
  | adcRestoreComplete (set : Option (List Byte))
  /-- ADC_FACTOR_WRITE (R73). -/
  | adcFactorWrite (v : W64)
  /-- ADC_MAP_WRITE (R54). -/
  | adcMapWrite (v : W32)
  /-- PLY_TOKEN_STEP (R80). -/
  | plyTokenStep (m : Nat) (n : Nat) (codes : List RawCode) (faults : List PathFault)
  /-- TILE_DRAIN_START (R109). -/
  | tileDrainStart (m : Nat) (n : Nat) (t : Nat)
  /-- TILE_DRAINED (R109). -/
  | tileDrained (m : Nat) (n : Nat) (t : Nat)
  /-- TOKEN_REPEAT (R329). -/
  | tokenRepeat (m : Nat) (n : Nat) (tau : Nat) (codes : List RawCode) (faults : List PathFault)
  /-- PLAUSIBILITY_ARBITRATION (R330). -/
  | plausibilityArbitration (m : Nat) (n : Nat) (tau : Nat)
  /-- SPL_LOAD (R89). -/
  | splLoad (m : Nat) (p : Nat) (lmap : BitVec 2) (host : Bool)
  /-- SPL_LOAD_COMPLETE (R89). -/
  | splLoadComplete (m : Nat) (p : Nat) (blocks : List (Bool × Bool))
  /-- SPL_CLEAR (R89). -/
  | splClear (m : Nat) (p : Nat) (host : Bool)
  /-- TRIM_CYCLE_END (R118). -/
  | trimCycleEnd (m : Nat) (probes : List TrimProbe)
  /-- TRIM_COL_WRITE (R121). -/
  | trimColWrite (v : W64)
  /-- TRIM_SAVE (R129). -/
  | trimSave
  /-- TRIM_SAVE_COMPLETE (R129). -/
  | trimSaveComplete
  /-- TRIM_RESTORE (R130). -/
  | trimRestore
  /-- TRIM_RESTORE_COMPLETE (R130). -/
  | trimRestoreComplete (set : Option (List Byte))
  /-- AGE_SAVE (R138). -/
  | ageSave
  /-- AGE_RESTORE (R138). -/
  | ageRestore (r : Option (List Byte))
  /-- LASER_WARN (R139). -/
  | laserWarn (e : Nat) (bias : W16)
  /-- LASER_END_OF_LIFE (R450). -/
  | laserEndOfLife (e : Nat)
  /-- SAIL_OPKEY_WRITE (R144). -/
  | sailOpkeyWrite (n : Nat) (v : W64)
  /-- SAIL_LOAD (R154). -/
  | sailLoad (named : List Nat)
  /-- SAIL_PLAN_READ (R154). -/
  | sailPlanRead (bytes : Option (List Byte))
  /-- SAIL_ABORT (R160). -/
  | sailAbort
  /-- PLY_MVM (R169). -/
  | plyMvm (m : Nat) (bad : Option BlkFail)
  /-- SPLICE (R172). -/
  | splice (m : Nat) (bad : Option BlkFail)
  /-- ATTEND (R173). -/
  | attend (m : Nat) (bad : Option BlkFail)
  /-- ATTEND_JOB_START (R282). -/
  | attendJobStart (m : Nat) (pages : List (Nat × Bool))
  /-- EXPAND (R173). -/
  | expand (m : Nat) (bad : Option BlkFail)
  /-- NORM (R174). -/
  | norm (m : Nat) (bad : Option BlkFail) (slow : Nat)
  /-- ROPE (R174). -/
  | rope (m : Nat) (bad : Option BlkFail) (slow : Nat)
  /-- ACT (R174). -/
  | act (m : Nat) (bad : Option BlkFail) (slow : Nat)
  /-- ADD (R174). -/
  | add (m : Nat) (bad : Option BlkFail)
  /-- SCALE (R174). -/
  | scale (m : Nat) (bad : Option BlkFail)
  /-- SEND (R175). -/
  | send (m : Nat) (bad : Option BlkFail)
  /-- RECV (R175). -/
  | recv (m : Nat) (bad : Option BlkFail)
  /-- RECV_TIMEOUT (R176). -/
  | recvTimeout (m : Nat)
  /-- GATHER (R177). -/
  | gather (m : Nat) (bad : Option BlkFail)
  /-- LOGITS (R178). -/
  | logits (m : Nat) (bad : Option BlkFail)
  /-- SAMPLE (R179). -/
  | sample (m : Nat)
  /-- CHECK (R180). -/
  | check (m : Nat) (bad : Option BlkFail)
  /-- BARRIER (R180). -/
  | barrier (m : Nat)
  /-- REPEAT (R167). -/
  | repeatBody (m : Nat)
  /-- WLOAD (R201). -/
  | wload (c : Nat)
  /-- WLOAD_MANIFEST_READ (R201). -/
  | wloadManifestRead (c : Nat) (bytes : Option (List Byte))
  /-- CTX_SHARD_POST (R202). -/
  | ctxShardPost (c : Nat) (v : W64)
  /-- SHARD_FETCH_COMPLETE (R202). -/
  | shardFetchComplete (k : Nat) (bytes : Option (List Byte))
  /-- WLOAD_TIMEOUT (R203). -/
  | wloadTimeout (c : Nat)
  /-- DERIVED_IMAGE_BUILT (R204). -/
  | derivedImageBuilt (c : Nat) (m : Nat) (x : Nat)
  /-- WLOAD_COMPLETE (R201). -/
  | wloadComplete (c : Nat)
  /-- START (R198). -/
  | start (c : Nat)
  /-- STOP (R200). -/
  | stop (c : Nat)
  /-- CTX_DRAIN_COMPLETE (R200). -/
  | ctxDrainComplete (c : Nat)
  /-- WABORT (R198). -/
  | wabort (c : Nat)
  /-- CTX_WBASE_WRITE (R199). -/
  | ctxWbaseWrite (c : Nat) (v : W64)
  /-- SEQ_CQ_TAIL_WRITE (R212). -/
  | seqCqTailWrite (v : W16) (slots : List (Option (List Byte))) (written : Nat)
  /-- SEQ_CPL_HEAD_WRITE (R212). -/
  | seqCplHeadWrite (v : W16) (slots : List (Option (List Byte))) (written : Nat)
  /-- COMPLETION_RETRY (R467). -/
  | completionRetry (slots : List (Option (List Byte))) (written : Nat)
  /-- SEQ_CTL_WRITE (R242). -/
  | seqCtlWrite (v : W32) (slots : List (Option (List Byte))) (written : Nat)
  /-- SEQ_HINT_WRITE (R240). -/
  | seqHintWrite (v : W64)
  /-- SEQ_ENTRY_READ (R463). -/
  | seqEntryRead
  /-- SUBMIT (R217). -/
  | submit (d : Desc) (reel : Option (List Byte)) (smp : Option (List Byte)) (ok : Bool)
  /-- APPEND (R220). -/
  | append (d : Desc) (ok : Bool)
  /-- RESUME (R215). -/
  | resume (d : Desc) (ok : Bool)
  /-- CANCEL (R230). -/
  | cancel (d : Desc) (ok : Bool)
  /-- FORK (R236). -/
  | fork (d : Desc) (reel : Option (List Byte)) (smp : Option (List Byte)) (ok : Bool)
  /-- SPILL (R264). -/
  | spill (d : Desc) (ok : Bool)
  /-- RECALL (R265). -/
  | recall (d : Desc) (ok : Bool)
  /-- MOVE_COMPLETE (R266). -/
  | moveComplete (pages : List PageMove) (ok : Bool)
  /-- RELEASE (R235). -/
  | release (d : Desc) (ok : Bool)
  /-- SET_PRIORITY (R215). -/
  | setPriority (d : Desc) (ok : Bool)
  /-- INPUT_COPY_COMPLETE (R219). -/
  | inputCopyComplete (i : Nat) (toks : Option (List Nat)) (ok : Bool)
  /-- DEADLINE_EXPIRY (R231). -/
  | deadlineExpiry (i : Nat)
  /-- SAMPLER_FINISH (R305). -/
  | samplerFinish (c : Nat)
  /-- COMMIT_SWEEP (R226). -/
  | commitSweep (x : SweepOf)
  /-- MATCH_UPDATE (R303). -/
  | matchUpdate (i : Nat)
  /-- NOTICE_WRITE (R292). -/
  | noticeWrite
  /-- RECORDER_WRITE (R349). -/
  | recorderWrite
  /-- REEL_RECORD_WRITE (R309). -/
  | reelRecordWrite (i : Nat) (ok : Bool) (tailOk : Bool)
  /-- REEL_HEAD_READ (R308). -/
  | reelHeadRead (i : Nat) (head : Option W32)
  /-- REEL_POLL (R308). -/
  | reelPoll (i : Nat) (head : Option W32)
  /-- REEL_KICK (R308). -/
  | reelKick (h : W32) (head : Option W32) (tailOk : Bool)
  /-- SMP_REC_READ (R463). -/
  | smpRecRead
  /-- PAGE_COPY_COMPLETE (R260). -/
  | pageCopyComplete
  /-- DEFERRED_FREE (R262). -/
  | deferredFree (p : Nat)
  /-- FRAME_MOVE (R247). -/
  | frameMove (p : Nat)
  /-- PFX_LOAD (R257). -/
  | pfxLoad (len : Nat)
  /-- PFX_LOAD_COMPLETE (R257). -/
  | pfxLoadComplete (bytes : Option (List Byte))
  /-- PFX_CLEAR (R257). -/
  | pfxClear
  /-- KV_HOST_BASE_WRITE (R248). -/
  | kvHostBaseWrite (pages : Bool) (v : W64)
  /-- APPLY (R294). -/
  | apply
  /-- FETCH (R294). -/
  | fetch
  /-- KW_CRC32C (R287). -/
  | kwCrc32c (m : Nat) (i : Nat) (rd : Nat) (rs1 : Nat) (rs2 : Nat)
  /-- KW_KECCAK (R287). -/
  | kwKeccak (m : Nat) (i : Nat) (rd : Nat) (rs1 : Nat)
  /-- KW_TWIST (R287). -/
  | kwTwist (m : Nat) (i : Nat) (rd : Nat) (rs1 : Nat) (rs2 : Nat) (ext : List Byte)
  /-- KW_PGWALK (R287). -/
  | kwPgwalk (m : Nat) (i : Nat) (rd : Nat) (rs1 : Nat) (rs2 : Nat)
  /-- KW_WAITEV (R287). -/
  | kwWaitev (m : Nat) (i : Nat) (rd : Nat) (rs1 : Nat)
  /-- KW_SIGNAL (R287). -/
  | kwSignal (m : Nat) (i : Nat) (rs1 : Nat) (rs2 : Nat)
  /-- SPINDLE_WATCHDOG (R290). -/
  | spindleWatchdog (m : Nat) (i : Nat) (heir : Heir)
  /-- MAST_SPN_CTL_WRITE (R291). -/
  | mastSpnCtlWrite (m : Nat) (v : W32)
  /-- OPERATOR_TRAP (R291). -/
  | operatorTrap (m : Nat) (i : Nat) (code : Byte) (pc : W64)
  /-- ECALL_CANCEL (R292). -/
  | ecallCancel (m : Nat) (i : Nat)
  /-- ECALL_SET_PRIORITY (R292). -/
  | ecallSetPriority (m : Nat) (i : Nat)
  /-- NOTIFY (R391). -/
  | notify (m : Nat) (i : Nat)
  /-- INT_LOG_HEAD_WRITE (R336). -/
  | intLogHeadWrite (v : W32)
  /-- INT_LOG_DATA_READ (R463). -/
  | intLogDataRead
  /-- DIGEST_ROUND_END (R326). -/
  | digestRoundEnd (cells : List (Nat × Nat × Bool)) (shards : List (Nat × Nat × Option (List Byte)))
  /-- JOB_HALT (R339). -/
  | jobHalt (found : Option Found)
  /-- VERIFY_COMPLETE (R340). -/
  | verifyComplete (pages : List (Nat × Bool))
  /-- RESTART_READY (R340). -/
  | restartReady
  /-- RESUME_MESSAGE (R340). -/
  | resumeMessage
  /-- RESTART_TIMEOUT (R342). -/
  | restartTimeout
  /-- RESTART_READY_RESEND (R372). -/
  | restartReadyResend
  /-- JOB_HALT_RESEND (R372). -/
  | jobHaltResend
  /-- INT_REC_ARM (R345). -/
  | intRecArm (h : W32)
  /-- INT_REC_DISARM (R346). -/
  | intRecDisarm (h : W32)
  /-- INT_REC_CTL_WRITE (R347). -/
  | intRecCtlWrite (v : W32)
  /-- INT_REC_HEAD_WRITE (R347). -/
  | intRecHeadWrite (v : W32)
  /-- REPLAY (R353). -/
  | replay
  /-- REPLAY_STEP_COMPLETE (R355). -/
  | replayStepComplete
  /-- RPL_ABORT (R356). -/
  | rplAbort
  /-- LINK_FRAME (R359). -/
  | linkFrame (p : Nat) (b : List Byte) (corrected : Nat) (uncor : Bool)
  /-- LINK_RESEND (R359). -/
  | linkResend (p : Nat)
  /-- LANE_LOCK_LOSS (R361). -/
  | laneLockLoss (p : Nat) (l : Nat)
  /-- PORT_IDLE_TIMEOUT (R361). -/
  | portIdleTimeout (p : Nat)
  /-- PORT_TRAINING_DONE (R361). -/
  | portTrainingDone (p : Nat) (lanes : Byte) (inTime : Bool)
  /-- EN (R361). -/
  | en (p : Nat) (v : Bool)
  /-- RETRAIN (R361). -/
  | retrain (p : Nat) (on : Bool)
  /-- PACKET_TRANSIT (R366). -/
  | packetTransit
  /-- ROW (R369). -/
  | row
  /-- LOGIT (R369). -/
  | logit
  /-- INPUT (R370). -/
  | input (c : Nat)
  /-- BATCH (R238). -/
  | batch (c : Nat)
  /-- COMMIT (R239). -/
  | commit (c : Nat)
  /-- RESERVE (R239). -/
  | reserve (x : ReserveFor)
  /-- RESERVE_ACK (R239). -/
  | reserveAck (ok : Bool)
  /-- REFUSE (R239). -/
  | refuse (ok : Bool)
  /-- HEAD_RELEASE (R370). -/
  | headRelease (x : ReleaseFor)
  /-- PAGE_LOST (R239). -/
  | pageLost
  /-- RANGES (R370). -/
  | ranges (c : Nat)
  /-- RIG_ROUTE_READ (R463). -/
  | rigRouteRead
  /-- CXL_LINK_RESET (R379). -/
  | cxlLinkReset
  /-- HOST_LINK_UP (R376). -/
  | hostLinkUp (pairs : Byte)
  /-- HOST_LINK_TRAIN_RETRY (R376). -/
  | hostLinkTrainRetry
  /-- BM_STOP (R380). -/
  | bmStop (bme : Bool) (d3hot : Bool) (ring : RingGoes)
  /-- VECTOR_HOLDOFF_END (R384). -/
  | vectorHoldoffEnd (v : Nat)
  /-- DOE_REQUEST (R385). -/
  | doeRequest (q : DoeReq)
  /-- GET_MEASUREMENTS (R386). -/
  | getMeasurements
  /-- IDE_KM (R387). -/
  | ideKm (sess : Nat) (memId : Byte) (ioId : Byte)
  /-- IDE_INTEGRITY_FAILURE (R387). -/
  | ideIntegrityFailure
  /-- END_SESSION (R387). -/
  | endSession (n : Nat)
  /-- BAR2_REJECT (R388). -/
  | bar2Reject (width : Nat)
  /-- DOORBELL (R390). -/
  | doorbell (k : Nat)
  /-- ACK (R390). -/
  | ack (k : Nat)
  /-- MBX_CLEAT_READ (R394). -/
  | mbxCleatRead (k : Nat) (a : Nat)
  /-- MBX_CLEAT_WRITE (R394). -/
  | mbxCleatWrite (k : Nat) (v : W32)
  /-- INFO (R392). -/
  | info (k : Nat) (msg : Option (List Byte))
  /-- LINK (R392). -/
  | link (k : Nat) (msg : Option (List Byte))
  /-- FW_STATUS (R436). -/
  | fwStatus (k : Nat) (msg : Option (List Byte)) (busy : Bool)
  /-- FW_WRITE (R436). -/
  | fwWrite (k : Nat) (msg : Option (List Byte)) (busy : Bool)
  /-- FW_ACTIVATE (R436). -/
  | fwActivate (k : Nat) (msg : Option (List Byte)) (busy : Bool)
  /-- FW_COMMIT (R436). -/
  | fwCommit (k : Nat) (msg : Option (List Byte)) (busy : Bool)
  /-- ID_INFO (R436). -/
  | idInfo (k : Nat) (msg : Option (List Byte)) (busy : Bool)
  /-- PWR_SAIL (R403). -/
  | pwrSail (w : BitVec 4)
  /-- PWR_REEF (R403). -/
  | pwrReef (w : BitVec 4)
  /-- PWR_DOUSE (R403). -/
  | pwrDouse (w : BitVec 4)
  /-- PWR_FURL (R403). -/
  | pwrFurl
  /-- POWER_CHOOSER (R401). -/
  | powerChooser
  /-- REEF_ENTRY (R398). -/
  | reefEntry (g : Nat)
  /-- DOUSE_ENTRY (R398). -/
  | douseEntry (g : Nat)
  /-- FURL_ENTRY (R404). -/
  | furlEntry
  /-- SELF_WAKE (R402). -/
  | selfWake
  /-- FIRST_ACCESS (R405). -/
  | firstAccess (m : Nat) (kind : Nat)
  /-- DIE_POWER_STABLE (R406). -/
  | diePowerStable (m : Nat) (d : Nat)
  /-- DOUSE_WAKE (R407). -/
  | douseWake
  /-- FURL_WAKE (R408). -/
  | furlWake
  /-- WAKE_SLOT_DELAY_END (R409). -/
  | wakeSlotDelayEnd
  /-- POWER_SAMPLE (R410). -/
  | powerSample (volts : W16) (amps : W16) (watts : W16) (told : PowerTold)
  /-- INPUT_UNDERVOLTAGE (R397). -/
  | inputUndervoltage
  /-- INPUT_FAULT (R397). -/
  | inputFault
  /-- NOP (R414). -/
  | nop (kind : Nat) (addr : Nat)
  /-- WAKE (R414). -/
  | wake (kind : Nat) (addr : Nat)
  /-- REEF (R414). -/
  | reef (kind : Nat) (addr : Nat)
  /-- DOUSE (R414). -/
  | douse (kind : Nat) (addr : Nat)
  /-- FURL (R414). -/
  | furl (kind : Nat) (addr : Nat)
  /-- RESET (R414). -/
  | reset (kind : Nat) (addr : Nat) (payload : Nat)
  /-- LANYARD_BAD_FRAME (R413). -/
  | lanyardBadFrame
  /-- LANYARD_STUCK (R415). -/
  | lanyardStuck (inFrame : Bool)
  /-- LANYARD_UNSTUCK (R415). -/
  | lanyardUnstuck
  /-- LANYARD_WINDOW_END (R416). -/
  | lanyardWindowEnd
  /-- CRYSTAL_FAILURE (R421). -/
  | crystalFailure
  /-- ROOT_PLL_UNLOCK (R421). -/
  | rootPllUnlock
  /-- HBM_PLL_UNLOCK (R421). -/
  | hbmPllUnlock (k : Nat)
  /-- OPTICAL_PLL_UNLOCK (R421). -/
  | opticalPllUnlock (e : Nat)
  /-- COLD_RESET (R423). -/
  | coldReset
  /-- ROM_BOOT (R432). -/
  | romBoot
  /-- FIRMWARE_RELEASE (R433). -/
  | firmwareRelease
  /-- MGMT_WATCHDOG (R437). -/
  | mgmtWatchdog
  /-- SECURITY_CORE_FAULT (R437). -/
  | securityCoreFault
  /-- CXL_MEM_WINDOW_WRITE (R382). -/
  | cxlMemWindowWrite (o : Nat) (b : List Byte)
  /-- RETURN_TO_RETENTION (R405). -/
  | returnToRetention (m : Nat)
  /-- OPTICAL_PLL_LOCK (R421). -/
  | opticalPllLock (e : Nat)
  /-- TIME_COMPARE (R287). -/
  | timeCompare (m : Nat) (i : Nat)
  /-- REPLAY_CHAIN_READ (R353). -/
  | replayChainRead (bytes : Option (List Byte))
  /-- LANYARD_RESERVED_CMD (R414). -/
  | lanyardReservedCmd (kind : Nat) (addr : Nat)
  deriving DecidableEq, Repr

end Sys2Proof
end

