-- ==== Sys2Proof/Config.lean ====
section
/-! DEFINITION. What the spec leaves open and no register fixes: the free values. Each is an opaque
constant, so nothing can be proved of its value; a meaning applies it to the counter `State.freeCtr`, or to
the operands the value depends on. -/

namespace Sys2Proof.Config

/-- A number the spec does not state (a choice it leaves open); the log entry of each use says which. -/
opaque freeNat : Nat → Nat

/-- The binary32 rounding of a real value whose enclosure the model could not separate from a rounding
boundary (log entry 12). -/
opaque freeRound : Nat → Nat

/-- The HBM address of block 0 of the page-table store, in the HBM that the Poari keeps for its own use (R249, log entry 128). -/
opaque storeBase : Nat

/-- The 256-bit secret that the ROM extracts from the SRAM PUF with the helper data of an identity record (R434). -/
opaque pufSecret : List Byte → List Byte

/-- The Krawyn key digest in the mask ROM (R430). -/
opaque krawynDigest : List Byte

end Sys2Proof.Config
end

