-- ==== Sys2Proof/Machine/Num.lean ====
section
/-! DEFINITION. Exact arithmetic and the number formats: exact extended values with signed zeros, RNE32
(R76), stochastic rounding (R100), the formats of Table 5.2, and scale exponents (R77). -/

namespace Sys2Proof.Machine

/-- An exact value: NaN, an infinity, or a rational; `nz` marks the zero that is −0. -/
inductive Ext where
  | nan
  | inf (neg : Bool)
  | num (q : Rat) (nz : Bool)
  deriving DecidableEq, Repr

/-- 2^e for an integer e. -/
def pow2 (e : Int) : Rat :=
  if 0 ≤ e then ((2 ^ e.toNat : Nat) : Rat) else 1 / ((2 ^ (-e).toNat : Nat) : Rat)

/-- ⌊log₂ q⌋ for q > 0. -/
def ilog2 (q : Rat) : Int :=
  let l : Int := (q.num.natAbs.log2 : Int) - (q.den.log2 : Int)
  if pow2 l ≤ q then l else l - 1

/-- The nearest integer, ties to even (R77). -/
def rneInt (q : Rat) : Int :=
  let d : Int := q.den
  let f := q.num.fdiv d
  let r := 2 * (q.num - f * d)
  if r < d then f else if d < r then f + 1 else if f % 2 = 0 then f else f + 1

/-- ⌊q⌋. -/
def floorInt (q : Rat) : Int := q.num.fdiv (q.den : Int)

/-- |q|. -/
def absQ (q : Rat) : Rat := if q < 0 then -q else q

/-- The encoding, sign bit apart, of q > 0 in a format of `p` significant bits whose least normal exponent
is `emin`: rounded to nearest, ties to even, subnormals kept. Nothing is done about overflow. -/
def rneBits (p : Nat) (emin : Int) (q : Rat) : Nat :=
  let E := max (ilog2 q) emin
  ((E - emin).toNat * 2 ^ (p - 1)) + (rneInt (q / pow2 (E - (p - 1 : Nat)))).toNat

/-- The value of an encoding, sign bit apart, in such a format. -/
def magValue (p : Nat) (emin : Int) (bits : Nat) : Rat :=
  let ef := bits / 2 ^ (p - 1)
  let fr := bits % 2 ^ (p - 1)
  if ef = 0 then (fr : Rat) * pow2 (emin - (p - 1 : Nat))
  else ((2 ^ (p - 1) + fr : Nat) : Rat) * pow2 (emin + (ef : Int) - 1 - (p - 1 : Nat))

namespace Ext

/-- An exact rational. -/
def ofRat (q : Rat) : Ext := .num q false

/-- +0. -/
def zero : Ext := .num 0 false

/-- The sign of a value, zeros included; false for NaN. -/
def isNeg : Ext → Bool
  | .nan => false
  | .inf n => n
  | .num q nz => if q = 0 then nz else decide (q < 0)

/-- Whether a value is finite. -/
def isFinite : Ext → Bool
  | .num _ _ => true
  | _ => false

/-- A finite value as a rational; 0 for the others. -/
def toRat : Ext → Rat
  | .num q _ => q
  | _ => 0

/-- Build a rational with the sign of zero given. -/
def mk (q : Rat) (nz : Bool) : Ext := .num q (decide (q = 0) && nz)

/-- The exact sum; −0 only when both addends are −0 (R76). -/
def add : Ext → Ext → Ext
  | .nan, _ => .nan
  | _, .nan => .nan
  | .inf a, .inf b => if a = b then .inf a else .nan
  | .inf a, _ => .inf a
  | _, .inf b => .inf b
  | .num a na, .num b nb => mk (a + b) ((decide (a = 0) && na) && (decide (b = 0) && nb))

/-- The exact negation. -/
def neg : Ext → Ext
  | .nan => .nan
  | .inf a => .inf !a
  | .num a na => mk (-a) !na

/-- The exact difference. -/
def sub (a b : Ext) : Ext := add a (neg b)

/-- The exact product; the sign of a zero is the exclusive-or of the signs (R76). -/
def mul : Ext → Ext → Ext
  | .nan, _ => .nan
  | _, .nan => .nan
  | .inf a, .inf b => .inf (a != b)
  | .inf a, .num b nb => if b = 0 then .nan else .inf (a != (num b nb).isNeg)
  | .num a na, .inf b => if a = 0 then .nan else .inf ((num a na).isNeg != b)
  | .num a na, .num b nb => mk (a * b) ((num a na).isNeg != (num b nb).isNeg)

/-- The exact quotient, by the rules of IEEE 754. -/
def div : Ext → Ext → Ext
  | .nan, _ => .nan
  | _, .nan => .nan
  | .inf _, .inf _ => .nan
  | .inf a, .num b nb => .inf (a != (num b nb).isNeg)
  | .num a na, .inf b => mk 0 ((num a na).isNeg != b)
  | .num a na, .num b nb =>
    if b = 0 then (if a = 0 then .nan else .inf ((num a na).isNeg != (num b nb).isNeg))
    else mk (a / b) ((num a na).isNeg != (num b nb).isNeg)

/-- The sum of a list, +0 for the empty one. -/
def sum : List Ext → Ext
  | [] => zero
  | [a] => a
  | a :: t => add a (sum t)

/-- Whether `a < b`; false when either is NaN. -/
def lt : Ext → Ext → Bool
  | .nan, _ => false
  | _, .nan => false
  | .inf a, .inf b => a && !b
  | .inf a, .num _ _ => a
  | .num _ _, .inf b => !b
  | .num a _, .num b _ => decide (a < b)

/-- Whether a value is NaN. -/
def isNan : Ext → Bool
  | .nan => true
  | _ => false

end Ext

/-- The quiet NaN of R76. -/
def qNaN : W32 := 0x7FC00000

/-- Sign bit and magnitude put together. -/
def withSign (w : Nat) (neg : Bool) (mag : Nat) : Nat := (if neg then 2 ^ (w - 1) else 0) + mag

/-- R76: an exact value rounded once to binary32. -/
def rne32 : Ext → W32
  | .nan => qNaN
  | .inf n => BitVec.ofNat 32 (withSign 32 n 0x7F800000)
  | .num q nz =>
    if q = 0 then BitVec.ofNat 32 (withSign 32 nz 0)
    else BitVec.ofNat 32 (withSign 32 (decide (q < 0)) (min (rneBits 24 (-126) (absQ q)) 0x7F800000))

/-- The value of a binary32 word. -/
def f32 (x : W32) : Ext :=
  let n := x.toNat
  let neg := decide (2 ^ 31 ≤ n)
  let m := n % 2 ^ 31
  if 0x7F800000 < m then .nan
  else if m = 0x7F800000 then .inf neg
  else
    let v := magValue 24 (-126) m
    Ext.mk (if neg then -v else v) neg

/-- The value of a BF16 word. -/
def bf16 (x : W16) : Ext := f32 (BitVec.ofNat 32 (x.toNat * 65536))

/-- The value of an FP8 E4M3 byte (OCP): no infinity, one NaN of either sign. -/
def e4m3 (x : Byte) : Ext :=
  let neg := decide (128 ≤ x.toNat)
  let m := x.toNat % 128
  if m = 127 then .nan
  else
    let v := magValue 4 (-6) m
    Ext.mk (if neg then -v else v) neg

/-- The value of an FP8 E5M2 byte (OCP). -/
def e5m2 (x : Byte) : Ext :=
  let neg := decide (128 ≤ x.toNat)
  let m := x.toNat % 128
  if 124 < m then .nan
  else if m = 124 then .inf neg
  else
    let v := magValue 3 (-14) m
    Ext.mk (if neg then -v else v) neg

/-- An encoded output value: its bits, whether the conversion saturated, whether the result counts as
non-finite (R102). -/
structure Conv where
  bits : Nat
  sat : Bool
  nonfin : Bool
  deriving DecidableEq, Repr

/-- Table 5.2, BF16. -/
def toBf16 : Ext → Conv
  | .nan => ⟨0x7FC0, false, true⟩
  | .inf n => ⟨withSign 16 n 0x7F80, false, true⟩
  | .num q nz =>
    if q = 0 then ⟨withSign 16 nz 0, false, false⟩
    else
      let m := rneBits 8 (-126) (absQ q)
      ⟨withSign 16 (decide (q < 0)) (min m 0x7F80), false, decide (0x7F80 ≤ m)⟩

/-- Table 5.2, E4M3. -/
def toE4m3 : Ext → Conv
  | .nan => ⟨0x7F, false, true⟩
  | .inf n => ⟨withSign 8 n 0x7F, false, true⟩
  | .num q nz =>
    if q = 0 then ⟨withSign 8 nz 0, false, false⟩
    else if 448 < absQ q then ⟨withSign 8 (decide (q < 0)) 0x7E, true, false⟩
    else ⟨withSign 8 (decide (q < 0)) (rneBits 4 (-6) (absQ q)), false, false⟩

/-- Table 5.2, E5M2. -/
def toE5m2 : Ext → Conv
  | .nan => ⟨0x7F, false, true⟩
  | .inf n => ⟨withSign 8 n 0x7C, false, true⟩
  | .num q nz =>
    if q = 0 then ⟨withSign 8 nz 0, false, false⟩
    else if 57344 < absQ q then ⟨withSign 8 (decide (q < 0)) 0x7B, true, false⟩
    else ⟨withSign 8 (decide (q < 0)) (rneBits 3 (-14) (absQ q)), false, false⟩

/-- Table 5.2, INT8. -/
def toInt8 : Ext → Conv
  | .nan => ⟨0, false, true⟩
  | .inf n => ⟨if n then 0x81 else 0x7F, false, true⟩
  | .num q _ =>
    if 127 < absQ q then ⟨if q < 0 then 0x81 else 0x7F, true, false⟩
    else ⟨(BitVec.ofInt 8 (rneInt q)).toNat, false, false⟩

/-- Bytes of one element of a format code of Table 5.1: 0 F32, 1 BF16, 2 E4M3, 3 E5M2, 4 INT8, 5 PARTIAL. -/
def fmtBytes (f : Nat) : Nat := if f = 0 ∨ f = 5 then 4 else if f = 1 then 2 else 1

/-- Table 5.2: a binary32 value converted to a format of Table 5.1. -/
def convTo (f : Nat) (g : W32) : Conv :=
  match f with
  | 1 => toBf16 (f32 g)
  | 2 => toE4m3 (f32 g)
  | 3 => toE5m2 (f32 g)
  | 4 => toInt8 (f32 g)
  | _ => ⟨if (f32 g).isNan then qNaN.toNat else g.toNat, false, !(f32 g).isFinite⟩

/-- The value of an encoded element of a format of Table 5.1. -/
def elemValue (f n : Nat) : Ext :=
  match f with
  | 1 => bf16 (BitVec.ofNat 16 n)
  | 2 => e4m3 (BitVec.ofNat 8 n)
  | 3 => e5m2 (BitVec.ofNat 8 n)
  | 4 => Ext.ofRat ((BitVec.ofNat 8 n).toInt : Rat)
  | _ => f32 (BitVec.ofNat 32 n)

/-- R77: the smallest integer e with m ≤ 127 × 2^e, for m > 0. -/
def scaleExp (m : Rat) : Int :=
  let e0 := ilog2 (m / 127)
  if m ≤ 127 * pow2 e0 then e0 else e0 + 1

/-- R100: one addition of the running sum, with the 16-bit draw `r`. -/
def stochAdd (a b : W32) (r : Nat) : W32 :=
  match Ext.add (f32 a) (f32 b) with
  | .nan => qNaN
  | .inf n => rne32 (.inf n)
  | .num s nz =>
    let near := rne32 (.num s nz)
    if s = 0 then near
    else if f32 near = Ext.ofRat s then near
    else
      let m := absQ s
      let E := max (ilog2 m) (-126)
      let u := pow2 (E - 23)
      let q := floorInt (m / u)
      let f := m / u - (q : Rat)
      let up : Int := if 65536 ≤ floorInt (f * 65536) + (r : Int) then 1 else 0
      rne32 (if (2 ^ 128 : Nat) ≤ ((q + up : Int) : Rat) * u then .inf (decide (s < 0))
             else Ext.ofRat ((if s < 0 then -1 else 1) * (((q + up : Int) : Rat) * u)))

/-- A left rotation of a 64-bit word. -/
def rotl64 (x : W64) (n : Nat) : W64 := (x <<< n) ||| (x >>> (64 - n))

/-- One round of the twist generator. -/
def twistRound (k0 k1 : W64) (p : W64 × W64) (ir : Nat × Nat) : W64 × W64 :=
  let x0 := p.1 + p.2 + ((if ir.1 % 2 = 0 then k0 else k1) + BitVec.ofNat 64 ir.1)
  (x0, rotl64 p.2 ir.2 ^^^ x0)

/-- R304: the twist generator T(S, n, c). -/
def twist (S : W64) (n : BitVec 48) (c : W64) : W64 :=
  let k0 := S
  let k1 := S ^^^ 0x9E3779B97F4A7C15
  let p := [(0, 11), (1, 37), (2, 23), (3, 49), (4, 5), (5, 29), (6, 41), (7, 19)].foldl
    (twistRound k0 k1) (c, n.setWidth 64 ^^^ k1)
  (p.1 + k0) ^^^ rotl64 p.2 32

end Sys2Proof.Machine
end

