-- ==== Sys2Proof/Machine/Real.lean ====
section
/-! DEFINITION. The exact mathematical functions of R106, R174 and R301, rounded once: each is enclosed
between two rationals, at growing precision, until both ends round to the same word. -/

namespace Sys2Proof.Machine

/-- A closed interval of rationals. -/
structure Iv where
  lo : Rat
  hi : Rat
  deriving DecidableEq, Repr

/-- The scale 2^k as an integer. -/
def scaleK (k : Nat) : Int := ((2 ^ k : Nat) : Int)

/-- q in units of 2^−k, rounded down. -/
def toFix (k : Nat) (q : Rat) : Int := floorInt (q * (scaleK k : Rat))

/-- An integer in units of 2^−k. -/
def ofFix (k : Nat) (z : Int) : Rat := (z : Rat) / (scaleK k : Rat)

/-- Terms r^i / i! from term i on, in units of 2^−k. -/
def expTerms (k : Nat) (r : Int) : Nat → Nat → Int → Int
  | 0, _, _ => 0
  | n + 1, i, t => t + expTerms k r n (i + 1) ((t * r).fdiv (scaleK k * ((i : Int) + 1)))

/-- e^r for |r| ≤ 1, r a multiple of 2^−k. -/
def expSmall (k : Nat) (r : Int) : Iv :=
  let s := expTerms k r (k + 8) 0 (scaleK k)
  let e := (((k + 8) * (k + 8) + 8 : Nat) : Int)
  ⟨ofFix k (s - e), ofFix k (s + e)⟩

/-- Terms z^(2i+1) / (2i+1) in units of 2^−k, `z2` being z². -/
def atanhTerms (k : Nat) (z2 : Int) : Nat → Nat → Int → Int
  | 0, _, _ => 0
  | n + 1, i, t => t.fdiv (2 * (i : Int) + 1) + atanhTerms k z2 n (i + 1) ((t * z2).fdiv (scaleK k))

/-- 2 atanh z for 0 ≤ z ≤ 1/3. -/
def atanh2 (k : Nat) (z : Rat) : Iv :=
  let z' := toFix k z
  let s := 2 * atanhTerms k ((z' * z').fdiv (scaleK k)) (k + 8) 0 z'
  let e := (((k + 8) * (k + 8) + 16 : Nat) : Int)
  ⟨ofFix k (s - e), ofFix k (s + e)⟩

/-- ln 2. -/
def ln2Iv (k : Nat) : Iv := atanh2 k (1 / 3)

/-- The sum of intervals. -/
def Iv.add (a b : Iv) : Iv := ⟨a.lo + b.lo, a.hi + b.hi⟩
/-- An interval times a rational. -/
def Iv.scale (c : Rat) (a : Iv) : Iv := if 0 ≤ c then ⟨c * a.lo, c * a.hi⟩ else ⟨c * a.hi, c * a.lo⟩
/-- The reciprocal of a positive interval. -/
def Iv.inv (a : Iv) : Iv := ⟨1 / a.hi, 1 / a.lo⟩
/-- e^x of a rational, 2^k the relative precision; far below the least binary32 the enclosure is (0, 2^−600],
far above the greatest it is [2^600, 2^601]. -/
def expIv (k : Nat) (x : Rat) : Iv :=
  if x < -600 then ⟨0, pow2 (-600)⟩
  else if 600 < x then ⟨pow2 600, pow2 601⟩
  else
    let l := ln2Iv (k + 16)
    let n := rneInt (x / l.lo)
    let r := (Iv.scale (-(n : Rat)) l)
    let a := expSmall (k + 16) (toFix (k + 16) (x + r.lo))
    let b := expSmall (k + 16) (toFix (k + 16) (x + r.hi) + 1)
    ⟨a.lo * pow2 n, b.hi * pow2 n⟩

/-- e^x of an interval. -/
def expIvI (k : Nat) (x : Iv) : Iv := ⟨(expIv k x.lo).lo, (expIv k x.hi).hi⟩

/-- ln x of a rational x > 0. -/
def lnIv (k : Nat) (x : Rat) : Iv :=
  let e := ilog2 x
  let m := x / pow2 e
  (Iv.scale (e : Rat) (ln2Iv (k + 16))).add (atanh2 (k + 16) ((m - 1) / (m + 1)))

/-- ⌊√n⌋, two binary digits at a time. -/
def isqrt : Nat → Nat → Nat
  | 0, _ => 0
  | f + 1, n =>
    if n = 0 then 0
    else
      let r := 2 * isqrt f (n / 4)
      if (r + 1) * (r + 1) ≤ n then r + 1 else r

/-- √q of a rational q ≥ 0, in units of 2^−k. -/
def sqrtIv (k : Nat) (q : Rat) : Iv :=
  let n := (floorInt (q * ((4 ^ k : Nat) : Rat))).toNat
  let r := isqrt (n.log2 + 2) n
  ⟨ofFix k r, ofFix k (r + 1)⟩

/-- √q at 2^−k relative precision. -/
def sqrtRel (k : Nat) (q : Rat) : Iv :=
  if q ≤ 0 then ⟨0, 0⟩
  else
    let h := (ilog2 q).fdiv 2
    Iv.scale (pow2 h) (sqrtIv k (q / (pow2 h * pow2 h)))

/-- arctan(1/n) terms, in units of 2^−k. -/
def atanInvTerms (k : Nat) (n2 : Int) : Nat → Nat → Int → Int
  | 0, _, _ => 0
  | m + 1, i, t => (if i % 2 = 0 then 1 else -1) * t.fdiv (2 * (i : Int) + 1)
      + atanInvTerms k n2 m (i + 1) (t.fdiv n2)

/-- π, by Machin's formula. -/
def piIv (k : Nat) : Iv :=
  let at5 := atanInvTerms k 25 (k + 8) 0 ((scaleK k).fdiv 5)
  let at239 := atanInvTerms k 57121 (k + 8) 0 ((scaleK k).fdiv 239)
  let s := 16 * at5 - 4 * at239
  let e := ((64 * (k + 8) : Nat) : Int)
  ⟨ofFix k (s - e), ofFix k (s + e)⟩

/-- Terms of the sine or cosine series from degree `i` on, in units of 2^−k. -/
def trigTerms (k : Nat) (r2 : Int) : Nat → Nat → Int → Int
  | 0, _, _ => 0
  | n + 1, i, t =>
    t + trigTerms k r2 n (i + 2) (-((t * r2).fdiv (scaleK k * (((i : Int) + 1) * ((i : Int) + 2)))))

/-- x reduced by whole turns, in units of 2^−k, with the error of the reduction in those units. -/
def reduceTurn (k : Nat) (x : Rat) : Int × Int :=
  let p := piIv k
  let n := rneInt (x / (2 * p.lo))
  (toFix k (x - (n : Rat) * (2 * p.lo)), 2 + n.natAbs * (toFix k (2 * (p.hi - p.lo)) + 2))

/-- cos x of a rational. -/
def cosIv (k : Nat) (x : Rat) : Iv :=
  let r := reduceTurn k x
  let s := trigTerms k ((r.1 * r.1).fdiv (scaleK k)) (k + 16) 0 (scaleK k)
  let e := r.2 + ((256 * ((k + 16) * (k + 16)) : Nat) : Int)
  ⟨ofFix k (s - e), ofFix k (s + e)⟩

/-- sin x of a rational. -/
def sinIv (k : Nat) (x : Rat) : Iv :=
  let r := reduceTurn k x
  let s := trigTerms k ((r.1 * r.1).fdiv (scaleK k)) (k + 16) 1 r.1
  let e := r.2 + ((256 * ((k + 16) * (k + 16)) : Nat) : Int)
  ⟨ofFix k (s - e), ofFix k (s + e)⟩

/-- The precisions an enclosure is tried at. -/
def precisions : List Nat := [64, 128, 256, 512]

/-- Round a real to binary32 from its enclosures: the first precision whose two ends round alike decides.
No precision of the list failing to is the fallback of log entry 12. -/
def roundReal (f : Nat → Iv) : List Nat → W32
  | [] => BitVec.ofNat 32 (Config.freeRound 0)
  | k :: t =>
    let v := f k
    let a := rne32 (Ext.ofRat v.lo)
    let b := rne32 (Ext.ofRat v.hi)
    if a = b then a else roundReal f t

/-- SiLU, x / (1 + e^−x), enclosed. -/
def siluIv (p : Rat) (k : Nat) : Iv :=
  let d := expIv k (-p)
  Iv.scale p (Iv.inv ⟨1 + d.lo, 1 + d.hi⟩)

/-- GELU, ½ p (1 + tanh u) = p / (1 + e^(−2u)), enclosed. -/
def geluIv (p : Rat) (k : Nat) : Iv :=
  let c := sqrtRel (k + 16) (2 / (piIv (k + 16)).hi)
  let c' := sqrtRel (k + 16) (2 / (piIv (k + 16)).lo)
  let w := p + (44715 / 1000000 : Rat) * p * p * p
  let u := Iv.scale (-2 * w) ⟨c.lo, c'.hi⟩
  let d := expIvI k u
  Iv.scale p (Iv.inv ⟨1 + d.lo, 1 + d.hi⟩)

/-- R106: the activation of a binary32 value, ACT 0 identity, 1 ReLU, 2 SiLU, 3 GELU. -/
def actFn (act : Nat) (p : W32) : W32 :=
  match f32 p with
  | .nan => qNaN
  | .inf neg =>
    if !neg then rne32 (.inf false)
    else if act = 0 then rne32 (.inf true)
    else if act = 1 then 0
    else rne32 (.num 0 true)
  | .num q nz =>
    if act = 0 then p
    else if act = 1 then (if 0 < q then p else 0)
    else if q = 0 then rne32 (.num 0 nz)
    else if act = 2 then
      let r := roundReal (siluIv q) precisions
      if r = 0 ∧ q < 0 then rne32 (.num 0 true) else r
    else
      let r := roundReal (geluIv q) precisions
      if r = 0 ∧ q < 0 then rne32 (.num 0 true) else r

end Sys2Proof.Machine
end

