-- ==== Sys2Proof/Machine/Bits.lean ====
section
/-! DEFINITION. Bit fields, little-endian byte strings (R3), serial numbers (R4), saturating counters,
and the check code of blocks, CRC-32C (R315). -/

namespace Sys2Proof.Machine

/-- Bits `[lo + w − 1 : lo]` of a number. -/
def bitsOf (n lo w : Nat) : Nat := (n >>> lo) % 2 ^ w

/-- A field of a 32-bit word. -/
def fld (x : W32) (lo w : Nat) : BitVec w := BitVec.ofNat w (x.toNat >>> lo)

/-- A field of a 64-bit word. -/
def fld64 (x : W64) (lo w : Nat) : BitVec w := BitVec.ofNat w (x.toNat >>> lo)

/-- Place a field of width `w` at bit `lo`; the sum of placed fields is a register's value. -/
def at_ {w : Nat} (x : BitVec w) (lo : Nat) : Nat := x.toNat <<< lo

/-- Place one bit. -/
def bit_ (b : Bool) (lo : Nat) : Nat := b.toNat <<< lo

/-- The signed value of a `w`-bit two's complement number. -/
def signed (w n : Nat) : Int :=
  let m := n % 2 ^ w
  if m < 2 ^ (w - 1) then (m : Int) else (m : Int) - (2 ^ w : Nat)

/-- The `w`-bit two's complement form of an integer. -/
def unsigned (w : Nat) (z : Int) : Nat := (z % ((2 ^ w : Nat) : Int)).toNat

/-- The `n` little-endian bytes of a number (R3). -/
def leBytes : Nat → Nat → List Byte
  | 0, _ => []
  | n + 1, x => BitVec.ofNat 8 x :: leBytes n (x >>> 8)

/-- The number that little-endian bytes spell (R3). -/
def leNat : List Byte → Nat
  | [] => 0
  | b :: t => b.toNat + 256 * leNat t

/-- `n` bytes of a string from byte `o`; beyond the end the bytes read as zero. -/
def slice (l : List Byte) (o n : Nat) : List Byte :=
  let t := (l.drop o).take n
  t ++ List.replicate (n - t.length) 0

/-- The little-endian number in bytes `o` to `o + n − 1` of a string. -/
def leAt (l : List Byte) (o n : Nat) : Nat := leNat (slice l o n)

/-- Whether a string holds `n` bytes, all zero, from byte `o`. -/
def zeroAt (l : List Byte) (o n : Nat) : Bool := (slice l o n).all (· == 0)

/-- R4: `a` is later than `b`, both `n` bits wide. -/
def later (n a b : Nat) : Bool :=
  let d := (a + 2 ^ n - b % 2 ^ n) % 2 ^ n
  decide (1 ≤ d) && decide (d ≤ 2 ^ (n - 1) - 1)

/-- A counter of `w` bits that saturates at all ones. -/
def satAdd {w : Nat} (x : BitVec w) (n : Nat) : BitVec w :=
  BitVec.ofNat w (min (x.toNat + n) (2 ^ w - 1))

/-- A number clamped to `w` bits at all ones. -/
def satNat (w n : Nat) : BitVec w := BitVec.ofNat w (min n (2 ^ w - 1))

/-- A W1C field: each written 1 clears its bit (R5). -/
def w1c {w : Nat} (old wr : BitVec w) : BitVec w := old &&& ~~~wr

/-- A W1C flag (R5). -/
def w1cB (old : Bool) (wr : BitVec 1) : Bool := old && wr == 0

/-- One bit step of the reflected CRC-32C (polynomial 1EDC_6F41h). -/
def crc32cBit (c : Nat) : Nat := if c % 2 = 1 then (c >>> 1) ^^^ 0x82F63B78 else c >>> 1

/-- Eight bit steps. -/
def crc32cBits : Nat → Nat → Nat
  | 0, c => c
  | n + 1, c => crc32cBits n (crc32cBit c)

/-- One byte into the CRC-32C register. -/
def crc32cByte (c : Nat) (b : Byte) : Nat := crc32cBits 8 (c ^^^ b.toNat)

/-- The CRC-32C register over a byte string, from register value `c`. -/
def crc32cRun (c : Nat) (l : List Byte) : Nat := l.foldl crc32cByte c

/-- R315: the CRC-32C of a byte string. -/
def crc32c (l : List Byte) : W32 := BitVec.ofNat 32 (crc32cRun 0xFFFFFFFF l ^^^ 0xFFFFFFFF)

/-- R315: the check value of a block; a short last block is padded with zero bytes to 4,096. -/
def blockCheck (l : List Byte) : W32 := crc32c (slice l 0 4096)


/-- The blocks of a structure: 4,096 bytes each, the last one short. -/
def blocksOf (l : List Byte) : Nat → List (List Byte)
  | 0 => []
  | n + 1 => l.take 4096 :: blocksOf (l.drop 4096) n

/-- R316: the number of blocks of a structure of `n` bytes. -/
def blockCount (n : Nat) : Nat := (n + 4095) / 4096

/-- R316: the check table of a structure, 4 bytes a block, little-endian. -/
def checkTable (l : List Byte) : List Byte :=
  (blocksOf l (blockCount l.length)).flatMap (fun b => leBytes 4 (blockCheck b).toNat)

/-- R316: a structure with its check table, which begins at the first 4 KiB boundary after its last byte. -/
def withCheckTable (l : List Byte) : List Byte :=
  slice l 0 (blockCount l.length * 4096) ++ checkTable l

/-- R316: whether the structure of `n` bytes that begins a byte string agrees with the check table that
follows it. -/
def checksPass (l : List Byte) (n : Nat) : Bool :=
  let body := slice l 0 n
  let tab := slice l (blockCount n * 4096) (4 * blockCount n)
  tab == checkTable body

/-- Whether block `k` of such a structure agrees with its entry of the check table. -/
def blockPasses (l : List Byte) (n k : Nat) : Bool :=
  leAt l (blockCount n * 4096 + 4 * k) 4 == (blockCheck (slice (slice l 0 n) (4096 * k) 4096)).toNat


/-- The list 0, 1, …, n − 1. -/
def upTo (n : Nat) : List Nat := List.range n

/-- ⌈a / b⌉ of natural numbers. -/
def ceilDiv (a b : Nat) : Nat := (a + b - 1) / b

end Sys2Proof.Machine
end

