-- ==== Sys2Proof/Machine/Codes.lean ====
section
/-! DEFINITION. The status codes of Table 21.5 (R464), the record types of Table 14.7 and the bits of
MBX_GEN_CAUSE (Table 17.14). -/

namespace Sys2Proof.Machine

/-! Status codes (Table 21.5). -/
def sOK : Byte := 0x00
def sBadCommand : Byte := 0x01
def sBadConfig : Byte := 0x02
def sBadImage : Byte := 0x03
def sArrBusy : Byte := 0x10
def sArrActive : Byte := 0x11
def sArrRetired : Byte := 0x12
def sArrOwned : Byte := 0x13
def sArrColBusy : Byte := 0x14
def sBadCode : Byte := 0x15
def sVerifyFail : Byte := 0x16
def sAborted : Byte := 0x17
def sSplOver : Byte := 0x18
def sSplBad : Byte := 0x19
def sAdcBusy : Byte := 0x20
def sAdcDieBusy : Byte := 0x21
def sAdcAborted : Byte := 0x22
def sAdcPartial : Byte := 0x23
def sAdcBadSet : Byte := 0x24
def sTrimBusy : Byte := 0x28
def sTrimPartial : Byte := 0x29
def sTrimBadSet : Byte := 0x2A
def sAgeBusy : Byte := 0x2C
def sAgeBadSet : Byte := 0x2D
def sSailBusy : Byte := 0x30
def sSailAborted : Byte := 0x31
def sSailBadHeader : Byte := 0x32
def sSailBadFrame : Byte := 0x33
def sSailNoOpkey : Byte := 0x34
def sSailUntrusted : Byte := 0x35
def sSailBadSig : Byte := 0x36
def sNotStopped : Byte := 0x37
def sSailCtxSeq : Byte := 0x38
def sSailBadField : Byte := 0x39
def sSailBadXref : Byte := 0x3A
def sSailBadProgram : Byte := 0x3B
def sSailNoArrays : Byte := 0x3C
def sSailNoPlies : Byte := 0x3D
def sSailNoHbm : Byte := 0x3E
def sSailNoHostpages : Byte := 0x3F
def sCtxAbsent : Byte := 0x40
def sNotBound : Byte := 0x41
def sWloadBusy : Byte := 0x42
def sWloadAborted : Byte := 0x43
def sLoadMissing : Byte := 0x44
def sWimgBadManifest : Byte := 0x45
def sWimgDigest : Byte := 0x46
def sWimgUntrusted : Byte := 0x47
def sWimgBadSig : Byte := 0x48
def sWimgBadTensor : Byte := 0x49
def sWimgPlan : Byte := 0x4A
def sWimgFuse : Byte := 0x4B
def sBadHandle : Byte := 0x50
def sBadState : Byte := 0x51
def sSeqBusy : Byte := 0x52
def sCtxNotRunning : Byte := 0x53
def sNotHead : Byte := 0x54
def sEmptyPrompt : Byte := 0x55
def sBadPrefix : Byte := 0x56
def sTooLong : Byte := 0x57
def sBadReel : Byte := 0x58
def sBadSampler : Byte := 0x59
def sTableFull : Byte := 0x5A
def sCtxFull : Byte := 0x5B
def sInputFull : Byte := 0x5C
def sNoPages : Byte := 0x5D
def sNotResident : Byte := 0x5E
def sNotEnded : Byte := 0x5F
def sAlreadyEnded : Byte := 0x60
def sKvBusy : Byte := 0x68
def sPfxBadSlot : Byte := 0x69
def sPfxInUse : Byte := 0x6A
def sPfxTooLong : Byte := 0x6B
def sBadRange : Byte := 0x70
def sOpDenied : Byte := 0x71
def sRecLate : Byte := 0x78
def sRecOff : Byte := 0x79
def sRplBusy : Byte := 0x7A
def sRplBadChain : Byte := 0x7B
def sRplJob : Byte := 0x7C
def sRplMismatch : Byte := 0x7D
def sRplPrefix : Byte := 0x7E
def sRplAborted : Byte := 0x7F
def sBadMessage : Byte := 0x80
def sBadService : Byte := 0x81
def sMbxFull : Byte := 0x82
def sFwBusy : Byte := 0x88
def sFwRange : Byte := 0x89
def sFwBadImage : Byte := 0x8A
def sFwUntrusted : Byte := 0x8B
def sFwRollback : Byte := 0x8C
def sFwBadSig : Byte := 0x8D
def sIdFail : Byte := 0x8E

/-! Record types (Table 14.7). -/
def tBlockCheck : Nat := 1
def tHopParity : Nat := 2
def tRefColumn : Nat := 3
def tPlausibility : Nat := 4
def tKnownAnswer : Nat := 5
def tCellDigest : Nat := 6
def tShardDigest : Nat := 7
def tMemoryEcc : Nat := 8
def tValueData : Nat := 9
def tArray : Nat := 10
def tLaser : Nat := 11
def tWatchdog : Nat := 12
def tSequencer : Nat := 13
def tPage : Nat := 14
def tSequence : Nat := 15
def tOperator : Nat := 16
def tSailRestore : Nat := 17
def tJobHalt : Nat := 18
def tRestart : Nat := 19

/-! Bits of MBX_GEN_CAUSE (Table 17.14). -/
def gSail : Nat := 0
def gCtx : Nat := 1
def gAdc : Nat := 2
def gTrim : Nat := 3
def gAge : Nat := 4
def gKvPfx : Nat := 5
def gSeqx : Nat := 6
def gRpl : Nat := 7
def gPwr : Nat := 8
def gRig : Nat := 9
def gArr : Nat := 10

end Sys2Proof.Machine
end

