-- ==== Sys2Proof/Types/Emit.lean ====
section
/-! DEFINITION. What leaves the device: writes of host memory, MSI-X messages, rigging packets, lanyard and
link traffic, replies (the model's own record of outputs, log entry 4). -/

namespace Sys2Proof

/-- One output of the device. -/
inductive Emit where
  /-- A write of host memory. -/
  | hostWrite (addr : Nat) (bytes : List Byte)
  /-- An MSI-X message (Table 17.4). -/
  | msix (vector : Nat)
  /-- A frame sent on a halyard. -/
  | frame (port : Nat) (bytes : List Byte)
  /-- A notice in a mailbox (R390). -/
  | notice (mailbox : Nat) (bytes : List Byte)
  /-- A DOE response (R385): 0 for an answer, 1 for the SPDM error Unspecified, 2 for a request not supported; what this manual
  states of its content. -/
  | doe (status : Nat) (bytes : List Byte)
  /-- A completion of a register read or of a rejected request: the value returned. -/
  | completion (ok : Bool) (value : Nat)
  /-- A lanyard or port event seen outside. -/
  | signal (name : Nat) (value : Nat)
  deriving DecidableEq, Repr

end Sys2Proof
end

