-- ==== Sys2Proof/Types/Layer.lean ====
section
/-! DEFINITION. The records of the layer sequencers (chapter 8), the attention engines and the spindles (chapter 12). -/

namespace Sys2Proof

open Machine

/-- A line of an activation store (R164) with its line tag (R170). -/
structure Line where
  bytes : List Byte := []
  tag : W64 := 0
  deriving DecidableEq, Repr

/-- A row in a mast's inbox (R175): where it comes from, what it carries, and how many of its 4 KiB parts are there. -/
structure InRow where
  srcRank : Nat
  srcMast : Nat
  tag : Nat
  width : Nat
  fmt : Nat
  step : Nat
  block : Nat
  tok : Nat
  bytes : List Byte
  parts : Nat
  ptag : W64
  deriving DecidableEq, Repr

/-- An attention job (R282): the members' index in the batch and its tokens of the block. -/
structure AttJob where
  member : Nat
  toks : List Nat
  deriving DecidableEq, Repr

/-- The layer sequencer of a mast (Tables 8.10 to 8.12), its place in the stream, and the attention jobs that wait. -/
structure Stream where
  busy : Bool := false
  op : W16 := 0
  ctx : BitVec 4 := 0
  group : BitVec 4 := 0
  layer : BitVec 10 := 0
  block : BitVec 4 := 0
  wait : BitVec 4 := 0
  /-- The batch step that the pass belongs to. -/
  step : Nat := 0
  /-- Index in the stream of the next operation, the iteration of the body, whether the operation has started. -/
  pos : Nat := 0
  iter : Nat := 0
  started : Bool := false
  /-- Tokens of the block that the operation has finished (SEND, RECV), and LOCAL_TIME at which it began. -/
  done : List Nat := []
  since : Nat := 0
  /-- Plies of the running operation that still wait for an accumulator (R108). -/
  left : List Nat := []
  /-- What R470 measures of the beat: step slots that the arrays of each ply spent on the batch, by mast-wide ply; bytes that the mast's
  HBM controllers moved for it; arrays that the reload of the next layer writes (R186). -/
  slots : Tab Nat := []
  moved : Nat := 0
  reload : Nat := 0
  /-- BARRIERs this stream has reached in the pass. -/
  bars : Nat := 0
  jobs : List AttJob := []
  /-- LOCAL_TIME at which each attention engine becomes free (R282, R283), and at which the SPLICE jobs that wait for one begin. -/
  engines : Tab Nat := []
  splices : List Nat := []
  /-- Tensor in each expansion buffer, and the buffer that the latest EXPAND of the pass loaded (R173). -/
  buf0 : Option Nat := none
  buf1 : Option Nat := none
  latest : Nat := 0
  tmo : W32 := 0x00989680
  subst : W32 := 0
  rlstall : W64 := 0
  errCause : BitVec 4 := 0
  errOp : W16 := 0
  attEmpty : W32 := 0
  attTokens : W64 := 0
  vecSlow : W32 := 0
  deriving DecidableEq, Repr

/-- The spindle registers of a mast (Tables 12.11 to 12.13). -/
structure Spn where
  opEn : Bool := false
  opCount : BitVec 5 := 0
  opCtx : W16 := 0
  opState : BitVec 2 := 0
  fwLive : Byte := 0
  dropped : W16 := 0
  wdog : W32 := 0
  trapSpindle : BitVec 7 := 0
  trapValid : Bool := false
  trapCause : Byte := 0
  trapPc : BitVec 48 := 0
  /-- Tasks on which a watchdog has expired once (R290), by the spindle they run on. -/
  expired : List Nat := []
  deriving DecidableEq, Repr

/-- One spindle (R286, R287): its integer and floating-point registers, pc, mode, PMP entries and control registers, the events pending
and what it waits on. -/
structure Spindle where
  regs : Tab W64 := []
  fregs : Tab W64 := []
  pc : W64 := 0
  /-- User mode; else machine mode. -/
  user : Bool := false
  /-- The sixteen PMP entries: configuration and address. -/
  pmp : Tab (Byte × W64) := []
  /-- Control and status registers, by number, but for those with a field of their own. -/
  csrs : Tab W64 := []
  events : W64 := 0
  waiting : Option (Nat × W64) := none
  /-- An ecall has not returned yet (R292). -/
  ecall : Bool := false
  /-- Address of the last instruction that raised an exception, and its cause (mepc, mcause). -/
  mepc : W64 := 0
  mcause : W64 := 0
  /-- Trap vector of the spindle's machine mode (mtvec). -/
  mtvec : W64 := 0
  deriving DecidableEq, Repr

/-- The plausibility band of a ply (R321): tokens and extremes of the running trim cycle, of up to four earlier cycles
with 1,024 tokens or more, the band in force (empty while open), and values that arbitration has still to let in. -/
structure Band where
  toks : Nat := 0
  cur : List (Rat × Rat) := []
  hist : List (List (Rat × Rat)) := []
  band : List (Rat × Rat) := []
  widen : List (Nat × Rat) := []
  deriving DecidableEq, Repr

end Sys2Proof
end

