-- ==== Sys2Proof/Types/Plan.lean ====
section
/-! DEFINITION. The sail plan in force (chapter 7), contexts, weight images (chapter 9) as records. -/

namespace Sys2Proof

/-- Table 7.4: the DEVICE panel. -/
structure DevicePanel where
  deviceId : Nat
  jobId : Nat
  jobSize : Nat
  jobRank : Nat
  jobGroup : Nat
  wakeSlot : Nat
  divVec : Nat
  divNoc : Nat
  divSpn : Nat
  reefGroups : Nat
  trusted : List (List Byte)
  deriving DecidableEq, Repr

/-- Table 7.5: a route entry. -/
structure Route where
  lo : Nat
  hi : Nat
  vc : Nat
  ports : List Nat
  deriving DecidableEq, Repr

/-- A layer group of Table 7.6. -/
structure Group where
  first : Nat
  last : Nat
  mask : Nat
  deriving DecidableEq, Repr

/-- Table 7.6: the CONTEXT panel. -/
structure CtxPanel where
  reload : Bool
  layers : Nat
  vocab : Nat
  slots : List Nat
  plies : List Nat
  slice : Nat
  decodeReserve : Nat
  prefixPages : Nat
  prefixSlots : Nat
  maxSeq : Nat
  hostPages : Nat
  weightMib : List Nat
  pageQuota : List Nat
  weightDigest : List Byte
  groups : List Group
  deriving DecidableEq, Repr

/-- A partial input of Table 7.7: the feeder's rank, mast and context-relative index. -/
structure Pin where
  rank : Nat
  mast : Nat
  index : Nat
  deriving DecidableEq, Repr

/-- Table 7.7: a PLY panel. -/
structure PlyPanel where
  mast : Nat
  index : Nat
  inFmt : Nat
  span : Nat
  biasEn : Bool
  scaleEn : Bool
  act : Nat
  outFmt : Nat
  dch : List Nat
  pins : List Pin
  tensor : Nat
  k : Nat
  seed : W64
  /-- Slot entries in K slot order: doubled, and the context-relative slot. -/
  slots : List (Bool × Nat)
  deriving DecidableEq, Repr

/-- The section of one context: its panels, its layer program (each operation as the 128-bit number its 16 bytes
spell), and the bytes of its panels and its seal, kept for FURL (R158). -/
structure Section where
  panel : CtxPanel
  plies : List PlyPanel
  prog : List Nat
  raw : List Byte
  sealBytes : List Byte
  deriving DecidableEq, Repr

/-- Table 7.15: context states. -/
inductive CtxState where
  | absent | stopped | running | draining
  deriving DecidableEq, Repr

/-- Table 9.2: a tensor entry. -/
structure Tensor where
  kind : Nat
  fmt : Nat
  stack : Nat
  s : Nat
  rows : Nat
  cols : Nat
  offset : Nat
  size : Nat
  deriving DecidableEq, Repr

/-- Table 9.3: a shard entry. -/
structure Shard where
  stack : Nat
  length : Nat
  offset : Nat
  digest : List Byte
  deriving DecidableEq, Repr

/-- A manifest as read (R190). -/
structure Manifest where
  tensors : List Tensor
  shards : List Shard
  derivedOff : List Nat
  digest : List Byte
  deriving DecidableEq, Repr

/-- A WLOAD in progress (R201): the latched address, LOCAL_TIME of acceptance, the manifest once read. -/
structure Wload where
  addr : W64
  start : Nat
  manifest : Option Manifest
  deriving DecidableEq, Repr

/-- A shard post that waits for its fetch, or whose fetch runs (R202). -/
structure Post where
  ctx : Nat
  idx : Nat
  addr : W64
  deriving DecidableEq, Repr

/-- One context's registers (Tables 7.15, 9.11 to 9.15) and what stands behind them. -/
structure Ctx where
  st : CtxState := .absent
  sliced : Bool := false
  holder : Bool := false
  bound : Bool := false
  gen : W32 := 0
  sect : Option Section := none
  /-- Ply range base on each mast, 7FFh for none (R155). -/
  plyBase : List Nat := []
  /-- The context's weight region on each stack: runs of 1 MiB chunks, first chunk and count, ascending (R192, R247). -/
  region : List (List (Nat × Nat)) := []
  wbase : W64 := 0
  busy : Bool := false
  phase : BitVec 3 := 0
  heldWbase : Option W64 := none
  postRej : Bool := false
  status : Byte := 0
  wbStatus : Byte := 0
  cmdLast : BitVec 4 := 0
  loadTmo : W32 := 0xEA60
  shards : BitVec 13 := 0
  bad : BitVec 6 := 0
  missing : List Nat := []
  wload : Option Wload := none
  manifest : Option Manifest := none
  wdigest : List Byte := []
  /-- Bindings logged once under the present CTX_GEN (R87, R171). -/
  logged : List (Nat × Nat × Nat) := []
  /-- Mast, context-relative slot and array for slots whose array has left them under the section in force (R171). -/
  served : List (Nat × Nat × Nat) := []
  /-- Digests of the derived images, recorded when they are built: mast, slot, level map, SHAKE256-256 (R325). -/
  digests : List (Nat × Nat × BitVec 2 × List Byte) := []
  /-- Reload mode: the half whose arrays compute (R185). -/
  half : Bool := false
  /-- Layer that each half holds, or is being written with (R185). -/
  held0 : Option Nat := none
  held1 : Option Nat := none
  /-- The context's slots have been given their arrays (R157, R159). -/
  given : Bool := false
  /-- Rotation (R159): LOCAL_TIME at which the slice began, whether it has begun, whether SLICE has elapsed. -/
  sliceStart : Nat := 0
  sliceOn : Bool := false
  sliceOver : Bool := false
  deriving DecidableEq, Repr

/-- A LOAD in progress (R154): the latched address and length, the contexts it names once the header is read. -/
structure LoadJob where
  src : W64
  len : Nat
  ctxs : List Nat
  deriving DecidableEq, Repr

/-- The sail-plan registers (Tables 7.12 to 7.16) and the operator's part of the plan in force. -/
structure Sail where
  busy : Bool := false
  step : BitVec 4 := 0
  status : Byte := 0
  inForce : Bool := false
  src : W64 := 0
  len : W32 := 0
  gen : W32 := 0
  errStep : BitVec 4 := 0
  errDetail : Byte := 0
  errOffset : W32 := 0
  tag : W64 := 0
  opkey : List W64 := [0, 0, 0, 0]
  locked : Bool := false
  job : Option LoadJob := none
  device : Option DevicePanel := none
  routes : List Route := []
  opRaw : List Byte := []
  opSeal : List Byte := []
  /-- SHAKE256-256 digest of the plan in force as loaded (R386). -/
  digest : List Byte := []
  /-- SAIL_PROG_ERR (Table 8.11). -/
  progErr : W32 := 0
  deriving DecidableEq, Repr

end Sys2Proof
end

