-- ==== Sys2Proof/Types/Power.lean ====
section
/-! DEFINITION. The records of the power manager and the lanyard receiver (chapter 18), and of clocks, boot and identity
(chapter 19). -/

namespace Sys2Proof

/-- States of a domain group (Table 18.1). -/
inductive PwrState where
  | sail | reef | douse | furl
  deriving DecidableEq, Repr

/-- A wake in progress: what it wakes from, its cause (Table 18.14), LOCAL_TIME at which it began, the groups it wakes, and how
many of its stages (Tables 18.4, 18.5) are done. -/
structure Wake where
  src : PwrState
  cause : Nat
  start : Nat
  groups : List Nat
  stage : Nat
  deriving DecidableEq, Repr

/-- The power registers (Tables 18.12 to 18.14) and what stands behind them. -/
structure Power where
  autoMax : BitVec 2 := 2
  uv : Bool := false
  therm : Bool := false
  limitSeen : Bool := false
  status : Byte := 0
  cmdLast : BitVec 4 := 0
  limit : BitVec 12 := 0x7D0
  volts : W16 := 0
  amps : W16 := 0
  watts : W16 := 0
  retain : W16 := 0
  throttled : W32 := 0
  lastFrom : BitVec 2 := 0
  lastCause : BitVec 3 := 0
  lastDur : W32 := 0
  wakeFail : W32 := 0
  /-- State of each domain group; the device is in FURL. -/
  groups : List PwrState := [.sail, .sail, .sail, .sail]
  furled : Bool := false
  /-- Commanded target of each group, and of the device for FURL, until the next wake (R403). -/
  targets : List (Option PwrState) := [none, none, none, none]
  furlTarget : Bool := false
  /-- What the chooser last chose for each group, and whether it chose FURL for the device (R401). -/
  choice : List PwrState := [.sail, .sail, .sail, .sail]
  furlChoice : Bool := false
  /-- Masts whose array domains wait for power-up, and LOCAL_TIME of the power-ups begun (R406). -/
  upQueue : List Nat := []
  upAt : List Nat := []
  wake : Option Wake := none
  /-- Throttle steps in force for power and for temperature, of 16; LOCAL_TIME of the last act. -/
  step : Nat := 0
  stepAt : Nat := 0
  /-- Masts of DOUSE groups whose logic and engines a first access has woken, with LOCAL_TIME of the last such access (R405). -/
  awake : List (Nat × Nat) := []
  /-- Arrays that served a ply slot when their mast entered DOUSE, the standby arrays that held a pattern (R122), and AGE_EPOCH at
  the entry of each mast. -/
  served : List (Nat × Nat) := []
  standby : List (Nat × Nat) := []
  epochs : List W64 := [0, 0, 0, 0]
  /-- Arrays VALID at entry, set VALID again by the wake (R407). -/
  valid : List (Nat × Nat) := []
  /-- The plan that FURL wrote to the retained bank (R158), and the saved factor and trim sets (R404). -/
  plan : List Byte := []
  factors : List Byte := []
  trims : List Byte := []
  ageing : List Byte := []
  /-- The slot that ran before FURL. -/
  ranSlot : Bool := false
  deriving DecidableEq, Repr

/-- The lanyard receiver (Table 18.15): its registers, its copy of DEVICE_ID, JOB_GROUP and WAKE_SLOT, the window's bad frames, and
a wake that waits for its slot. -/
structure Lanyard where
  resetEn : Bool := true
  sleepEn : Bool := true
  wakeEn : Bool := true
  stuck : Bool := false
  stuckSeen : Bool := false
  noisy : Bool := false
  noisySeen : Bool := false
  accepted : W16 := 0
  bad : W32 := 0
  rej : W32 := 0
  /-- Bad frames of the running window, and LOCAL_TIME at which it began (R416). -/
  windowBad : Nat := 0
  windowAt : Nat := 0
  /-- LOCAL_TIME of the last WAKE acted on. -/
  wakeAt : Option Nat := none
  copy : Option (Nat × Nat × Nat) := none
  /-- LOCAL_TIME at which a delayed wake begins (R409). -/
  delayed : Option Nat := none
  deriving DecidableEq, Repr

/-- The clock, reset, boot and identity registers (Tables 19.13 and 21.2), the flash, and what the security core holds. -/
structure Clk where
  xtalOk : Bool := false
  rootLock : Bool := false
  hbmLock : Byte := 0
  optLock : BitVec 9 := 0
  last : BitVec 4 := 1
  warm : W16 := 0
  /-- CLK_BOOT_STAT.STATE: 0 BOOTING, 1 RUNNING, 2 RECOVERY. -/
  state : BitVec 2 := 0
  slot : Bool := false
  trial : Bool := false
  fallback : Bool := false
  idOk : Bool := false
  tries : BitVec 3 := 0
  lastFail : BitVec 4 := 0
  failSlot : Bool := false
  svn : W16 := 0
  ticks : W32 := 0
  runVer : W32 := 0
  otherVer : W32 := 0
  serial : W64 := 0
  scratch : W32 := 0
  /-- LOCAL_TIME at which the ROM started; the slot it chose, until firmware is released. -/
  romAt : Nat := 0
  chosen : Option Bool := none
  /-- Digest of the image running (R430). -/
  imageDigest : List Byte := []
  /-- The identity private key, in the security core's SRAM only (R434). -/
  idKey : List Byte := []
  deriving DecidableEq, Repr

end Sys2Proof
end

