-- ==== Sys2Proof/Types/Rig.lean ====
section
/-! DEFINITION. The records of the rigging (chapter 16): packets, ports, the switch's queues, registers. -/

namespace Sys2Proof

open Machine

/-- A packet (Tables 16.3 and 16.4): the routing header, bytes 32 to 59 of the descriptor, the payload, and whether its
two header check codes hold as received. -/
structure Pkt where
  typ : Nat
  vc : Nat := 0
  start : Bool := false
  hop : Nat := 0
  hops : Nat := 0
  reason : Nat := 0
  dest : Nat
  src : Nat
  jobId : Nat
  flow : W32 := 0
  ports : Nat := 0
  desc : List Byte := []
  payload : List Byte := []
  hcrcOk : Bool := true
  dcrcOk : Bool := true
  /-- The halyard the packet came in on and the credits its place there takes; none for the device's own (the model's own note). -/
  came : Option (Nat × Nat) := none
  deriving DecidableEq, Repr

/-- Table 16.11: port states. -/
inductive PortState where
  | off | down | training | up | disabled
  deriving DecidableEq, Repr

/-- One halyard (R358 to R361, Tables 16.11 and 16.12). -/
structure Port where
  en : Bool := true
  st : PortState := .down
  lanes : Byte := 0
  /-- LOCAL_TIME of the last eight retrains, latest first. -/
  retrains : List Nat := []
  fec : W64 := 0
  uncor : W32 := 0
  resend : W32 := 0
  txb : W64 := 0
  rxb : W64 := 0
  /-- FSEQ of the next frame to send and of the next frame expected; later frames are being discarded. -/
  txSeq : W16 := 0
  rxSeq : W16 := 0
  discarding : Bool := false
  /-- Frames sent and not yet acknowledged: FSEQ, stream bytes, and whether a packet begins in the frame. -/
  replay : List (W16 × List Byte × Bool) := []
  /-- Credits held for virtual channels 0 to 3 and for control packets. -/
  credits : List Nat := [256, 256, 256, 256, 8]
  /-- Credits to return in the next frame. -/
  owed : List Nat := [0, 0, 0, 0, 0]
  /-- LOCAL_TIME at which ACK last advanced, at which a frame was last accepted, and of the resends of the last 1 ms. -/
  ackAt : Nat := 0
  frameAt : Nat := 0
  resends : List Nat := []
  /-- Packets that wait for this halyard, in order, and the virtual channel served last. -/
  txq : List Pkt := []
  lastVc : Nat := 3
  /-- Input served last on each virtual channel (R367): halyards 0 to 31, mast bridges 32 to 35, the hub's blocks 36. -/
  lastIn : List Nat := [36, 36, 36, 36]
  /-- Received stream bytes that do not yet make a whole packet. -/
  rxbuf : List Byte := []
  deriving DecidableEq, Repr

/-- The rigging registers (Tables 16.9 and 16.10), the flows, and the packets at the switch and at their consumers. -/
structure Rig where
  noRoute : Bool := false
  flowGap : Bool := false
  foreign : Bool := false
  portDis : Bool := false
  cntNoRoute : W32 := 0
  cntMisroute : W32 := 0
  cntHdrErr : W32 := 0
  cntDropped : W32 := 0
  cntFlowGap : W32 := 0
  routeSel : BitVec 17 := 0
  copy : List W64 := []
  /-- Next flow number to send plus one, by rank × 4 + channel; 0 where START is owed (R368). -/
  txFlow : Tab Nat := []
  /-- Flow number expected plus one; 0 before a START. -/
  rxFlow : Tab Nat := []
  /-- Packets at the switch, in order of arrival. -/
  inq : List Pkt := []
  /-- Packets delivered and not yet taken by their consumer. -/
  delivered : List Pkt := []
  deriving DecidableEq, Repr

end Sys2Proof
end

