-- ==== Sys2Proof/Machine/State.lean ====
section
/-! DEFINITION. The state of the Poari as plain data, its reset, and the reasons a step can stop. -/

namespace Sys2Proof.Machine

/-- Why a step stops with a fault. -/
inductive Fault where
  /-- Raised by no meaning: a place for a stop the spec might call for. Safe. -/
  | none
  deriving DecidableEq, Repr

/-- Why a step is refused. -/
inductive Refusal where
  /-- A command that has no meaning yet, by its mnemonic. Raised by the arms of `exec` alone. Safe. -/
  | notModelled (mnemonic : String)
  deriving DecidableEq, Repr

/-- The whole device. Banks are sparse: the key of each and the value an unlisted key reads as are those of its
accessor in Machine/Ops.lean. -/
structure State where
  /-- Commands waiting, first in first out (the model's own). -/
  pending : List Instr := []
  /-- Counter of free values (the model's own, log entry 3). -/
  freeCtr : Nat := 0
  /-- What has left the device, oldest first (the model's own, log entry 4). -/
  out : List Emit := []
  /-- LOCAL_TIME, in ticks of 10 ns (R422). -/
  time : W64 := 0
  /-- Whether a beat runs, and LOCAL_TIME at which it began (R15, R470). -/
  beatOn : Bool := false
  beatStart : W64 := 0
  /-- Batches in flight (R14). -/
  batches : List Batch := []
  masts : Tab Mast := []
  dies : Tab Die := []
  arrs : Tab Arr := []
  cals : Tab ArrCal := []
  facs : Tab W64 := []
  /-- Metastable decisions of each converter in the trim cycle (R58). -/
  metas : Tab Nat := []
  /-- Cell level indices, one row of 1,040 an entry (R22). -/
  rows : Tab (List Byte) := []
  sums : Tab ColSum := []
  cols : Tab ColWord := []
  trims : Tab ArrTrim := []
  /-- Standby of each spare group: mast-local number plus one; 0 is the standby of R122. -/
  standbys : Tab Nat := []
  ageGrps : Tab AgeGrp := []
  /-- AGE_LASER: WARN and BIAS. -/
  lasers : Tab (Bool × W16) := []
  spls : Tab Spl := []
  regions : Tab (List Byte) := []
  outliers : Tab (List Byte) := []
  fuses : Tab (List Byte) := []
  accs : Tab Acc := []
  adc : Adc := {}
  trim : Trim := {}
  age : Age := {}
  seq : SeqRegs := {}
  entries : Tab SeqEntry := []
  /-- Batches whose list a member has from the head and which have not entered a group yet (R238). -/
  remoteWait : List Batch := []
  /-- What the sampler delivered for steps not yet committed (R226). -/
  sampled : List Sampled := []
  integ : Integ := {}
  sail : Sail := {}
  ctxs : Tab Ctx := []
  /-- Shard posts waiting device-wide, in order of posting (R202). -/
  posts : List Post := []
  /-- HBM bytes, by stack and stack address. -/
  hbm : Tab Byte := []
  vecs : Tab Vec := []
  genCause : BitVec 11 := 0
  genEn : BitVec 11 := 0
  /-- Batches that a job halt rolled back, in the order they are re-formed in (R232). -/
  rolled : List Batch := []
  /-- Page descriptors by page number (Table 11.1). -/
  pdescs : Tab PDesc := []
  /-- Page tables by entry; a member's shadows of head entries of context c are at (c + 1) × 131,072 + index. -/
  tables : Tab Tables := []
  inputs : Tab Input := []
  xrs : Tab Xr := []
  smps : Tab Smp := []
  reels : Tab Reel := []
  prefixes : Tab PrefixSlot := []
  kv : Kv := {}
  xregs : XRegs := {}
  smp : SmpRegs := {}
  /-- The sampler's logits, by (context × 1,024 + τ of the sampling vector) × 2^20 + token. -/
  logits : Tab (Option W32) := []
  recorder : Recorder := {}
  rpl : Rpl := {}
  streams : Tab Stream := []
  /-- Activation-store lines by mast × 32,768 + line. -/
  store : Tab Line := []
  /-- Inbox rows of each mast, in order of arrival. -/
  inboxes : Tab (List InRow) := []
  spns : Tab Spn := []
  spindles : Tab Spindle := []
  /-- Spindle scratch and mast shared SRAM bytes. -/
  scratch : Tab Byte := []
  shared : Tab Byte := []
  bands : Tab Band := []
  /-- Notices of commit points still to be written: context and slot bytes (R292). -/
  noticesDue : List (Nat × List Byte) := []
  rig : Rig := {}
  ports : Tab Port := []
  link : HostLink := {}
  mbxs : Tab Mbx := []
  pwr : Power := {}
  lan : Lanyard := {}
  clk : Clk := {}
  /-- Bytes of the on-package flash (R428). -/
  flash : Tab Byte := []
  deriving DecidableEq, Repr

/-- The machine right after a cold reset. -/
def State.reset : State := {}

end Sys2Proof.Machine
end

