-- ==== Sys2Proof/Machine/Ops.lean ====
section
/-! DEFINITION. The named operations over the banks of State: one reader and one writer for each bank, HBM
bytes and addresses, free values, outputs and the interrupt vectors. -/

namespace Sys2Proof.Machine

/-! Keys of the banks. -/

/-- Masts, arrays of a mast, physical columns, rows (R21, Table 0.1). -/
def arrPerMast : Nat := 17408
def arrPerDie : Nat := 2176
def physCols : Nat := 1040

/-- Array p of mast m. -/
def kArr (m p : Nat) : Nat := m * arrPerMast + p
/-- Converter g of an array. -/
def kConv (m p g : Nat) : Nat := kArr m p * 132 + g
/-- Row r of an array. -/
def kRow (m p r : Nat) : Nat := kArr m p * 1024 + r
/-- Physical column j of an array. -/
def kCol (m p j : Nat) : Nat := kArr m p * physCols + j
/-- Column word j of an array; 1,024 and 1,025 are those of REF_A and REF_B (R120). -/
def kWord (m p j : Nat) : Nat := kArr m p * 1026 + j
/-- Accumulator n of mast m. -/
def kAcc (m n : Nat) : Nat := m * 256 + n
/-- Array die d of mast m. -/
def kDie (m d : Nat) : Nat := m * 8 + d
/-- Spare group of array p: die, then group of 17 (R21). -/
def groupOf (p : Nat) : Nat := (p / arrPerDie) * 128 + (p % arrPerDie) / 17
/-- Spare group g (die × 128 + group) of mast m. -/
def kGrp (m g : Nat) : Nat := m * 1024 + g
/-- The first array of spare group g of a mast. -/
def groupBase (g : Nat) : Nat := (g / 128) * arrPerDie + (g % 128) * 17
/-- The arrays of a spare group. -/
def groupArrays (g : Nat) : List Nat := (upTo 17).map (fun i => groupBase g + i)
/-- The die of an array. -/
def dieOf (p : Nat) : Nat := p / arrPerDie

namespace State

/-! Readers and writers. -/
def mast (s : State) (m : Nat) : Mast := tabGet {} s.masts m
def setMast (s : State) (m : Nat) (v : Mast) : State := { s with masts := tabSet {} s.masts m v }
def modMast (s : State) (m : Nat) (f : Mast → Mast) : State := s.setMast m (f (s.mast m))

def die (s : State) (m d : Nat) : Die := tabGet {} s.dies (kDie m d)
def setDie (s : State) (m d : Nat) (v : Die) : State := { s with dies := tabSet {} s.dies (kDie m d) v }
def modDie (s : State) (m d : Nat) (f : Die → Die) : State := s.setDie m d (f (s.die m d))

def arr (s : State) (m p : Nat) : Arr := tabGet {} s.arrs (kArr m p)
def setArr (s : State) (m p : Nat) (v : Arr) : State := { s with arrs := tabSet {} s.arrs (kArr m p) v }
def modArr (s : State) (m p : Nat) (f : Arr → Arr) : State := s.setArr m p (f (s.arr m p))

def cal (s : State) (m p : Nat) : ArrCal := tabGet {} s.cals (kArr m p)
def setCal (s : State) (m p : Nat) (v : ArrCal) : State := { s with cals := tabSet {} s.cals (kArr m p) v }
def modCal (s : State) (m p : Nat) (f : ArrCal → ArrCal) : State := s.setCal m p (f (s.cal m p))

def fac (s : State) (m p g : Nat) : W64 := tabGet facReset s.facs (kConv m p g)
def setFac (s : State) (m p g : Nat) (v : W64) : State := { s with facs := tabSet facReset s.facs (kConv m p g) v }

def meta_ (s : State) (m p g : Nat) : Nat := tabGet 0 s.metas (kConv m p g)
def setMeta (s : State) (m p g n : Nat) : State := { s with metas := tabSet 0 s.metas (kConv m p g) n }

/-- The 1,040 level indices of a row, signed bytes; a row nothing has written reads as zeros (log entry 6). -/
def row (s : State) (m p r : Nat) : List Byte := slice (tabGet [] s.rows (kRow m p r)) 0 physCols
def setRow (s : State) (m p r : Nat) (v : List Byte) : State := { s with rows := tabSet [] s.rows (kRow m p r) v }

def sum (s : State) (m p j : Nat) : ColSum := tabGet {} s.sums (kCol m p j)
def setSum (s : State) (m p j : Nat) (v : ColSum) : State := { s with sums := tabSet {} s.sums (kCol m p j) v }

def colWord (s : State) (m p j : Nat) : ColWord := tabGet {} s.cols (kWord m p j)
def setColWord (s : State) (m p j : Nat) (v : ColWord) : State := { s with cols := tabSet {} s.cols (kWord m p j) v }

/-- The physical column that serves logical column j; 1,024 and 1,025 are the reference columns (R32, R120). -/
def physOf (s : State) (m p j : Nat) : Nat :=
  let q := (s.colWord m p j).val.pcol
  if 1024 ≤ j then j else if q = 0 then j else q

def atrim (s : State) (m p : Nat) : ArrTrim := tabGet {} s.trims (kArr m p)
def setAtrim (s : State) (m p : Nat) (v : ArrTrim) : State := { s with trims := tabSet {} s.trims (kArr m p) v }
def modAtrim (s : State) (m p : Nat) (f : ArrTrim → ArrTrim) : State := s.setAtrim m p (f (s.atrim m p))

def ageGrp (s : State) (m g : Nat) : AgeGrp := tabGet {} s.ageGrps (kGrp m g)
def setAgeGrp (s : State) (m g : Nat) (v : AgeGrp) : State := { s with ageGrps := tabSet {} s.ageGrps (kGrp m g) v }

def laser (s : State) (e : Nat) : Bool × W16 := tabGet (false, 0) s.lasers e
def setLaser (s : State) (e : Nat) (v : Bool × W16) : State := { s with lasers := tabSet (false, 0) s.lasers e v }

def spl (s : State) (m p : Nat) : Spl := tabGet {} s.spls (kArr m p)
def setSpl (s : State) (m p : Nat) (v : Spl) : State := { s with spls := tabSet {} s.spls (kArr m p) v }
def modSpl (s : State) (m p : Nat) (f : Spl → Spl) : State := s.setSpl m p (f (s.spl m p))

/-- The 16 KiB of an array's splice region; zeros while EMPTY (R81). -/
def region (s : State) (m p : Nat) : List Byte := slice (tabGet [] s.regions (kArr m p)) 0 16384
def setRegion (s : State) (m p : Nat) (v : List Byte) : State := { s with regions := tabSet [] s.regions (kArr m p) v }

/-- Outlier table and fuse-store entry of mast-wide ply x (R84, R114). -/
def outlier (s : State) (m x : Nat) : List Byte := slice (tabGet [] s.outliers (m * 1024 + x)) 0 36864
def setOutlier (s : State) (m x : Nat) (v : List Byte) : State := { s with outliers := tabSet [] s.outliers (m * 1024 + x) v }
def fuse (s : State) (m x : Nat) : List Byte := slice (tabGet [] s.fuses (m * 1024 + x)) 0 8192
def setFuse (s : State) (m x : Nat) (v : List Byte) : State := { s with fuses := tabSet [] s.fuses (m * 1024 + x) v }

def acc (s : State) (m n : Nat) : Acc := tabGet {} s.accs (kAcc m n)
def setAcc (s : State) (m n : Nat) (v : Acc) : State := { s with accs := tabSet {} s.accs (kAcc m n) v }
def modAcc (s : State) (m n : Nat) (f : Acc → Acc) : State := s.setAcc m n (f (s.acc m n))

def entry (s : State) (i : Nat) : SeqEntry := tabGet {} s.entries i
def setEntry (s : State) (i : Nat) (v : SeqEntry) : State := { s with entries := tabSet {} s.entries i v }
def modEntry (s : State) (i : Nat) (f : SeqEntry → SeqEntry) : State := s.setEntry i (f (s.entry i))

def ctx (s : State) (c : Nat) : Ctx := tabGet {} s.ctxs c
def setCtx (s : State) (c : Nat) (v : Ctx) : State := { s with ctxs := tabSet {} s.ctxs c v }
def modCtx (s : State) (c : Nat) (f : Ctx → Ctx) : State := s.setCtx c (f (s.ctx c))

/-- The reset value of a vector: the holdoff of vector 1 is 2 µs (Table 17.15). -/
def vecReset (v : Nat) : Vec := if v = 1 then { holdoff := 2 } else {}
def vec (s : State) (v : Nat) : Vec := tabGet (vecReset v) s.vecs v
def setVec (s : State) (v : Nat) (x : Vec) : State := { s with vecs := tabSet (vecReset v) s.vecs v x }

/-- A mailbox; those at and above 24 have no host view (R389). -/
def mbx (s : State) (k : Nat) : Mbx := tabGet {} s.mbxs k
def setMbx (s : State) (k : Nat) (x : Mbx) : State := { s with mbxs := tabSet {} s.mbxs k x }
def modMbx (s : State) (k : Nat) (f : Mbx → Mbx) : State := s.setMbx k (f (s.mbx k))

/-- A byte of the flash; a byte nothing has written reads as FFh (log entry 7). -/
def flashByte (s : State) (a : Nat) : Byte := tabGet 0xFF s.flash a
def setFlashByte (s : State) (a : Nat) (b : Byte) : State := { s with flash := tabSet 0xFF s.flash a b }

/-- MBX_LINK_STAT.BM_STOP: no request to host memory is made (R380). -/
def bmStop (s : State) : Bool := !s.link.bme || s.link.d3hot || decide (s.link.st ≠ 2)

/-! Free values and outputs. -/

/-- Draw a free number, advancing the counter (log entry 3). -/
def free (s : State) : Nat × State := (Config.freeNat s.freeCtr, { s with freeCtr := s.freeCtr + 1 })

/-- Append an output (log entry 4). -/
def emit (s : State) (e : Emit) : State := { s with out := s.out ++ [e] }

/-- LOCAL_TIME as a number. -/
def now (s : State) : Nat := s.time.toNat

/-! HBM. -/

/-- Capacity of a stack: 80 GB (Table 0.1), decimal. -/
def stackBytes : Nat := 80000000000

/-- The stack and stack address an HBM address names, in the layout of Table 12.4 (log entry 20). -/
def hbmAddr (a : Nat) : Option (Nat × Nat) :=
  if a < 2 ^ 36 then none
  else
    let k := (a - 2 ^ 36) / 2 ^ 37
    let o := (a - 2 ^ 36) % 2 ^ 37
    if k < 8 ∧ o < stackBytes then some (k, o) else none

/-- The HBM address of a stack address. -/
def hbmOf (k o : Nat) : Nat := 2 ^ 36 + k * 2 ^ 37 + o

/-- Whether `n` bytes from an HBM address lie in a stack of mast m, on a 4 KiB boundary (R39, R89). -/
def srcOk (m a n : Nat) : Bool :=
  match hbmAddr a with
  | none => false
  | some (k, o) => decide (k / 2 = m) && decide (o % 4096 = 0) && decide (o + n ≤ stackBytes)

/-- One byte of HBM; a byte nothing has written reads as 00h (log entry 7). -/
def hbmByte (s : State) (k o : Nat) : Byte := tabGet 0 s.hbm (k * 2 ^ 37 + o)
def setHbmByte (s : State) (k o : Nat) (b : Byte) : State := { s with hbm := tabSet 0 s.hbm (k * 2 ^ 37 + o) b }

/-- `n` bytes of a stack. -/
def hbmRead (s : State) (k o : Nat) : Nat → List Byte
  | 0 => []
  | n + 1 => s.hbmByte k o :: hbmRead s k (o + 1) n

/-- Write bytes into a stack. -/
def hbmWrite (s : State) (k o : Nat) : List Byte → State
  | [] => s
  | b :: t => (s.setHbmByte k o b).hbmWrite k (o + 1) t

/-- `n` bytes at an HBM address; zeros where the address names no stack. -/
def hbmAt (s : State) (a n : Nat) : List Byte :=
  match hbmAddr a with
  | none => List.replicate n 0
  | some (k, o) => s.hbmRead k o n

/-! Interrupts. -/

/-- R383, R384: an event on a vector: pending while masked, gathered during the holdoff, sent otherwise. -/
def raise (s : State) (v : Nat) : State :=
  let x := s.vec v
  if x.masked then s.setVec v { x with pba := true }
  else if s.bmStop ∨ (x.sent ∧ s.now < x.sentAt + 100 * x.holdoff.toNat) then s.setVec v { x with gathered := true }
  else (s.setVec v { x with sent := true, sentAt := s.now, gathered := false }).emit (.msix v)

/-- One message for the events gathered, once the holdoff is over, the vector unmasked and requests may be sent (R384). -/
def sendGathered (s : State) (v : Nat) : State :=
  let x := s.vec v
  if !x.gathered then s
  else if x.masked then s.setVec v { x with gathered := false, pba := true }
  else if s.bmStop ∨ (x.sent ∧ s.now < x.sentAt + 100 * x.holdoff.toNat) then s
  else (s.setVec v { x with sent := true, sentAt := s.now, gathered := false }).emit (.msix v)

/-- The mask bit of a vector is written; a pending event goes out when it is cleared (R383, Table 17.11). -/
def maskVec (s : State) (v : Nat) (m : Bool) : State :=
  let x := s.vec v
  if m then s.setVec v { x with masked := true }
  else if x.masked ∧ x.pba then (s.setVec v { x with masked := false, pba := false, gathered := true }).sendGathered v
  else s.setVec v { x with masked := false }

/-- Set a bit of MBX_GEN_CAUSE; vector 3 is raised while the bit is enabled too (Table 17.4). -/
def cause (s : State) (b : Nat) : State :=
  let s' := { s with genCause := s.genCause ||| BitVec.ofNat 11 (2 ^ b) }
  if (s'.genEn.toNat >>> b) % 2 = 1 then s'.raise 3 else s'

/-! Arrays. -/

/-- The array that serves, or is assigned to, slot `x` of context c on mast m. -/
def slotArr (s : State) (m c x : Nat) : Option Nat :=
  (tabKeys s.arrs (fun k a => decide (k / arrPerMast = m) && decide (a.slot = some ⟨c, x⟩))).head?.map (· % arrPerMast)

/-- The arrays of mast m that satisfy a condition, ascending. -/
def arrsOf (s : State) (m : Nat) (f : Arr → Bool) : List Nat :=
  (tabKeys s.arrs (fun k a => decide (k / arrPerMast = m) && f a)).map (· % arrPerMast)

/-- The standby of a spare group (R122): as the last reset or swap left it, which may be none; the highest-numbered array of the group
unless that was RETIRED at the reset. -/
def standbyOf (s : State) (m g : Nat) : Option Nat :=
  let k := tabGet 0 s.standbys (kGrp m g)
  if arrPerMast < k then none
  else if k ≠ 0 then some (k - 1)
  else some (groupBase g + 16)

/-- The standby of a spare group is named; none leaves the group without one. -/
def setStandby (s : State) (m g : Nat) (p : Option Nat) : State :=
  { s with standbys := tabSet 0 s.standbys (kGrp m g) (match p with
      | some q => if q = groupBase g + 16 then 0 else q + 1
      | none => arrPerMast + 1) }

/-- A reset names the standby of each spare group: its highest-numbered array that is not RETIRED (R122). -/
def nameStandbys (s : State) : State :=
  let out := tabKeys s.arrs (fun _ a => decide (a.st = .retired))
  ((out.map (fun k => (k / arrPerMast, groupOf (k % arrPerMast)))).eraseDups).foldl (fun s mg =>
    s.setStandby mg.1 mg.2 ((groupArrays mg.2).reverse.find? (fun p => (s.arr mg.1 p).st ≠ .retired))) { s with standbys := [] }

/-- Whether an array is its group's standby. -/
def isStandby (s : State) (m p : Nat) : Bool := s.standbyOf m (groupOf p) = some p

/-- A spare column serves a logical column of the array (R32). -/
def spareAssigned (s : State) (m p c : Nat) : Bool :=
  s.cols.any (fun kw => decide (kw.1 / 1026 = kArr m p) && decide (kw.1 % 1026 < 1024)
    && decide (kw.2.val.pcol = 1026 + c))

/-- An assignment of a spare column to a logical column waits for its boundary (R125). -/
def spareWaits (s : State) (m p c : Nat) : Bool :=
  s.cols.any (fun kw => decide (kw.1 / 1026 = kArr m p) && decide (kw.1 % 1026 < 1024)
    && decide (kw.2.pend.map (·.pcol) = some (1026 + c)))

/-- SPARE_FREE: bit c set when physical column 1,026 + c is unassigned and usable (Table 6.17). -/
def spareFree (s : State) (m p : Nat) : List Nat :=
  (upTo 14).filter (fun c => !s.spareAssigned m p c && !((s.atrim m p).unusable.getLsbD c))

/-! What no command alters, or only some. -/

/-- LOCAL_TIME is written by nothing but its own clock and a cold reset (R422); a locked operator key stays until a cold reset
(R144); a halted device stays halted until a warm or cold reset (R334); the queue is not the command's. -/
def keepLife (s t : State) : State :=
  { t with
    pending := s.pending
    time := s.time
    sail := { t.sail with
      opkey := if s.sail.locked then s.sail.opkey else t.sail.opkey
      locked := s.sail.locked || t.sail.locked }
    integ := { t.integ with jobState := if s.integ.jobState = 5 then 5 else t.integ.jobState } }

/-- Besides, the flash: only the ROM and the firmware services write it (R428). -/
def keepFlash (s t : State) : State := { s.keepLife t with flash := s.flash }

/-- Besides, the identity key and the boot state: only the ROM, the firmware services, resets and FURL change them (R432,
R434). -/
def keepBoot (s t : State) : State :=
  { s.keepFlash t with
    clk := { t.clk with
      idKey := s.clk.idKey
      state := s.clk.state } }

end State

/-- R23: level count, multiplier M and outermost index h of a level map. -/
def mapLevels (l : BitVec 2) : Nat := if l = 0 then 63 else if l = 1 then 31 else 15
def mapM (l : BitVec 2) : Int := if l = 0 then 1 else if l = 1 then 2 else 4
def mapH (l : BitVec 2) : Int := if l = 0 then 31 else if l = 1 then 15 else 7

/-- The cell value of a level index (R22). -/
def cellValue (l : BitVec 2) (b : Byte) : Int := mapM l * b.toInt

end Sys2Proof.Machine
end

