-- ==== Sys2Proof/Machine/Banks.lean ====
section
/-! DEFINITION. Readers and writers of the banks of chapters 8 and 10 to 15. -/

namespace Sys2Proof.Machine

namespace State

def pdesc (s : State) (n : Nat) : PDesc := tabGet {} s.pdescs n
def setPdesc (s : State) (n : Nat) (v : PDesc) : State := { s with pdescs := tabSet {} s.pdescs n v }

def tbl (s : State) (i : Nat) : Tables := tabGet {} s.tables i
def setTbl (s : State) (i : Nat) (v : Tables) : State := { s with tables := tabSet {} s.tables i v }
def modTbl (s : State) (i : Nat) (f : Tables → Tables) : State := s.setTbl i (f (s.tbl i))

def input (s : State) (i : Nat) : Input := tabGet {} s.inputs i
def setInput (s : State) (i : Nat) (v : Input) : State := { s with inputs := tabSet {} s.inputs i v }

def xr (s : State) (i : Nat) : Xr := tabGet {} s.xrs i
def setXr (s : State) (i : Nat) (v : Xr) : State := { s with xrs := tabSet {} s.xrs i v }

def smpOf (s : State) (i : Nat) : Smp := tabGet {} s.smps i
def setSmp (s : State) (i : Nat) (v : Smp) : State := { s with smps := tabSet {} s.smps i v }

def reel (s : State) (i : Nat) : Reel := tabGet {} s.reels i
def setReel (s : State) (i : Nat) (v : Reel) : State := { s with reels := tabSet {} s.reels i v }
def modReel (s : State) (i : Nat) (f : Reel → Reel) : State := s.setReel i (f (s.reel i))

def pfx (s : State) (c x : Nat) : PrefixSlot := tabGet {} s.prefixes (c * 4096 + x)
def setPfx (s : State) (c x : Nat) (v : PrefixSlot) : State := { s with prefixes := tabSet {} s.prefixes (c * 4096 + x) v }

def stream (s : State) (m : Nat) : Stream := tabGet {} s.streams m
def setStream (s : State) (m : Nat) (v : Stream) : State := { s with streams := tabSet {} s.streams m v }
def modStream (s : State) (m : Nat) (f : Stream → Stream) : State := s.setStream m (f (s.stream m))

/-- The HBM controllers of stack k's mast have moved `n` bytes for the batch of its beat (R470). -/
def hbmMoved (s : State) (k n : Nat) : State := s.modStream (k / 2) (fun x => { x with moved := x.moved + n })

/-- The arrays of a mast-wide ply have spent a step slot on the batch (R470). -/
def slotSpent (s : State) (m ply : Nat) : State := s.modStream m (fun x => { x with slots := tabSet 0 x.slots ply (tabGet 0 x.slots ply + 1) })

def line (s : State) (m l : Nat) : Line := tabGet {} s.store (m * 32768 + l)
def setLine (s : State) (m l : Nat) (v : Line) : State := { s with store := tabSet {} s.store (m * 32768 + l) v }

def inboxOf (s : State) (m : Nat) : List InRow := tabGet [] s.inboxes m
def setInbox (s : State) (m : Nat) (v : List InRow) : State := { s with inboxes := tabSet [] s.inboxes m v }

def spn (s : State) (m : Nat) : Spn := tabGet {} s.spns m
def setSpn (s : State) (m : Nat) (v : Spn) : State := { s with spns := tabSet {} s.spns m v }
def modSpn (s : State) (m : Nat) (f : Spn → Spn) : State := s.setSpn m (f (s.spn m))

def spindle (s : State) (m i : Nat) : Spindle := tabGet {} s.spindles (m * 128 + i)
def setSpindle (s : State) (m i : Nat) (v : Spindle) : State := { s with spindles := tabSet {} s.spindles (m * 128 + i) v }

/-- Write an integer register of a spindle; x0 stays zero. -/
def setReg (x : Spindle) (r : Nat) (v : W64) : Spindle := if r = 0 then x else { x with regs := tabSet 0 x.regs r v }

/-- A spindle that waits in KW.WAITEV takes the pending events of its mask and goes on (Table 12.3). -/
def wake (x : Spindle) : Spindle :=
  match x.waiting with
  | none => x
  | some (rd, mask) =>
    let got := x.events &&& mask
    if got = 0 then x
    else setReg { x with events := x.events &&& ~~~got, waiting := none, pc := x.pc + 4 } rd got

/-- Operator spindles of a mast: OP_COUNT, at most 16, while OP_EN is 1 (R289, log entry 61). -/
def opCount (s : State) (m : Nat) : Nat := if (s.spn m).opEn then min 16 (s.spn m).opCount.toNat else 0

/-- Spindle i of mast m belongs to the operator partition (R289). -/
def isOperator (s : State) (m i : Nat) : Bool := decide (128 - s.opCount m ≤ i)

/-- Event e becomes pending on one spindle of mast m; a spindle of a halted operator partition does not go on (R291). -/
def event (s : State) (m i e : Nat) : State :=
  let x := s.spindle m i
  let y := { x with events := x.events ||| BitVec.ofNat 64 (2 ^ e) }
  s.setSpindle m i (if s.isOperator m i && decide ((s.spn m).opState ≠ 1) then y else wake y)

/-- An ecall of a spindle returns a status in a0 (R292, R464), and the spindle goes on. -/
def ecallReturn (s : State) (m i : Nat) (st : Byte) : State :=
  let x := s.spindle m i
  s.setSpindle m i (setReg { x with pc := x.pc + 4, ecall := false } 10 (st.setWidth 64))

/-- The CANCEL ecalls of a mast's operator spindles that wait for a commit point return to nobody any more: their partition was halted,
or started or stopped anew (R291). The cancels stand. -/
def dropEcalls (s : State) (m : Nat) : State :=
  { s with entries := tabMapAll {} (fun _ (e : SeqEntry) => { e with
      cancels := e.cancels.filter (fun d => !(d.opcode = 0 && d.tag.toNat / 128 = m)) }) s.entries }

/-- Plausibility band of mast-wide ply x (R321). -/
def band (s : State) (m x : Nat) : Band := tabGet {} s.bands (m * 1024 + x)
def setBand (s : State) (m x : Nat) (v : Band) : State := { s with bands := tabSet {} s.bands (m * 1024 + x) v }

/-- SEQ_STEP as a number. -/
def seqStep (s : State) : Nat := s.seq.step.toNat

/-- The handle of an entry: GEN and INDEX (R208). -/
def handleOf (s : State) (i : Nat) : Nat := (s.entry i).gen.toNat <<< 17 ||| i

/-- The entry a handle names, if the handle is valid (R208). -/
def byHandle (s : State) (h : W32) : Option Nat :=
  let i := h.toNat % 131072
  if (s.entry i).st ≠ .free ∧ (s.entry i).gen.toNat = h.toNat / 131072 then some i else none

end State

end Sys2Proof.Machine
end

