-- ==== Sys2Proof/Machine/Region.lean ====
section
/-! DEFINITION. Weight regions in HBM (R192, R247): their chunks, their presented addresses, and the derived images of a context's
slot entries there (R151, R193). -/

namespace Sys2Proof.Machine

/-- A chunk of HBM that commit places weight regions in: 1 MiB (R247). -/
def mib : Nat := 1048576

/-- The chunks of a stack that weight regions may take: from the 4,096 MiB that the Poari keeps to its 76,293 MiB (R247). -/
def chunkLow : Nat := 4096
def chunkTop : Nat := 76293

/-- The free runs of chunks below `hi`, highest first, among used runs given highest first: first chunk and count. -/
def freeRuns : Nat → List (Nat × Nat) → List (Nat × Nat)
  | hi, [] => if chunkLow < hi then [(chunkLow, hi - chunkLow)] else []
  | hi, u :: t => (if u.1 + u.2 < hi then [(u.1 + u.2, hi - (u.1 + u.2))] else []) ++ freeRuns (min hi u.1) t

/-- The highest `n` chunks of free runs given highest first, as runs in ascending order. -/
def takeChunks : Nat → List (Nat × Nat) → List (Nat × Nat)
  | _, [] => []
  | n, r :: t =>
    if n = 0 then []
    else if n ≤ r.2 then [(r.1 + r.2 - n, n)]
    else takeChunks (n - r.2) t ++ [r]

/-- A run put into runs given highest first. -/
def insertRun (u : Nat × Nat) : List (Nat × Nat) → List (Nat × Nat)
  | [] => [u]
  | v :: t => if v.1 ≤ u.1 then u :: v :: t else v :: insertRun u t

/-- The stack address of a byte offset in runs of chunks, presented as one stretch in ascending order (R247, log entry 34). -/
def runAddr : List (Nat × Nat) → Nat → Nat
  | [], o => o
  | r :: t, o => if o < r.2 * mib then r.1 * mib + o else runAddr t (o - r.2 * mib)

/-- A stretch of `n` bytes from offset `o` of runs of chunks, in contiguous pieces: stack address and length. -/
def runPieces : List (Nat × Nat) → Nat → Nat → List (Nat × Nat)
  | [], o, n => if n = 0 then [] else [(o, n)]
  | r :: t, o, n =>
    let z := r.2 * mib
    if n = 0 then []
    else if z ≤ o then runPieces t (o - z) n
    else if n ≤ z - o then [(r.1 * mib + o, n)]
    else (r.1 * mib + o, z - o) :: runPieces t 0 (n - (z - o))

/-- One slot entry of a context on one mast, one for each array it takes: the ply panel, the K slot, the
context-relative slot, and which array of a doubled slot. -/
structure SlotUse where
  ply : PlyPanel
  k : Nat
  slot : Nat
  half : Nat
  doubled : Bool
  deriving DecidableEq, Repr

/-- The arrays that one panel's slot entries take (R151). -/
def panelUses (p : PlyPanel) : List SlotUse :=
  (p.slots.mapIdx (fun k e =>
    if e.1 then [⟨p, k, e.2, 0, true⟩, ⟨p, k, e.2 + 1, 1, true⟩] else [⟨p, k, e.2, 0, false⟩])).flatten

/-- Size of a derived image (R193). -/
def derivedBytes : Nat := 1064960

namespace State

/-- The runs of chunks of a context's weight region on a stack (R192, R247). -/
def regionRuns (s : State) (c k : Nat) : List (Nat × Nat) := (s.ctx c).region.getD k []

/-- The stack address of a byte offset in a context's weight region on a stack (R192). -/
def regionAddr (s : State) (c k o : Nat) : Nat := runAddr (s.regionRuns c k) o

/-- The contiguous pieces of `n` bytes of a region. -/
def regionPieces (s : State) (c k o n : Nat) : List (Nat × Nat) := runPieces (s.regionRuns c k) o n

/-- `n` bytes of a region. -/
def regionRead (s : State) (c k o n : Nat) : List Byte := (s.regionPieces c k o n).flatMap (fun x => s.hbmRead k x.1 x.2)

/-- Write bytes into a region. -/
def regionWrite (s : State) (c k o : Nat) (b : List Byte) : State :=
  ((s.regionPieces c k o b.length).foldl (fun (r : State × List Byte) x => (r.1.hbmWrite k x.1 (r.2.take x.2), r.2.drop x.2)) (s, b)).1

/-- The runs of chunks of a stack that weight regions hold, highest first. -/
def usedRuns (s : State) (k : Nat) : List (Nat × Nat) :=
  ((upTo 16).flatMap (fun c => if (s.ctx c).sect.isSome then s.regionRuns c k else [])).foldl (fun l u => insertRun u l) []

/-- Commit places a region of `n` MiB on a stack: the highest free chunks (R247). -/
def placeRegion (s : State) (k n : Nat) : List (Nat × Nat) := takeChunks n (freeRuns chunkTop (s.usedRuns k))

/-- The panels of a context. -/
def pliesOf (s : State) (c : Nat) : List PlyPanel := ((s.ctx c).sect.map (·.plies)).getD []

/-- The panel of context-relative ply x on mast m. -/
def plyOf (s : State) (c m x : Nat) : Option PlyPanel := (s.pliesOf c).find? (fun p => p.mast = m && p.index = x)

/-- The mast-wide index of a ply (R156). -/
def plyIndex (s : State) (c : Nat) (p : PlyPanel) : Nat := (s.ctx c).plyBase.getD p.mast 0 + p.index

/-- The slot entries of a context on a mast, in ply order. -/
def usesOn (s : State) (c m : Nat) : List SlotUse :=
  ((s.pliesOf c).filter (fun p => p.mast = m)).flatMap panelUses

/-- The slot entry that a context-relative slot belongs to. -/
def useOf (s : State) (c m x : Nat) : Option SlotUse := (s.usesOn c m).find? (fun u => u.slot = x)

/-- The tensor entries of the image bound to, or being bound to, a context. -/
def manifestOf (s : State) (c : Nat) : Option Manifest :=
  match (s.ctx c).wload with
  | some w => w.manifest
  | none => (s.ctx c).manifest

def tensorOf (s : State) (c i : Nat) : Option Tensor := (s.manifestOf c).bind (fun x => x.tensors[i]?)

/-- The bytes of a tensor of the master copy. -/
def tensorBytes (s : State) (c : Nat) (t : Tensor) : List Byte := s.regionRead c t.stack t.offset t.size

/-- The derived images of a stack in the order of R193. -/
def derivedList (s : State) (c k : Nat) : List SlotUse :=
  (s.usesOn c (k / 2)).filter (fun u => ((s.tensorOf c u.ply.tensor).map (·.stack)) = some k)

/-- Stack and region offset of the derived image of a context-relative slot on a mast. -/
def derivedAt (s : State) (c m x : Nat) : Option (Nat × Nat) :=
  match s.useOf c m x with
  | none => none
  | some u =>
    match s.tensorOf c u.ply.tensor, s.manifestOf c with
    | some t, some man =>
      let i := (s.derivedList c t.stack).findIdx (fun v => v.slot = x)
      some (t.stack, man.derivedOff.getD t.stack 0 * 4096 + i * derivedBytes)
    | _, _ => none

/-- `n` bytes from offset `o` of what a write or LOAD on mast m reads: a slot's derived image, as its region presents it, or what
stands at an HBM address. -/
def imageBytes (s : State) (m : Nat) (r : Option SlotRef) (src o n : Nat) : List Byte :=
  match r.bind (fun r => (s.derivedAt r.ctx m r.slot).map (fun ko => (r.ctx, ko))) with
  | some (c, k, a) => s.regionRead c k (a + o) n
  | none => s.hbmAt (src + o) n

/-- The HBM address of byte `o` of it. -/
def imageAddr (s : State) (m : Nat) (r : Option SlotRef) (src o : Nat) : Nat :=
  match r.bind (fun r => (s.derivedAt r.ctx m r.slot).map (fun ko => (r.ctx, ko))) with
  | some (c, k, a) => hbmOf k (s.regionAddr c k (a + o))
  | none => src + o

end State

end Sys2Proof.Machine
end

