-- ==== Sys2Proof/Machine/Pages.lean ====
section
/-! DEFINITION. Latent KV pages (chapter 11): homes of layers, frames and pools, page tables, reservations, copies,
snapshots, deferred frees, page bytes. -/

namespace Sys2Proof.Machine

/-- Page numbers (Table 11.1): an HBM frame, a host frame. -/
def hbmPage (k f : Nat) : Nat := k <<< 21 ||| f
def hostPage (h : Nat) : Nat := 2 ^ 24 + h
def isHost (p : Nat) : Bool := decide (2 ^ 24 ≤ p)
def pageStack (p : Nat) : Nat := bitsOf p 21 3
def pageFrame (p : Nat) : Nat := bitsOf p 0 21

/-- Bytes of a page; stack address of frame 0 (R247). -/
def pageBytes : Nat := 32768
def frame0 : Nat := chunkLow * mib

/-- The lowest mast of a mask. -/
def lowMast (mask : Nat) : Nat := ((upTo 4).find? (fun m => (mask >>> m) % 2 = 1)).getD 0

/-- ⌈n / 64⌉: pages that n positions need. -/
def pagesFor (n : Nat) : Nat := (n + 63) / 64

namespace State

/-- The layer groups of a context on this device. -/
def groupsOf (s : State) (c : Nat) : List Group := ((s.ctx c).sect.map (·.panel.groups)).getD []

/-- The context's layers on this device, ascending. -/
def layersOf (s : State) (c : Nat) : List Nat :=
  (s.groupsOf c).flatMap (fun g => (upTo (g.last + 1 - g.first)).map (fun i => g.first + i))

/-- R246: the home stack of a layer. -/
def homeStack (s : State) (c l : Nat) : Nat :=
  match (s.groupsOf c).find? (fun g => decide (g.first ≤ l) && decide (l ≤ g.last)) with
  | some g => 2 * lowMast g.mask + l % 2
  | none => 0

/-- L_h and L_s (R246). -/
def layerCount (s : State) (c : Nat) : Nat := (s.layersOf c).length
def layersOn (s : State) (c k : Nat) : Nat := ((s.layersOf c).filter (fun l => s.homeStack c l = k)).length

/-- B_s: the lowest stack address that any weight region occupies (R247). -/
def weightBase (s : State) (k : Nat) : Nat := ((s.usedRuns k).map (·.1)).foldl min chunkTop * mib

/-- Frames below B_s, LOST ones included (R247). -/
def frameLimit (s : State) (k : Nat) : Nat := min 2097152 ((s.weightBase k - frame0) / pageBytes)

/-- Descriptors of the frames of stack k that satisfy a condition. -/
def countFrames (s : State) (k : Nat) (f : Nat → PDesc → Bool) : Nat :=
  (tabKeys s.pdescs (fun p d => !isHost p && decide (pageStack p = k) && f (pageFrame p) d)).length

/-- KV_POOL.FRAMES. -/
def poolFrames (s : State) (k : Nat) : Nat :=
  s.frameLimit k - s.countFrames k (fun f d => decide (f < s.frameLimit k) && d.lost)

/-- HBM pages that a sequence's table names, with their entries, and its host-tier pages. -/
def hostEntries (s : State) (i : Nat) : List (Nat × Nat) :=
  ((s.tbl i).pages.filter (fun ep => isHost (ep.2 - 1))).map (fun ep => (ep.1, ep.2 - 1))
def hbmEntries (s : State) (i : Nat) : List (Nat × Nat) :=
  ((s.tbl i).pages.filter (fun ep => !isHost (ep.2 - 1))).map (fun ep => (ep.1, ep.2 - 1))

/-- The layer of table entry e of a context (R249). -/
def layerOfEntry (s : State) (c e : Nat) : Nat :=
  let n := s.layerCount c
  if n = 0 then 0 else (s.layersOf c).getD (e % n) 0

/-- Pages reserved on a stack for entry i: its unreleased rows, and the pages an accepted RECALL will take (R255, R265). -/
def reservedBy (s : State) (k i : Nat) (t : Tables) : Nat :=
  (if t.released then 0 else t.resRows.toNat * s.layersOn t.ctx k)
    + (if s.kv.moves.any (fun m => m.back && m.idx = i) then
        ((s.hostEntries i).filter (fun ep => s.homeStack t.ctx (s.layerOfEntry t.ctx ep.1) = k)).length
      else 0)

/-- Pages of a source that FORK must copy: HBM pages, not read-only, with REFS 65,535 (R259). -/
def forkCopies (s : State) (i : Nat) : List (Nat × Nat) :=
  (s.hbmEntries i).filter (fun ep => !(s.pdesc ep.2).ro && decide ((s.pdesc ep.2).refs = 0xFFFF))

/-- R259: the pages that a FORK reserves on a stack. -/
def forkNeed (s : State) (i k : Nat) : Nat := ((s.forkCopies i).filter (fun ep => pageStack ep.2 = k)).length

/-- Pages reserved on a stack by a command that waits for the members: the rows of a SUBMIT, whose entry is still FREE, and the copies of
a FORK (R255, R259); the rows of an APPEND stand in its entry's word. -/
def awaitReserve (s : State) (k : Nat) (a : Await) : Nat :=
  a.rows * s.layersOn a.ctx k + (if a.cmd.opcode = 5 then s.forkNeed (a.cmd.handle.toNat % 131072) k else 0)

/-- Pages reserved on a stack for the contexts that `f` takes. -/
def reservedOn (s : State) (k : Nat) (f : Nat → Bool) : Nat :=
  ((s.tables.filter (fun it => it.2.owned && f it.2.ctx)).map (fun it => s.reservedBy k it.1 it.2)).foldl (· + ·) 0
    + ((s.seq.awaits.filter (fun a => f a.ctx)).map (s.awaitReserve k)).foldl (· + ·) 0

/-- KV_POOL.FREE: frames neither held, reserved, deferred nor being zeroed. -/
def poolFree (s : State) (k : Nat) : Nat :=
  s.poolFrames k
    - s.countFrames k (fun f d => decide (f < s.frameLimit k) && !d.lost && (d.inuse || d.defer || d.zeroing))
    - s.reservedOn k (fun _ => true)

/-- The learned-prefix pages of a context on a stack: PREFIX_SLOTS × PREFIX_PAGES per layer, reserved out of its quota at commit
(R150). -/
def prefixReserve (s : State) (c k : Nat) : Nat :=
  ((s.ctx c).sect.map (fun x => x.panel.prefixSlots * x.panel.prefixPages)).getD 0 * s.layersOn c k

/-- KV_CTX_USED: held, reserved and prefix pages of a context on a stack (R251); the frames of loaded prefixes are among the pages that
commit reserved (R150). -/
def usedBy (s : State) (c k : Nat) : Nat :=
  s.countFrames k (fun _ d => d.inuse && !d.ro && decide (d.ctx.toNat = c)) + s.reservedOn k (fun x => x = c)
    + s.prefixReserve c k

/-- KV_CTX_HOST: the context's host-tier pages. -/
def hostUsedBy (s : State) (c : Nat) : Nat :=
  (tabKeys s.pdescs (fun p d => isHost p && d.inuse && decide (d.ctx.toNat = c))).length

/-- Host frames in use. -/
def hostUsed (s : State) : Nat := (tabKeys s.pdescs (fun p d => isHost p && d.inuse)).length

/-- The host tier's frames (R248): KV_HOST_PAGES; a value above the 16,777,216 that a page number can name counts as that many (log entry
107). -/
def hostLimit (s : State) : Nat := min 16777216 s.kv.hostPages.toNat

/-- KV_HOST_FREE. -/
def hostFree (s : State) : Nat := s.hostLimit - s.hostUsed

def quota (s : State) (c k : Nat) : Nat := ((s.ctx c).sect.map (fun x => x.panel.pageQuota.getD k 0)).getD 0

/-- R251: the test of a reservation of `need k` pages on each stack; stacks it takes none from are not tested. -/
def fits (s : State) (c : Nat) (need : Nat → Nat) (floor : Bool) : Bool :=
  (upTo 8).all (fun k =>
    need k = 0 ||
      (decide (s.usedBy c k + need k ≤ s.quota c k) &&
        decide ((if floor then ((s.kv.floors.getD k 0).toNat) else 0) + need k ≤ s.poolFree k)))

/-- R251 for a prefix LOAD: the quota holds its pages since commit (R150), the pool has to have the frames. -/
def fitsPrefix (s : State) (c : Nat) (need : Nat → Nat) : Bool :=
  (upTo 8).all (fun k =>
    need k = 0 ||
      (decide (s.usedBy c k ≤ s.quota c k) && decide ((s.kv.floors.getD k 0).toNat + need k ≤ s.poolFree k)))

/-- Pages a row takes from a stack. -/
def rowNeed (s : State) (c r : Nat) (k : Nat) : Nat := r * s.layersOn c k

/-! The page-table store (R249). -/

def ptbUsed (s : State) : Nat :=
  (s.tables.map (fun it => it.2.dirBlocks + it.2.ptrs.length)).foldl (· + ·) 0 + (s.seq.awaits.map (·.blocks)).foldl (· + ·) 0
def ptbFree (s : State) : Nat := 524288 - s.ptbUsed

/-- Blocks of a directory of a context. -/
def dirSize (s : State) (c : Nat) : Nat := (s.layerCount c + 63) / 64

/-- Pointers that page indices a to b − 1 need and a table does not have yet. -/
def newPtrs (s : State) (t : Tables) (c a b : Nat) : List Nat :=
  let n := s.layerCount c
  if b ≤ a ∨ n = 0 then []
  else
    let p0 := a * n / 1024
    let p1 := (b * n - 1) / 1024
    ((upTo (p1 + 1 - p0)).map (fun x => p0 + x)).filter (fun x => tabGet 0 t.ptrs x = 0)

/-- A store block is a table's: of its directory, or one of its table blocks. -/
def tblHolds (t : Tables) (b : Nat) : Bool :=
  (decide (t.dir ≤ b) && decide (b < t.dir + t.dirBlocks)) || t.ptrs.any (fun x => x.2 = b + 1)

/-- `n` consecutive store blocks from b on are free. -/
def blocksFree (s : State) (b n : Nat) : Bool :=
  decide (b + n ≤ 524288) && !s.tables.any (fun it => (upTo n).any (fun k => tblHolds it.2 (b + k)))

/-- The first `n` consecutive free store blocks from b on, cyclically. -/
def scanBlocks (s : State) (n : Nat) : Nat → Nat → Nat
  | 0, b => b
  | k + 1, b =>
    let b := if b < 524288 then b else 0
    if s.blocksFree b n then b else s.scanBlocks n k (b + 1)

/-- `n` consecutive blocks of the store; which ones is left open, so the search starts at a free value (log entry 128). -/
def takeBlocks (s : State) (n : Nat) : Nat × State :=
  let (x, s) := s.free
  (s.scanBlocks n 524288 (x % 524288), s)

/-- Take the table blocks for page indices a to b − 1. -/
def takePtrs (s : State) (i c a b : Nat) : State :=
  (s.newPtrs (s.tbl i) c a b).foldl (fun s x =>
    let (n, s) := s.takeBlocks 1
    s.modTbl i (fun t => { t with ptrs := tabSet 0 t.ptrs x (n + 1) })) s

/-- Take a directory for entry i of context c. -/
def takeDir (s : State) (i c : Nat) : State :=
  let (n, s) := s.takeBlocks (s.dirSize c)
  s.modTbl i (fun t => { t with owned := true, ctx := c, dir := n, dirBlocks := s.dirSize c })

/-- A word of the page-table store that holds something, VALID with what it names, or zero (R249). -/
def validWord (v : Nat) : W32 := if v = 0 then 0 else BitVec.ofNat 32 (2 ^ 31 + (v - 1))

/-- The 4-byte word at a place of a store block (R249): a pointer of the directory, or an entry of a table block, that a sequence has
there; zero elsewhere. -/
def storeWord (s : State) (b w : Nat) : W32 :=
  match s.tables.find? (fun it => tblHolds it.2 b) with
  | none => 0
  | some (_, t) =>
    if decide (t.dir ≤ b) && decide (b < t.dir + t.dirBlocks) then validWord (tabGet 0 t.ptrs ((b - t.dir) * 1024 + w))
    else
      match t.ptrs.find? (fun x => x.2 = b + 1) with
      | some x => validWord (tabGet 0 t.pages (x.1 * 1024 + w))
      | none => 0

/-- PAGE_TABLE of an entry: the HBM address of its directory (R249, Table 10.1). -/
def dirAddr (s : State) (i : Nat) : W64 := BitVec.ofNat 64 (Config.storeBase + 4096 * (s.tbl i).dir)

/-! Frames. -/

/-- A frame of the pool that holds nothing. -/
def frameFree (s : State) (k f : Nat) : Bool := decide (s.pdesc (hbmPage k f) = {})

/-- The first free frame from f on, cyclically. -/
def scanFrame (s : State) (k lim : Nat) : Nat → Nat → Option Nat
  | 0, _ => none
  | n + 1, f =>
    let f := if f < lim then f else 0
    if s.frameFree k f then some f else s.scanFrame k lim n (f + 1)

/-- Take a free frame of a stack; the order in which frames are taken is left open, so the search starts at a free value. -/
def takeFrame (s : State) (k c : Nat) (refs : Nat) (ro : Bool) : Option Nat × State :=
  let (n, s) := s.free
  let lim := s.frameLimit k
  match s.scanFrame k lim lim (if lim = 0 then 0 else n % lim) with
  | none => (none, s)
  | some f =>
    (some (hbmPage k f),
      s.setPdesc (hbmPage k f) { refs := BitVec.ofNat 16 refs, ro := ro, inuse := true, ctx := BitVec.ofNat 4 c })

/-- Stack address of a frame. -/
def frameAddr (f : Nat) : Nat := frame0 + f * pageBytes

/-- The bytes of an HBM page, and writing bytes at an offset of it. -/
def pageData (s : State) (p : Nat) : List Byte := s.hbmRead (pageStack p) (frameAddr (pageFrame p)) pageBytes
def writePage (s : State) (p o : Nat) (b : List Byte) : State := s.hbmWrite (pageStack p) (frameAddr (pageFrame p) + o) b

/-- A frame is zeroed. -/
def zeroPage (s : State) (p : Nat) : State := s.writePage p 0 (List.replicate pageBytes 0)

/-- The page that entry e of a table names. -/
def tblPage (s : State) (i e : Nat) : Option Nat :=
  let v := tabGet 0 (s.tbl i).pages e
  if v = 0 then none else some (v - 1)

def setTblPage (s : State) (i e : Nat) (p : Option Nat) : State :=
  s.modTbl i (fun t => { t with pages := tabSet 0 t.pages e ((p.map (· + 1)).getD 0) })

/-- A reference to a page ends (R258, R262): read-only pages carry none, a host frame returns at once, an HBM page
without references is deferred with the present SEQ_STEP. -/
def unref (s : State) (p : Nat) : State :=
  let d := s.pdesc p
  if d.ro then s
  else if isHost p then s.setPdesc p {}
  else if d.refs.toNat ≤ 1 then
    s.setPdesc p { d with refs := 0, inuse := false, defer := true, tag := BitVec.ofNat 48 s.seqStep }
  else s.setPdesc p { d with refs := d.refs - 1 }

/-! Rows (R253). -/

/-- Take one row: the pages of index k for every layer of the context. -/
def takeRow (s : State) (i c k : Nat) : State :=
  let n := s.layerCount c
  let s := s.takePtrs i c k (k + 1)
  (upTo n).foldl (fun s j =>
    match s.takeFrame (s.homeStack c ((s.layersOf c).getD j 0)) c 1 false with
    | (some p, s) => s.setTblPage i (k * n + j) (some p)
    | (none, s) => s) s

/-- The page at index k of layer rank j must be copied before it is written (R260). -/
def mustCopy (s : State) (i c k : Nat) : Bool :=
  let n := s.layerCount c
  (upTo n).any (fun j =>
    match s.tblPage i (k * n + j) with
    | some p => !isHost p && ((s.pdesc p).ro || decide (1 < (s.pdesc p).refs.toNat))
    | none => false)

/-- R252: c is 1 when LENGTH ends inside a page that is read-only or shared. -/
def copyRow (s : State) (i c len : Nat) : Nat := if len % 64 ≠ 0 ∧ s.mustCopy i c (len / 64) then 1 else 0

/-- R253: the rows a step of t token vectors at LENGTH len takes. -/
def stepRows (s : State) (i c len t : Nat) : Nat := pagesFor (len + t) - pagesFor len + s.copyRow i c len

/-- DECODE_RESERVE of a context. -/
def decodeReserve (s : State) (c : Nat) : Nat := ((s.ctx c).sect.map (·.panel.decodeReserve)).getD 0

/-- R252: the rows that a command adding n tokens reserves. -/
def cmdRows (s : State) (i c len n : Nat) : Nat :=
  pagesFor (len + n) - pagesFor len + s.copyRow i c len + s.decodeReserve c

/-- The end of the page indices that the entries of reserved rows need: the copy row of R252 takes none, and no index passes
16,383 (R249). -/
def rowEnd (len rows copy : Nat) : Nat := min 16384 (pagesFor len + rows - copy)

/-- R252 and R251: whether a command's reservation succeeds; `dir` when the sequence is new and takes its directory too, len
being then that of its prefix. -/
def cmdFits (s : State) (i c len rows : Nat) (dir : Bool) : Bool :=
  let copy := if dir then (if len % 64 = 0 then 0 else 1) else s.copyRow i c len
  s.fits c (s.rowNeed c rows) true &&
    decide ((if dir then s.dirSize c else 0)
      + (s.newPtrs (s.tbl i) c (if dir then 0 else pagesFor len) (rowEnd len rows copy)).length ≤ s.ptbFree)

def addRows (s : State) (i r : Nat) : State := s.modTbl i (fun t => { t with resRows := t.resRows + BitVec.ofNat 16 r })

/-- R253: what a top-up adds for a shortfall: units of max(1, D) rows. -/
def topUpRows (s : State) (c short : Nat) : Nat :=
  let u := max 1 (s.decodeReserve c)
  (short + u - 1) / u * u

/-- The table blocks that the new rows of a step need (R249). -/
def stepBlocks (s : State) (i c len t : Nat) : Nat := (s.newPtrs (s.tbl i) c (pagesFor len) (pagesFor (len + t))).length

/-- R253: the rows of a step are there, or a top-up can bring them; the store has the blocks the new rows need, beside the `used` ones
that the sequences selected before it in the same formation will take. -/
def rowsReady (s : State) (i c len t used : Nat) : Bool :=
  let need := s.stepRows i c len t
  let have_ := (s.tbl i).resRows.toNat
  let short := need - have_
  (short = 0 || s.fits c (s.rowNeed c (s.topUpRows c short)) false) && decide (used + s.stepBlocks i c len t ≤ s.ptbFree)

/-- R253: a failed top-up is counted. -/
def starve (s : State) : State :=
  { s with kv := { s.kv with starved := true, starve := satAdd s.kv.starve 1 } }

/-- The table entries of the page indices that hold positions below len, in order of entry: the page snapshot (R261). -/
def snapshot (s : State) (i c len : Nat) : List Nat :=
  (upTo (pagesFor len * s.layerCount c)).map (fun e => (s.tblPage i e).getD 0)

/-- R260: the copies of one sequence: a new frame for each page of the index that must be copied; the copy itself ends with
PAGE_COPY_COMPLETE. -/
def beginCopies (s : State) (i c len : Nat) : State :=
  let n := s.layerCount c
  let k := len / 64
  (upTo n).foldl (fun s j =>
    match s.tblPage i (k * n + j) with
    | some p =>
      if (s.pdesc p).ro || decide (1 < (s.pdesc p).refs.toNat) then
        match s.takeFrame (s.homeStack c ((s.layersOf c).getD j 0)) c 1 false with
        | (some q, s) =>
          let s := (s.setTblPage i (k * n + j) (some q)).unref p
          { s with kv := { s.kv with copies := s.kv.copies + 1, copying := s.kv.copying ++ [(p, q, len % 64)] } }
        | (none, s) => s
      else s
    | none => s) s

/-- R253, R260, R261: a selected sequence takes its rows for a step of t token vectors; the indices of its new rows are
those from ⌈len / 64⌉ on. -/
def formRows (s : State) (i c len t : Nat) : State :=
  let need := s.stepRows i c len t
  let short := need - (s.tbl i).resRows.toNat
  let s := if short = 0 then s else s.addRows i (s.topUpRows c short)
  let copy := s.copyRow i c len
  let s := s.modTbl i (fun x => { x with resRows := x.resRows - BitVec.ofNat 16 need })
  let s := (upTo (pagesFor (len + t) - pagesFor len)).foldl (fun s k => s.takeRow i c (pagesFor len + k)) s
  if copy = 1 then s.beginCopies i c len else s

/-- A frame returns to its pool; a LOST one stays out of it (R268). -/
def emptyFrame (s : State) (p : Nat) : State := s.setPdesc p (if (s.pdesc p).lost then { lost := true } else {})

/-- R263: a rollback clears the entries that the step set for new rows and returns the rows to the reserved ones; the
table blocks and the copies stay. -/
def returnRows (s : State) (i c len t : Nat) : State :=
  let n := s.layerCount c
  let r := pagesFor (len + t) - pagesFor len
  let s := (upTo (r * n)).foldl (fun s x =>
    let e := pagesFor len * n + x
    match s.tblPage i e with
    | some p => (s.emptyFrame p).setTblPage i e none
    | none => s) s
  s.addRows i r

/-- PAGE_COPY_COMPLETE: the oldest copy in progress ends: slots below LENGTH copied, the others zero (R260). -/
def copyDone (s : State) : State :=
  match s.kv.copying with
  | [] => s
  | (p, q, n) :: rest =>
    let b := s.hbmRead (pageStack p) (frameAddr (pageFrame p)) (512 * n)
    { s.writePage q 0 (slice b 0 pageBytes) with kv := { s.kv with copying := rest } }

/-- A page whose copy is running, as source or destination (R260). -/
def copyBusy (s : State) (p : Nat) : Bool := s.kv.copying.any (fun x => x.1 = p || x.2.1 = p)

/-- Step n is at or before a tag, 48-bit numbers (R4). -/
def stepReached (tag n : Nat) : Bool := !later 48 n tag

/-- A page is pinned by a step in flight (R261). -/
def pinned (s : State) (p : Nat) : Bool :=
  (s.batches ++ s.rolled).any (fun b => !b.swept && b.members.any (fun m => m.pages.contains p))

/-- DEFERRED_FREE (R262): once no step at or before the tag is in flight, the frame is zeroed and returns to the pool. -/
def deferredFree (s : State) (p : Nat) : State :=
  let d := s.pdesc p
  if d.defer && !(s.batches ++ s.rolled).any (fun b => !b.swept && stepReached d.tag.toNat b.step) then
    (s.zeroPage p).emptyFrame p
  else s

/-- KV_DEFER. -/
def deferCount (s : State) : Nat := (tabKeys s.pdescs (fun _ d => d.defer)).length

/-- R247: a frame above the pool, under a weight chunk, still in use. -/
def frameDisplaced (s : State) (p : Nat) : Bool :=
  !isHost p && (s.pdesc p).inuse && decide (s.frameLimit (pageStack p) ≤ pageFrame p)

/-- R247: a frame that holds a page, or is yet to be zeroed, overlaps the 1 MiB chunks of n bytes at a stack address. -/
def chunkHeld (s : State) (k a n : Nat) : Bool :=
  let lo := a / 1048576 * 1048576
  let hi := (a + n + 1048575) / 1048576 * 1048576
  !(tabKeys s.pdescs (fun p d => !isHost p && decide (pageStack p = k) && (d.inuse || d.defer || d.zeroing)
    && decide (frameAddr (pageFrame p) < hi) && decide (lo < frameAddr (pageFrame p) + pageBytes))).isEmpty

/-- Rewrite every table entry and prefix page that names p into q. -/
def renamePage (s : State) (p q : Nat) : State :=
  let sub (t : Tab Nat) : Tab Nat := t.map (fun ev => (ev.1, if ev.2 = p + 1 then q + 1 else ev.2))
  { s with
    tables := tabMapAll {} (fun _ t => { t with pages := sub t.pages }) s.tables
    prefixes := tabMapAll {} (fun _ x => { x with pages := sub x.pages }) s.prefixes }

/-- FRAME_MOVE (R247): a displaced frame moves to a free frame of its pool, after the commit point of every step whose
snapshot names it. -/
def frameMove (s : State) (p : Nat) : State :=
  if s.frameDisplaced p && !s.pinned p then
    let d := s.pdesc p
    match s.takeFrame (pageStack p) d.ctx.toNat d.refs.toNat d.ro with
    | (some q, s) => ((s.writePage q 0 (s.pageData p)).renamePage p q).emptyFrame p
    | (none, s) => s
  else s

/-- A table of a sequence names a page in the host tier, or one that is being moved (R17, R247). -/
def pagesAbsent (s : State) (i : Nat) : Bool :=
  (s.tbl i).pages.any (fun ep => isHost (ep.2 - 1) || s.frameDisplaced (ep.2 - 1))

/-- R254: reserved rows return to the pool. -/
def dropRows (s : State) (i : Nat) : State := s.modTbl i (fun t => { t with resRows := 0, released := false })

/-- RELEASE of a sequence's pages and tables (R235, R249, R258, R262). -/
def freeTables (s : State) (i : Nat) : State :=
  let t := s.tbl i
  let s := t.pages.foldl (fun s ep => s.unref (ep.2 - 1)) s
  let s :=
    match (s.xr i).prefixSlot with
    | some x =>
      let q := s.pfx t.ctx x
      s.setPfx t.ctx x { q with users := q.users - 1 }
    | none => s
  s.setTbl i {}

/-- R258, R218: the pages of a learned prefix head every layer's table, and the slot gains a user. -/
def placePrefix (s : State) (i c x : Nat) : State :=
  let q := s.pfx c x
  let s := s.takePtrs i c 0 (pagesFor q.length)
  let s := s.modTbl i (fun t => { t with pages := q.pages })
  s.setPfx c x { q with users := q.users + 1 }

/-- R259: the new entry's directory and table blocks, holding the source's entries. -/
def forkTables (s : State) (src new c : Nat) : State :=
  let t := s.tbl src
  let s := s.takeDir new c
  let s := t.ptrs.foldl (fun s x =>
    let (n, s) := s.takeBlocks 1
    s.modTbl new (fun t => { t with ptrs := tabSet 0 t.ptrs x.1 (n + 1) })) s
  let s := t.pages.foldl (fun s ep =>
    let p := ep.2 - 1
    let d := s.pdesc p
    if d.ro then s.setTblPage new ep.1 (some p)
    else if d.refs = 0xFFFF then
      match s.takeFrame (pageStack p) c 1 false with
      | (some q, s) =>
        let s := (s.writePage q 0 (s.pageData p)).setTblPage new ep.1 (some q)
        { s with kv := { s.kv with copies := s.kv.copies + 1 } }
      | (none, s) => s
    else (s.setPdesc p { d with refs := d.refs + 1 }).setTblPage new ep.1 (some p)) s
  match (s.xr src).prefixSlot with
  | some x =>
    let q := s.pfx c x
    s.setPfx c x { q with users := q.users + 1 }
  | none => s

/-- The page indices that hold at least one page of an entry (KV_RES.HELD_ROWS). -/
def heldRows (s : State) (i : Nat) : Nat :=
  let n := s.layerCount (s.tbl i).ctx
  if n = 0 then 0 else ((s.tbl i).pages.map (fun ep => ep.1 / n)).eraseDups.length

/-- Take a free host frame: the order is left open, so the search starts at a free value. -/
def takeHost (s : State) (c : Nat) : Option Nat × State :=
  let (n, s) := s.free
  let lim := s.hostLimit
  let rec go : Nat → Nat → Option Nat
    | 0, _ => none
    | k + 1, h =>
      let h := if h < lim then h else 0
      if (s.pdesc (hostPage h)).inuse then go k (h + 1) else some h
  match go lim (if lim = 0 then 0 else n % lim) with
  | none => (none, s)
  | some h => (some h, s.setPdesc (hostPage h) { refs := 1, inuse := true, ctx := BitVec.ofNat 4 c })

/-- The pages that SPILL moves (R264). -/
def spillPages (s : State) (i : Nat) : List (Nat × Nat) :=
  (s.hbmEntries i).filter (fun ep => !(s.pdesc ep.2).ro && decide ((s.pdesc ep.2).refs = 1))

/-- Host frames that accepted SPILLs of the contexts that `f` takes will still take. -/
def spillQueued (s : State) (f : Nat → Bool) : Nat :=
  ((s.kv.moves.filter (fun m => !m.back && f (s.entry m.idx).ctx.toNat)).map (fun m => (s.spillPages m.idx).length)).foldl (· + ·) 0

/-- R264: the host tier can take a SPILL. -/
def spillFits (s : State) (i c : Nat) : Bool :=
  let n := (s.spillPages i).length
  n = 0 || (decide (n + s.spillQueued (fun _ => true) ≤ s.hostFree) &&
    decide (s.hostUsedBy c + s.spillQueued (fun x => x = c) + n ≤ ((s.ctx c).sect.map (·.panel.hostPages)).getD 0))

/-- R265: HBM can take a RECALL: one page for each host-tier page, and the remembered rows of an EXPIRED sequence. -/
def recallFits (s : State) (i c : Nat) (expired : Bool) : Bool :=
  let t := s.tbl i
  s.fits c (fun k =>
    ((s.hostEntries i).filter (fun ep => s.homeStack c (s.layerOfEntry c ep.1) = k)).length
      + (if expired then t.resRows.toNat * s.layersOn c k else 0)) true

/-- The move that runs: the first RECALL accepted, else the first SPILL (R266). -/
def nextMove (s : State) : Option Move :=
  match s.kv.moves.find? (·.back) with
  | some m => some m
  | none => s.kv.moves.head?

/-- Host address of a host frame (R248). -/
def hostFrameAddr (s : State) (h : Nat) : Nat := s.kv.hostBase.toNat + h * pageBytes

/-- One page of a SPILL is written to a host frame (R264). -/
def spillPage (s : State) (i c : Nat) (ep : Nat × Nat) : State :=
  match s.takeHost c with
  | (none, s) => s
  | (some h, s) =>
    let s := (s.emit (.hostWrite (s.hostFrameAddr h) (s.pageData ep.2))).setTblPage i ep.1 (some (hostPage h))
    let s := s.unref ep.2
    { s with kv := { s.kv with moved := s.kv.moved + 1 } }

/-- One page of a RECALL is read into a frame of its home stack (R265). -/
def recallPage (s : State) (i c : Nat) (ep : Nat × Nat) (data : List Byte) : State :=
  match s.takeFrame (s.homeStack c (s.layerOfEntry c ep.1)) c 1 false with
  | (none, s) => s
  | (some q, s) =>
    let s := ((s.writePage q 0 (slice data 0 pageBytes)).setTblPage i ep.1 (some q)).setPdesc ep.2 {}
    { s with kv := { s.kv with moved := s.kv.moved + 1 } }

/-- Entries whose tables, and prefix slots whose pages, name a page. -/
def pageUsers (s : State) (p : Nat) : List Nat := tabKeys s.tables (fun _ t => t.pages.any (fun ep => ep.2 = p + 1))

end State

end Sys2Proof.Machine
end

