-- ==== Sys2Proof/Machine/Route.lean ====
section
/-! DEFINITION. Ranks (R362), the route of a packet and its flow number (R365, R368), and the sending of data and control
packets (R363, R364, R371). A packet sent is placed at the switch, which forwards it (PACKET_TRANSIT). -/

namespace Sys2Proof.Machine

/-! Packet types (Table 16.3). -/
def pkRow : Nat := 1
def pkLogit : Nat := 2
def pkHead : Nat := 3
def pkInput : Nat := 4
def pkHalt : Nat := 0x10
def pkReady : Nat := 0x11
def pkResume : Nat := 0x12

/-- The PORTS field of a list of halyards: hop 0 in bits [59:55] (Table 16.3). -/
def portsField (l : List Nat) : Nat := (l.mapIdx (fun i p => (p % 32) <<< (55 - 5 * i))).foldl (· + ·) 0

/-- The halyard of hop i. -/
def portOf (f i : Nat) : Nat := bitsOf f (55 - 5 * i) 5

namespace State

/-- The device's own DEVICE_ID, JOB_ID, rank and job size: 0, 0, 0 and 1 while no plan is in force. -/
def deviceId (s : State) : Nat := (s.sail.device.map (·.deviceId)).getD 0
def jobId (s : State) : Nat := (s.sail.device.map (·.jobId)).getD 0
def jobRank (s : State) : Nat := (s.sail.device.map (·.jobRank)).getD 0
def jobSize (s : State) : Nat := (s.sail.device.map (·.jobSize)).getD 1

/-- R362: the DEVICE_ID of a rank of the job, modulo 2^17. -/
def rankId (s : State) (r : Nat) : Nat := (s.deviceId + 131072 - s.jobRank + r) % 131072

/-- R362: the rank of a DEVICE_ID of the job, if it is one. -/
def rankOf (s : State) (d : Nat) : Option Nat :=
  let r := (d + 131072 - s.rankId 0) % 131072
  if r < s.jobSize then some r else none

/-! Power states (R398, R399). -/

/-- Depth of a power state; the code of PWR_STAT (Table 18.13). -/
def pwrCode : PwrState → Nat
  | .sail => 0
  | .reef => 1
  | .douse => 2
  | .furl => 3

/-- The domain group of a mast (R399). -/
def groupOfMast (s : State) (m : Nat) : Nat :=
  match s.sail.device with
  | some d => bitsOf d.reefGroups (2 * m) 2
  | none => m

/-- The masts of a domain group. -/
def mastsOf (s : State) (g : Nat) : List Nat := (upTo 4).filter (fun m => s.groupOfMast m = g)

/-- The state of a domain group. -/
def groupSt (s : State) (g : Nat) : PwrState := s.pwr.groups.getD g .sail

/-- The device state: the shallowest of the groups that hold masts (R399). -/
def deviceSt (s : State) : Nat := (((upTo 4).map (fun m => pwrCode (s.groupSt (s.groupOfMast m)))).min?).getD 0

/-- A mast's clocks run: its group is in SAIL or REEF (Table 18.1). On a mast that a wake has powered, its step counter and restore loop
begin once its group is in SAIL (DESIGN CHOICE, log entry 133). -/
def mastRuns (s : State) (m : Nat) : Bool :=
  !s.pwr.furled && (decide (s.groupSt (s.groupOfMast m) = .sail) || decide (s.groupSt (s.groupOfMast m) = .reef))

def port (s : State) (p : Nat) : Port := tabGet {} s.ports p
def setPort (s : State) (p : Nat) (v : Port) : State := { s with ports := tabSet {} s.ports p v }
def modPort (s : State) (p : Nat) (f : Port → Port) : State := s.setPort p (f (s.port p))

/-- The route of a virtual channel to a device (R365). -/
def routeTo (s : State) (dest vc : Nat) : Option Route :=
  s.sail.routes.find? (fun r => r.vc = vc && decide (r.lo ≤ dest) && decide (dest ≤ r.hi))

/-- R365: a packet that cannot be sent is recorded. -/
def noRoute (s : State) : State :=
  { s with rig := { s.rig with noRoute := true, cntNoRoute := satAdd s.rig.cntNoRoute 1 } }

/-- Place a packet of the device's own at the switch. -/
def toSwitch (s : State) (p : Pkt) : State := { s with rig := { s.rig with inq := s.rig.inq ++ [p] } }

/-- R364: bytes 32 to 47 of a data descriptor: PCHK, STEP, EPOCH and the field at 46. -/
def descHead (s : State) (payload : List Byte) (step f46 : Nat) : List Byte :=
  leBytes 4 (blockCheck payload).toNat ++ leBytes 6 step ++ leBytes 4 s.integ.epoch.toNat ++ leBytes 2 f46

/-- Send a data packet to a rank of the job: its route and its flow number (R365, R368). -/
def sendData (s : State) (rank vc typ : Nat) (desc payload : List Byte) : State :=
  if s.jobSize ≤ rank then s.noRoute
  else
    match s.routeTo (s.rankId rank) vc with
    | none => s.noRoute
    | some r =>
      let k := rank * 4 + vc
      let f := tabGet 0 s.rig.txFlow k
      let s := { s with rig := { s.rig with txFlow := tabSet 0 s.rig.txFlow k (if f = 0 then 2 else f % 2 ^ 32 + 1) } }
      s.toSwitch {
        typ := typ
        vc := vc
        start := decide (f = 0)
        hops := r.ports.length
        dest := s.rankId rank
        src := s.deviceId
        jobId := s.jobId
        flow := BitVec.ofNat 32 (f - 1)
        ports := portsField r.ports
        desc := slice desc 0 28
        payload := payload }

/-- Send a control packet to a rank over the VC 3 route (R371). -/
def sendControl (s : State) (rank typ epoch origin reason : Nat) : State :=
  if s.jobSize ≤ rank then s.noRoute
  else
    match s.routeTo (s.rankId rank) 3 with
    | none => s.noRoute
    | some r =>
      s.toSwitch {
        typ := typ
        vc := 3
        hops := r.ports.length
        reason := reason
        dest := s.rankId rank
        src := origin
        jobId := s.jobId
        flow := BitVec.ofNat 32 epoch
        ports := portsField r.ports }

/-- R360: the buffer a packet held on the halyard it came in on drains; its credits are returned in a later frame. -/
def giveBack (s : State) (p : Pkt) : State :=
  match p.came with
  | none => s
  | some (h, n) => s.modPort h (fun x =>
      let k := if 16 ≤ p.typ then 4 else p.vc
      { x with owed := x.owed.set k (x.owed.getD k 0 + n) })

end State

end Sys2Proof.Machine
end

