-- ==== Sys2Proof/Machine/Halt.lean ====
section
/-! DEFINITION. The halt of a job and what a halted device gives up (R187, R232, R339 to R341), the control
packets (R371), the severities' actions (R334, R471) and the error log (R335 to R338). -/

namespace Sys2Proof.Machine

namespace State

/-- R371: the ranks a device at distance x from the origin sends on to: x + 2^k for every 2^k > x below JOB_SIZE. -/
def treeTargets (n o x : Nat) : List Nat :=
  ((upTo 12).filter (fun k => decide (x < 2 ^ k) && decide (x + 2 ^ k < n))).map (fun k => (o + x + 2 ^ k) % n)

/-- Send a control packet down the tree of its origin (R371). -/
def sendTree (s : State) (origin kind reason : Nat) : State :=
  match s.rankOf origin with
  | none => s
  | some o =>
    let n := s.jobSize
    let x := (s.jobRank + n - o) % n
    (treeTargets n o x).foldl
      (fun s r => s.sendControl r kind s.integ.epoch.toNat origin reason) s

/-- A sequence with IN_FLIGHT 1 becomes RESTARTING, its step rolled back (R211, R232): LENGTH, INPUT and NEXT
are those before the step, since only a commit changes them. A lost page, a failed input block or a member's report stays pending; a bad
token or a sampler fault is the step's own, which meets it again when it is re-run. -/
def restartEntry (e : SeqEntry) : SeqEntry :=
  if e.inFlight then { e with
    st := .restarting
    stepFault := if e.stepFault = 2 ∨ e.stepFault = 4 then 0 else e.stepFault }
  else e

/-- Table 5.5, JOB_HALT: every tile is discarded and every accumulator released; the count of drained tiles
stays. -/
def releaseAcc (a : Acc) : Acc := { tiles := a.tiles }

/-- A member's rows of a step rolled back return to the reserved ones (R228, R263); LENGTH is the head's, or its shadow. -/
def rollMember (b : Batch) (s : State) (m : Member) : State :=
  s.returnRows m.idx b.ctx (if b.remote then (s.tbl m.idx).shadow else m.base) m.toks.length

/-- What every halt does to the work in flight: streams stop, tiles, inbox rows, logits and repeats, those of known-answer kernels
too, are discarded, rows go back, the batches formed here wait to be re-formed, the pages of every step rolled back are noted for VERIFY,
the digest round is abandoned (R187, R232, R338, R343, Table 14.8). -/
def haltWork (s : State) : State :=
  let live := s.batches.filter (fun b => !b.swept)
  let s := live.foldl (fun s b => b.members.foldl (rollMember b) s) s
  let pages := live.flatMap (fun b => b.members.flatMap (fun m => m.pages ++ m.took))
  { s with
    accs := tabMapAll {} (fun _ a => releaseAcc a) s.accs
    entries := tabMapAll {} (fun _ e => restartEntry e) s.entries
    streams := tabMapAll {} (fun _ x => { x with busy := false, started := false, jobs := [], engines := [], splices := [], left := [], done := [] }) s.streams
    inboxes := []
    logits := []
    rolled := s.rolled ++ live.filter (fun b => !b.remote)
    batches := []
    remoteWait := []
    sampled := []
    beatOn := false
    integ := { s.integ with
      repeats := []
      kernels := []
      verify := s.integ.verify ++ pages
      round := none
      digBusy := false } }

/-- Enter HALT for an epoch (R339): origin and REASON are those of the halt; a halt that has lost a member stays one (R341). -/
def enterHalt (s : State) (epoch : W32) (origin reason : Nat) : State :=
  let s := s.haltWork
  { s with integ := { s.integ with
      epoch := epoch
      jobState := if s.integ.jobState = 4 ∨ s.integ.jobState = 5 then s.integ.jobState else 1
      phase := 1
      haltTime := s.now
      haltSrc := origin
      haltReason := if s.integ.phase ≠ 0 ∧ s.integ.haltReason = 2 then 2 else reason
      tmoDone := false
      readys := [] } }

/-- A JOB_FATAL error found here while not halted: epoch E + 1, halt, JOB_HALT with REASON FATAL (R339, R340). -/
def haltHere (s : State) : State :=
  if s.integ.phase ≠ 0 then s
  else (s.enterHalt (s.integ.epoch + 1) s.deviceId 1).sendTree s.deviceId pkHalt 1

/-- DEVICE_FATAL (R334, R341): the device halts; JOB_HALT carries its present epoch, or E + 1 if it was not halted. -/
def deviceFatal (s : State) : State :=
  if s.integ.jobState = 5 then s
  else
    let s1 := if s.integ.phase ≠ 0 then s else s.enterHalt (s.integ.epoch + 1) s.deviceId 2
    let s2 := { s1 with integ := { s1.integ with jobState := 5, haltReason := 2 } }
    s2.sendTree s2.deviceId pkHalt 2

/-- The device is DEVICE_FATAL (INT_STAT.DEV_FATAL). -/
def devFatal (s : State) : Bool := s.integ.jobState = 5

/-- R200, R334: a context is stopped as by STOP. -/
def stopCtx (s : State) (c : Nat) : State :=
  s.modCtx c (fun x => if x.st = .running then { x with st := .draining } else x)

/-- R471: a context is stopped as CONTEXT_FATAL. -/
def ctxFatalStop (s : State) (c : Nat) : State :=
  let s := s.stopCtx c
  { s with integ := { s.integ with ctxFatal := s.integ.ctxFatal ||| BitVec.ofNat 16 (2 ^ c) } }

/-- The code of a severity (Table 14.5). -/
def sevCode : Sev → Nat
  | .corrected => 0
  | .repeated => 1
  | .degraded => 2
  | .ctxFatal => 3
  | .jobFatal => 4
  | .devFatal => 5

/-- The oldest record of a severity taken out of the log, if there is one. -/
def dropOldest (v : Sev) : List ErrRec → Option (List ErrRec)
  | [] => none
  | r :: t => if r.sev = v then some t else (dropOldest v t).map (r :: ·)

/-- R337: room made in a full log: the oldest CORRECTED, else REPEATED, else DEGRADED record goes. -/
def makeRoom (l : List ErrRec) : Option (List ErrRec) :=
  match dropOldest .corrected l with
  | some x => some x
  | none =>
    match dropOldest .repeated l with
    | some x => some x
    | none => dropOldest .degraded l

/-- R336, R337: put a record into the log; its SEQNO is taken whether it is held or lost. -/
def putRec (g : Integ) (r : ErrRec) : Integ :=
  let g := { g with tail := g.tail + 1 }
  if g.log.length < 256 then { g with log := g.log ++ [r] }
  else
    match makeRoom g.log with
    | some l => { g with log := l ++ [r], lost := satAdd g.lost 1, logOvf := true }
    | none =>
      { g with lost := satAdd g.lost 1, logOvf := true, fatalFull := g.fatalFull || decide (3 ≤ sevCode r.sev) }

/-- An error is being handled (R338): a repeat or arbitration is in progress, of a token, a known-answer pattern or a cell digest, or the
job is halted. -/
def handling (s : State) : Bool :=
  !s.integ.repeats.isEmpty || !s.integ.kernels.isEmpty || ((s.integ.round.map (fun r => !r.again.isEmpty)).getD false) || s.integ.phase ≠ 0

/-- R338: a CONTEXT_FATAL or JOB_FATAL error found from the start of VERIFY until the resume is DEVICE_FATAL. -/
def escalates (s : State) (v : Sev) : Bool :=
  decide (2 ≤ s.integ.phase.toNat) && (decide (v = .ctxFatal) || decide (v = .jobFatal))

/-- What a record says beside its severity. -/
structure RecInfo where
  typ : Nat
  source : Nat := 4
  step : Option Nat := none
  ctx : Option Nat := none
  detail : Nat := 0
  /-- LOCAL_TIME at detection, and whether another error was being handled then, where the verdict comes later (R335, R338). -/
  found : Option (W64 × Bool) := none
  deriving DecidableEq, Repr

/-- Log one record, with NESTED and ESCALATED as R338 sets them, and raise the integrity vector from DEGRADED
up (R336). No action is taken here. -/
def logOnly (s : State) (v : Sev) (i : RecInfo) : State :=
  let esc := s.escalates v
  let v' := if esc then .devFatal else v
  let r : ErrRec :=
    { seqno := s.integ.tail
      sev := v'
      nested := (i.found.map (·.2)).getD s.handling
      escalated := esc
      source := i.source
      typ := i.typ
      time := (i.found.map (·.1)).getD s.time
      step := i.step.getD s.seq.step.toNat
      ctx := i.ctx
      detail := BitVec.ofNat 64 i.detail }
  let s := { s with integ := putRec s.integ r }
  if 2 ≤ sevCode v' then s.raise 2 else s

/-- R334: the action of a severity; a CONTEXT_FATAL event concerns the context its record names. -/
def sevAction (s : State) (v : Sev) (c : Option Nat) : State :=
  match v with
  | .ctxFatal => match c with | some c => s.ctxFatalStop c | none => s
  | .jobFatal => s.haltHere
  | .devFatal => s.deviceFatal
  | _ => s

/-- R334, R335: an event is logged and the action of its severity taken. -/
def log (s : State) (v : Sev) (i : RecInfo) : State :=
  let v' := if s.escalates v then .devFatal else v
  (s.logOnly v i).sevAction v' i.ctx

/-- R329: a transient finding is counted. -/
def countCorrected (s : State) : State := { s with integ := { s.integ with corrected := s.integ.corrected + 1 } }

/-- R329: a finding that its repeat did not confirm: counted, and logged CORRECTED. -/
def transient (s : State) (i : RecInfo) : State := s.countCorrected.log .corrected i

/-- R471: a CONTEXT_FATAL event that concerns several contexts: one record for each; with none, one record. -/
def logCtxs (s : State) (i : RecInfo) (cs : List Nat) : State :=
  match cs with
  | [] => s.log .ctxFatal { i with ctx := none }
  | cs => cs.foldl (fun s c => s.log .ctxFatal { i with ctx := some c }) s

/-- A BLOCK_CHECK record (Table 14.7): class, stack, stack address. -/
def blockInfo (cls stack addr : Nat) : RecInfo :=
  { typ := tBlockCheck, source := stack / 2, detail := (cls <<< 60) + (stack <<< 56) + addr / 4096 }

/-- The BLOCK_CHECK record of an HBM address. -/
def blockInfoAt (cls a : Nat) : RecInfo :=
  match hbmAddr a with
  | some (k, o) => blockInfo cls k o
  | none => blockInfo cls 0 0

/-- DETAIL of an ARRAY record (Table 14.7). -/
def arrDetail (m p slot cause : Nat) : Nat := (m <<< 62) + (p <<< 47) + (slot <<< 32) + cause

/-- An ARRAY record of severity DEGRADED. -/
def logArr (s : State) (m p cause : Nat) : State :=
  s.log .degraded { typ := tArray, source := m, detail := arrDetail m p 0 cause }

/-- R332: a permanent fault charged to an array: RETIRED is written 1; JOB_FATAL while the array serves a RUNNING
or DRAINING context, DEGRADED otherwise. `i` is the record of the check that found it. -/
def servesLive (s : State) (m p : Nat) : Bool :=
  (s.arr m p).st = .active && (match (s.arr m p).slot with
    | some r => decide ((s.ctx r.ctx).st = .running) || decide ((s.ctx r.ctx).st = .draining)
    | none => false)

end State

end Sys2Proof.Machine
end

