-- ==== Sys2Proof/Machine/Reels.lean ====
section
/-! DEFINITION. Reels (R306 to R310), parking (R233), completions (R212, R214, R467), and the ways a sequence leaves
its turn (Table 10.3). -/

namespace Sys2Proof.Machine

/-! Reel record types (Table 13.4). -/
def rtToken : Nat := 1
def rtEnd : Nat := 2
def rtCancelled : Nat := 3
def rtDeadline : Nat := 4
def rtFault : Nat := 5
def rtRestart : Nat := 6

/-- What a reel record says beside SEQNO (Table 13.4). -/
structure ReelRec where
  typ : Nat
  flags : Nat := 0
  lp : Nat := 0
  token : Nat := 0
  length : Nat
  step : Nat
  handle : Nat
  detail : Nat := 0
  deriving DecidableEq, Repr

/-- The 32 bytes of a record. -/
def reelBytes (seqno : W32) (r : ReelRec) : List Byte :=
  leBytes 4 seqno.toNat ++ leBytes 1 r.typ ++ leBytes 1 r.flags ++ leBytes 2 r.lp ++ leBytes 4 r.token ++ leBytes 4 r.length
    ++ leBytes 6 r.step ++ leBytes 2 0 ++ leBytes 4 r.handle ++ leBytes 4 r.detail

/-- SEQNO of the next record to be written: TAIL as the room is counted (R308). -/
def reelTail (x : Reel) : W32 := x.seqno - BitVec.ofNat 32 x.held.length

/-- R308, R310: the room of a reel. -/
def reelRoom (x : Reel) : Nat :=
  let used := (reelTail x - x.head).toNat
  if x.stopped then 0 else x.size - used

/-- Codes of the states (Table 10.2). -/
def stateCode : SeqState → Nat
  | .free => 0
  | .admitted => 1
  | .prefill => 2
  | .decode => 3
  | .waiting => 4
  | .parked => 5
  | .spilled => 6
  | .ended => 7
  | .cancelled => 8
  | .expired => 9
  | .faulted => 10
  | .restarting => 11

/-- The commands' ring record (Table 10.5). -/
def cplBytes (c : Cpl) : List Byte :=
  leBytes 4 c.tag.toNat ++ leBytes 4 c.handle.toNat ++ [c.status] ++ leBytes 1 c.opcode ++ leBytes 1 c.state ++ leBytes 1 c.byte11
    ++ leBytes 4 0

namespace State

/-! Completions. -/

/-- The completion ring holds its size less one (R212): SEQ_STAT.CPL_FULL. -/
def cplFull (s : State) : Bool :=
  let n := s.seq.cplSize.toNat
  decide ((s.seq.cplTail.toNat + 1) % n = s.seq.cplHead.toNat % n)

/-- Write one completion into its slot and advance the tail; vector 0 is raised (R212). -/
def cplPut (s : State) (c : Cpl) : State :=
  let t := s.seq.cplTail.toNat
  let s := s.emit (.hostWrite (s.seq.cplBase.toNat + 16 * t) (cplBytes c))
  ({ s with seq := { s.seq with cplTail := BitVec.ofNat 16 ((t + 1) % s.seq.cplSize.toNat) } }).raise 0

/-- A completion: written when the ring has room and none waits before it; held in order otherwise (R212, R467). `ok`: the
write of host memory succeeds, at once or when retried. -/
def complete (s : State) (c : Cpl) (ok : Bool) : State :=
  if !s.seq.held.isEmpty || s.cplFull || !s.seq.enable || s.bmStop then { s with seq := { s.seq with held := s.seq.held ++ [c] } }
  else if ok then s.cplPut c
  else { s with seq := { s.seq with held := s.seq.held ++ [c], cplErr := true, retryAt := s.now } }

/-- Held completions are written again in order; `n` of them succeed and the next one fails unless all are written (R467). -/
def cplRetry (s : State) (n : Nat) : Nat → State
  | 0 => s
  | k + 1 =>
    match s.seq.held with
    | [] => s
    | c :: t =>
      if s.cplFull || !s.seq.enable || s.bmStop then s
      else if n = 0 then { s with seq := { s.seq with cplErr := true, retryAt := s.now } }
      else (({ s with seq := { s.seq with held := t } }).cplPut c).cplRetry (n - 1) k

/-- A completion that joins the queue, its write to be tried with the others of its sweep. -/
def queueCpl (s : State) (c : Cpl) : State := { s with seq := { s.seq with held := s.seq.held ++ [c] } }

/-- Complete a command on entry i with a status; byte 10 shows the entry's state. -/
def cmdDone (s : State) (d : Desc) (h : W32) (i : Option Nat) (st : Byte) (b11 : Nat) (ok : Bool) : State :=
  s.complete ⟨d.tag, h, st, d.opcode, (i.map (fun i => stateCode (s.entry i).st)).getD 0, b11⟩ ok

/-! Records. -/

/-- PEND_REC shows the records held. -/
def notePend (s : State) (i : Nat) : State :=
  s.modEntry i (fun e => { e with pendRec := BitVec.ofNat 2 (min 3 (s.reel i).held.length) })

/-- A record arises for entry i: queued for writing where the reel has room and none is held, held otherwise (R233). -/
def putReel (s : State) (i : Nat) (r : ReelRec) : State :=
  let x := s.reel i
  let b := reelBytes x.seqno r
  let x' := { x with seqno := x.seqno + 1, lastToken := if r.typ = rtToken then some x.seqno else x.lastToken }
  let x' := if !x.held.isEmpty || reelRoom x = 0 then { x' with held := x.held ++ [b] } else { x' with queue := x.queue ++ [b] }
  (s.setReel i x').notePend i

/-- A record of entry i with the entry's LENGTH and handle. -/
def record (s : State) (i typ flags step detail : Nat) : State :=
  s.putReel i { typ := typ, flags := flags, length := (s.entry i).length.toNat, step := step, handle := s.handleOf i, detail := detail }

/-- R233: a PREFILL or DECODE entry not in flight whose reel lacks room for two records, or which holds one, parks; a parked
one returns when the held records are written and the room is there. -/
def park (s : State) (i : Nat) : State :=
  let e := s.entry i
  let x := s.reel i
  let short := decide (reelRoom x < 2) || !x.held.isEmpty || decide (x.heldQ ≠ 0)
  if (e.st = .prefill ∨ e.st = .decode) ∧ !e.inFlight ∧ short then s.setEntry i { e with st := .parked, prior := e.st }
  else if e.st = .parked ∧ !short then s.setEntry i { e with st := e.prior }
  else s

/-- Held records are queued for writing as far as there is room (R233). -/
def unhold (s : State) (i : Nat) : State :=
  let x := s.reel i
  let n := min (reelRoom x) x.held.length
  (s.setReel i { x with
    queue := x.queue ++ x.held.take n
    heldQ := if n = 0 then x.heldQ else x.queue.length + n
    held := x.held.drop n }).notePend i

/-- R308: HEAD has been read for a reel; `none` when the read and its retry failed: the HEAD last read stays in force. A FREE entry has
no reel. -/
def headRead (s : State) (i : Nat) (head : Option W32) : State :=
  let x := { s.reel i with readAt := s.now }
  if (s.entry i).st = .free then s
  else match head with
  | none => ({ s.setReel i x with smp := { s.smp with headErr := true } }.unhold i).park i
  | some h =>
    let s := s.setReel i { x with head := h }
    let s := if x.size < (reelTail x - h).toNat then { s with smp := { s.smp with badHead := true } } else s
    (s.unhold i).park i

/-- TAIL is written into the descriptor (R309); with NOTIFY calling for it, vector 1 is raised. -/
def writeTail (s : State) (i : Nat) (ok : Bool) : State :=
  let x := s.reel i
  if ok then
    let s := s.emit (.hostWrite ((s.entry i).reel.toNat + 24) (leBytes 4 (reelTail x).toNat))
    let s := s.setReel i { x with tailOwed := false, status := false, any := false }
    if (x.notify = 1 ∧ x.status) ∨ (x.notify = 2 ∧ x.any) then s.raise 1 else s
  else
    let s := s.setReel i { x with tailOwed := true, stopped := true }
    { s with smp := { s.smp with wrErr := true, err := satAdd s.smp.err 1 } }

/-- Requests to host memory may be sent: no link reset waits for ENABLE (R310), and nothing stops bus mastering (R380). -/
def reelMay (s : State) : Bool := !s.seq.linkStop && !s.bmStop

/-- The next queued record of entry i is written, and TAIL after the last one; a record that fails twice is held again, with those
behind it (R310). -/
def writeRecord (s : State) (i : Nat) (ok tailOk : Bool) : State :=
  let x := s.reel i
  match x.queue with
  | [] => s
  | b :: t =>
    if ok then
      let n := leNat (b.take 4)
      let s := s.emit (.hostWrite (x.base.toNat + (n % x.size) * 32) b)
      let s := { s with smp := { s.smp with records := s.smp.records + 1 } }
      let s := s.setReel i { x with
        queue := t
        heldQ := x.heldQ - 1
        any := true
        status := x.status || decide (2 ≤ ((b.getD 4 0).toNat)) }
      if t.isEmpty then s.writeTail i tailOk else s
    else
      let s := s.setReel i { x with queue := [], held := x.queue ++ x.held, heldQ := 0, stopped := true }
      ({ s with smp := { s.smp with wrErr := true, err := satAdd s.smp.err 1 } }).notePend i

/-- REEL_RECORD_WRITE (R309, R310): an owed TAIL is written before any record. A sequence whose reel stops parks, and a parked one
returns once its held records are written (R233). -/
def reelWrite (s : State) (i : Nat) (ok tailOk : Bool) : State :=
  if !s.reelMay || (s.reel i).stopped then s
  else
    let s := if (s.reel i).tailOwed then s.writeTail i tailOk else s
    (if (s.reel i).stopped then s else s.writeRecord i ok tailOk).park i

/-- REEL_KICK (R308, R310): a stop by WR_ERR ends, an owed TAIL is written before any further record, HEAD is read. While requests to
host memory may not be sent, the TAIL stays owed and HEAD is not read. -/
def reelKick (s : State) (h : W32) (head : Option W32) (tailOk : Bool) : State :=
  match s.byHandle h with
  | none => { s with smp := { s.smp with kickRej := true } }
  | some i =>
    let s := s.modReel i (fun x => { x with stopped := false })
    if !s.reelMay then s
    else (if (s.reel i).tailOwed then s.writeTail i tailOk else s).headRead i head

/-- REEL_POLL (R308): the poll interval of a parked or holding sequence has elapsed and HEAD is read. -/
def reelPoll (s : State) (i : Nat) (head : Option W32) : State :=
  let x := s.reel i
  if s.smp.pollUs ≠ 0 ∧ (((s.entry i).st = .parked) ∨ !x.held.isEmpty) ∧ x.readAt + 100 * s.smp.pollUs.toNat ≤ s.now then
    s.headRead i head
  else s

/-! The ends of a turn (Table 10.3). -/

/-- R254, R231: a sequence enters WAITING, ENDED, CANCELLED or FAULTED. -/
def settle (s : State) (i : Nat) (st : SeqState) : State :=
  let s := s.dropRows i
  s.modEntry i (fun e => { e with
    st := st
    deadline := if st = .waiting ∨ st = .ended then 0 else e.deadline })

/-- CANCELLED with its record. -/
def toCancelled (s : State) (i step : Nat) : State :=
  (s.settle i .cancelled).record i rtCancelled 0 step 0

/-- FAULTED with its cause and record. -/
def toFaulted (s : State) (i step : Nat) (cause : BitVec 4) : State :=
  ((s.settle i .faulted).modEntry i (fun e => { e with fault := cause, stepFault := 0 })).record i rtFault 0 step cause.toNat

/-- EXPIRED, with EXP_FROM and the DEADLINE record; the reserved rows stay (R254). -/
def toExpired (s : State) (i step : Nat) : State :=
  let x := s.reel i
  let s := s.modEntry i (fun e => { e with st := .expired, expFrom := decide (e.input = 0) })
  let s := { s with seq := { s.seq with expired := satAdd s.seq.expired 1 } }
  s.record i rtDeadline (if x.lastToken.isNone then 1 else 0) step ((x.lastToken.map (·.toNat)).getD 0)

/-- A cancel of a sequence not in flight takes effect (R230). -/
def cancelNow (s : State) (i : Nat) : State := s.toCancelled i s.seqStep

/-- The input blocks of a sequence return (R219). -/
def dropInput (s : State) (i : Nat) : State := s.setInput i {}

/-- Blocks of the input store a list of tokens holds (R219); the last one returns with its last token. -/
def inputBlocks (x : Input) : Nat :=
  if x.toks.length + x.copying = 0 then 0 else (x.toks.length + x.off + x.copying + 1023) / 1024

/-- Input blocks that a command which waits for the members will take (R217, R239). -/
def awaitInput (s : State) (a : Await) : Nat :=
  if a.cmd.opcode = 1 then (a.cmd.count + 1023) / 1024
  else if a.cmd.opcode = 2 then ((s.entry a.idx).nextValid.toNat + a.cmd.count + 1023) / 1024
  else 0

def inputFree (s : State) : Nat :=
  524288 - (s.inputs.map (fun ix => inputBlocks ix.2)).foldl (· + ·) 0 - (s.seq.awaits.map s.awaitInput).foldl (· + ·) 0

end State

end Sys2Proof.Machine
end

