-- ==== Sys2Proof/Machine/Sampler.lean ====
section
/-! DEFINITION. The sampler (R295 to R304, R466): record checks, penalties, cuts, the draw, the log-probability, the count
table and stop conditions. -/

namespace Sys2Proof.Machine

/-! The sampler record (Table 13.1). -/
def smpSeed (r : List Byte) : W64 := BitVec.ofNat 64 (leAt r 0 8)
def smpF (r : List Byte) (o : Nat) : Ext := f32 (BitVec.ofNat 32 (leAt r o 4))
def smpTemp (r : List Byte) : Rat := (smpF r 8).toRat
def smpTopK (r : List Byte) : Nat := if leAt r 20 2 = 0 then 1024 else leAt r 20 2
def smpCountInput (r : List Byte) : Bool := leAt r 22 1 % 2 = 1
def smpMaxNew (r : List Byte) : Nat := leAt r 36 4
def stopTok (r : List Byte) (i : Nat) : Nat := leAt r (40 + 4 * i) 4
def stopSeqWord (r : List Byte) (q : Nat) : Nat := leAt r (72 + 36 * q) 4
def stopSeqLen (r : List Byte) (q : Nat) : Nat := bitsOf (stopSeqWord r q) 0 4
def stopSeqTok (r : List Byte) (q i : Nat) : Nat := leAt r (76 + 36 * q + 4 * i) 4

/-- A finite value within bounds. -/
def inRange (x : Ext) (lo hi : Rat) : Bool := x.isFinite && decide (lo ≤ x.toRat) && decide (x.toRat ≤ hi)

/-- R296: a STOP_TOK entry. -/
def stopTokOk (r : List Byte) (vocab i : Nat) : Bool :=
  let w := stopTok r i
  if w >>> 31 = 1 then decide (bitsOf w 20 10 = 0) && decide (bitsOf w 0 20 < vocab) else decide (w = 0)

/-- R296: a STOP_SEQ entry. -/
def stopSeqOk (r : List Byte) (vocab q : Nat) : Bool :=
  let w := stopSeqWord r q
  let n := stopSeqLen r q
  if w >>> 31 = 1 then
    decide (bitsOf w 4 26 = 0) && decide (1 ≤ n) && decide (n ≤ 8)
      && (upTo 8).all (fun i => if i < n then decide (stopSeqTok r q i < vocab) else decide (stopSeqTok r q i = 0))
  else decide (w = 0) && zeroAt r (76 + 36 * q) 32

/-- R296: the record is accepted for a vocabulary. -/
def smpOk (r : List Byte) (vocab : Nat) : Bool :=
  let t := smpF r 8
  t.isFinite && (decide (t.toRat = 0) || inRange t (1 / 1024) 256)
    && inRange (smpF r 12) 0 1 && decide (0 < (smpF r 12).toRat)
    && inRange (smpF r 16) 0 1 && decide ((smpF r 16).toRat < 1)
    && decide (leAt r 20 2 ≤ 1024) && decide (leAt r 22 1 < 2) && decide (leAt r 23 1 = 0)
    && inRange (smpF r 24) 1 8 && inRange (smpF r 28) (-64) 64 && inRange (smpF r 32) (-64) 64
    && decide (leAt r 36 4 ≤ 1048576)
    && (upTo 8).all (stopTokOk r vocab) && (upTo 4).all (stopSeqOk r vocab)

/-! Values. -/

/-- R299: the penalties for a token with a count. -/
def penalise (r : List Byte) (n : Nat) (z : Ext) : Ext :=
  if n = 0 then z
  else
    let rep := smpF r 24
    let z' := f32 (rne32 (if Ext.lt Ext.zero z then Ext.div z rep else Ext.mul z rep))
    f32 (rne32 (Ext.sub (Ext.sub z' (smpF r 28)) (Ext.mul (smpF r 32) (Ext.ofRat (n : Rat)))))

/-- Candidates: value and token, ordered by value descending and by ascending ID among equals (R300). -/
def insertCand (x : Rat × Nat) : List (Rat × Nat) → List (Rat × Nat)
  | [] => [x]
  | y :: t => if y.1 < x.1 ∨ (y.1 = x.1 ∧ x.2 < y.2) then x :: y :: t else y :: insertCand x t

/-- The first K candidates. -/
def topCands (k : Nat) (l : List (Rat × Nat)) : List (Rat × Nat) := l.foldl (fun a x => (insertCand x a).take k) []

/-- RNE32 of the exponential of an exact value. -/
def expW (x : Rat) : W32 := roundReal (fun k => expIv k x) precisions

/-- The shortest head whose sum is at least a bound (top-p). -/
def headFor (bound : Rat) : Rat → List (Nat × Rat) → List (Nat × Rat)
  | _, [] => []
  | a, x :: t => if bound ≤ a + x.2 then [x] else x :: headFor bound (a + x.2) t

/-- The first candidate whose cumulative sum exceeds a bound (the draw). -/
def firstAbove (bound : Rat) : Rat → List (Nat × Rat) → Option Nat
  | _, [] => none
  | a, x :: t => if bound < a + x.2 then some x.1 else firstAbove bound (a + x.2) t

/-- R300: the choice among candidates, from the draw u. -/
def choose (cands : List (Rat × Nat)) (topP minP u : Rat) : Option Nat :=
  match cands with
  | [] => none
  | c :: _ =>
    let ws := cands.map (fun x => (x.2, (f32 (expW (x.1 - c.1))).toRat))
    let tot := ws.foldl (fun a x => a + x.2) 0
    let kept := headFor (topP * tot) 0 ws
    let left := kept.take 1 ++ (kept.drop 1).filter (fun x => decide (minP ≤ x.2))
    let w := left.foldl (fun a x => a + x.2) 0
    firstAbove (u * w) 0 left

/-- RNE16: a rational rounded to IEEE 754 binary16; below −65,504 it is −∞ (R301). -/
def rne16 (q : Rat) : Nat :=
  let m := absQ q
  let bits := if m = 0 then 0 else rneBits 11 (-14) m
  withSign 16 (decide (q < 0)) (min bits 0x7C00)

/-- RNE16 of a bound of a value that is known to be negative: a bound at or above zero stands for what lies just below zero. -/
def rneNeg16 (q : Rat) : Nat := if 0 ≤ q then 0x8000 else rne16 q

/-- LP from enclosures of the exact value, which is negative, at rising precision; a value no enclosure decides is free (log entry 12). -/
def roundReal16 (f : Nat → Iv) : List Nat → Nat
  | [] => Config.freeRound 1 % 65536
  | k :: ks =>
    let a := rneNeg16 (f k).lo
    let b := rneNeg16 (f k).hi
    if a = b then a else roundReal16 f ks

/-- R301: the log-probability of a value among all finite values: 0 where it is the only one, and below 0 among several. -/
def logProb (y : Rat) (all : List Rat) : Nat :=
  match all with
  | [x] => rne16 (y - x)
  | _ =>
    let m := all.foldl max (all.headD 0)
    roundReal16 (fun k =>
      let s := all.foldl (fun a v => Iv.add a (expIv k (v - m))) ⟨0, 0⟩
      ⟨y - m - (lnIv k s.hi).hi, y - m - (lnIv k s.lo).lo⟩) precisions

/-- What the sampler makes of one sequence's logits. -/
inductive Pick where
  | fault
  | token (t : Nat) (lp : Nat) (greedy : Bool)
  deriving DecidableEq, Repr

/-- R297 to R301, R466: one sequence's sampling. `z` are the logits of the tokens below VOCAB, `n` their counts, `u` the draw.
`open_` is the token where the spec states no result (a penalty that overflows to +∞). -/
def sample (r : List Byte) (z : List Ext) (n : Nat → Nat) (u : Rat) (open_ : Nat) : Pick :=
  if z.any (fun x => x.isNan || x = .inf false) then .fault
  else
    let zs := z.mapIdx (fun v x => (v, penalise r (n v) x))
    if zs.any (fun x => x.2 = .inf false || x.2.isNan) then .token open_ (Config.freeRound 2 % 65536) (decide (smpTemp r = 0))
    else
      let fin := (zs.filter (fun x => x.2.isFinite)).map (fun x => (x.2.toRat, x.1))
      if fin.isEmpty then .fault
      else if smpTemp r = 0 then
        match topCands 1 fin with
        | c :: _ => .token c.2 (logProb c.1 (fin.map (·.1))) true
        | [] => .fault
      else
        let y := fin.map (fun x => (f32 (rne32 (Ext.ofRat (x.1 / smpTemp r))), x.2))
        let above := y.any (fun x => x.1 = .inf false) || y.all (fun x => !x.1.isFinite)
        let cs : List (Rat × Nat) :=
          if above then fin.map (fun x => (x.1 / smpTemp r, x.2))
          else (y.filter (fun x => x.1.isFinite)).map (fun x => (x.1.toRat, x.2))
        match choose (topCands (smpTopK r) cs) (smpF r 12).toRat (smpF r 16).toRat u with
        | none => .fault
        | some t => .token t (logProb (((cs.find? (fun x => x.2 = t)).map (·.1)).getD 0) (cs.map (·.1))) false

/-- R304: a sequence's draw in a step. -/
def drawOf (seed : W64) (step : Nat) : Rat :=
  (((twist seed (BitVec.ofNat 48 step) 0).toNat >>> 11 : Nat) : Rat) / ((2 ^ 53 : Nat) : Rat)

/-! The count table (R302). -/

/-- Count one token; the second component says that a new token found no empty word. -/
def countTok (x : Tab Nat) (t : Nat) : Tab Nat × Bool :=
  let c := tabGet 0 x t
  if c = 0 ∧ 4096 ≤ x.length then (x, true) else (tabSet 0 x t (min 4095 (c + 1)), false)

/-- Count tokens in order. -/
def countToks (x : Tab Nat) (l : List Nat) : Tab Nat × Bool :=
  l.foldl (fun r t => let q := countTok r.1 t; (q.1, r.2 || q.2)) (x, false)

/-! Stop sequences (R303). -/

/-- The length of the longest head of STOP_SEQ q, shorter than `lim`, that ends the tokens `hist` (latest last). -/
def longestHead (r : List Byte) (q lim : Nat) (hist : List Nat) : Nat :=
  ((upTo lim).filter (fun m =>
    decide (m ≤ hist.length) && (upTo m).all (fun i => decide (stopSeqTok r q i = hist.getD (hist.length - m + i) 0)))).foldl max 0

/-- MATCH_q after a token t, from MATCH_q before it. -/
def matchNext (r : List Byte) (q m t : Nat) : Nat :=
  if stopSeqWord r q >>> 31 = 1 then longestHead r q (stopSeqLen r q) ((upTo m).map (stopSeqTok r q) ++ [t]) else 0

/-- STOP_SEQ q matches with token t. -/
def seqMatches (r : List Byte) (q m t : Nat) : Bool :=
  decide (stopSeqWord r q >>> 31 = 1) && decide (m + 1 = stopSeqLen r q) && decide (stopSeqTok r q m = t)

/-- The conditions that hold at a commit, in the order of R303: STOP_TOK, STOP_SEQ, MAX_NEW, LENGTH_LIMIT; each with
whether one of kind END and one of kind WAIT holds. -/
structure Stops where
  tokEnd : Bool
  tokWait : Bool
  seqEnd : Bool
  seqWait : Bool
  maxNew : Bool
  limit : Bool
  deriving DecidableEq, Repr

def stopsAt (x : Smp) (t length : Nat) : Stops :=
  let r := x.par
  let toks := (upTo 8).filter (fun i => decide (stopTok r i >>> 31 = 1) && decide (bitsOf (stopTok r i) 0 20 = t))
  let seqs := (upTo 4).filter (fun q => seqMatches r q ((x.matches_.getD q 0).toNat) t)
  let wait (w : Nat) : Bool := bitsOf w 30 1 = 1
  { tokEnd := toks.any (fun i => !wait (stopTok r i))
    tokWait := toks.any (fun i => wait (stopTok r i))
    seqEnd := seqs.any (fun q => !wait (stopSeqWord r q))
    seqWait := seqs.any (fun q => wait (stopSeqWord r q))
    maxNew := decide (smpMaxNew r ≠ 0) && decide (x.new.toNat = smpMaxNew r)
    limit := decide (1048576 ≤ length) }

/-- REASON of the END record (Table 13.4); 0 where no condition of kind END holds. -/
def endReason (x : Stops) : Nat :=
  if x.tokEnd then 1 else if x.seqEnd then 2 else if x.maxNew then 3 else if x.limit then 4 else 0

/-- FLAGS of the TOKEN record (Table 13.4). -/
def tokenFlags (x : Stops) (greedy full : Bool) : Nat :=
  bit_ (x.tokEnd || x.tokWait) 0 + bit_ (x.seqEnd || x.seqWait) 1 + bit_ x.maxNew 2 + bit_ x.limit 3
    + bit_ (x.tokWait || x.seqWait) 4 + bit_ greedy 5 + bit_ full 6

/-- The 256 bytes of a stored sampler record (Table 13.1). -/
def smpStored (x : Smp) : List Byte :=
  slice x.par 0 216 ++ leBytes 4 x.new.toNat ++ leBytes 2 x.counts.length ++ leBytes 1 (bit_ x.full 0) ++ [0]
    ++ slice x.matches_ 0 4 ++ List.replicate 28 0

namespace State

/-- VOCAB of a context. -/
def vocabOf (s : State) (c : Nat) : Nat := ((s.ctx c).sect.map (·.panel.vocab)).getD 0

/-- The sampling vectors of a batch: the members that sample, in batch order (R225). -/
def samplingOf (b : Batch) : List Member := b.members.filter (·.samples)

/-- The logit of a token in a context's sampling vector, if it has arrived. -/
def logit (s : State) (c tau v : Nat) : Option W32 := tabGet none s.logits ((c * 1024 + tau) * 1048576 + v)

/-- Place one logit in the sampler's buffer. -/
def setLogit (s : State) (c tau v : Nat) (x : W32) : State :=
  { s with logits := tabSet none s.logits ((c * 1024 + tau) * 1048576 + v) (some x) }

/-- R179: every logit of every sampling sequence of a batch is present. -/
def logitsPresent (s : State) (b : Batch) : Bool :=
  (upTo (samplingOf b).length).all (fun t => (upTo (s.vocabOf b.ctx)).all (fun v => (s.logit b.ctx t v).isSome))

/-- The logits of one sampling vector. -/
def logitsOf (s : State) (c tau : Nat) : List Ext :=
  (upTo (s.vocabOf c)).map (fun v => match s.logit c tau v with | some w => f32 w | none => .inf true)

/-- The sampler record and count table that a member's sampling uses: the entry's, or the replay's own (R354). -/
def smpFor (s : State) (b : Batch) (m : Member) : Smp :=
  if b.replay then (s.rpl.job.map (·.smp)).getD {} else s.smpOf m.idx

/-- One sequence's sampling; a sampler fault is reported for its step (R298). -/
def sampleOne (b : Batch) (r : State × Nat) (m : Member) : State × Nat :=
  let s := r.1
  let x := s.smpFor b m
  let (n, s) := s.free
  let s :=
    match sample x.par (s.logitsOf b.ctx r.2) (fun v => tabGet 0 x.counts v) (drawOf (smpSeed x.par) b.step) (n % s.vocabOf b.ctx) with
    | .fault =>
      let s := { s with smp := { s.smp with faults := satAdd s.smp.faults 1 } }
      if b.replay then s else s.modEntry m.idx (fun e => { e with stepFault := if e.stepFault = 0 then 4 else e.stepFault })
    | .token t lp _ =>
      { s with
        smp := { s.smp with draws := s.smp.draws + 1 }
        sampled := s.sampled ++ [⟨b.step, m.idx, t, BitVec.ofNat 32 lp, r.2⟩] }
  (s, r.2 + 1)

/-- The logits of a context leave the buffer. -/
def clearLogits (s : State) (c : Nat) : State :=
  { s with logits := s.logits.filter (fun kv => decide (kv.1 / (1024 * 1048576) ≠ c)) }

/-- R355: a replayed step's logits go into the digest of the replay. -/
def absorbLogits (s : State) (b : Batch) : State :=
  let l := if (samplingOf b).isEmpty then [] else
    (upTo (s.vocabOf b.ctx)).flatMap (fun v => leBytes 4 ((s.logit b.ctx 0 v).getD 0).toNat)
  { s with rpl := { s.rpl with job := s.rpl.job.map (fun j => { j with absorbed := j.absorbed ++ l }) } }

/-- SAMPLER_FINISH (R305): the released batch of a context, all its logits present, is sampled in batch order. -/
def samplerFinish (s : State) (c : Nat) : State :=
  match s.batches.find? (fun b => b.ctx = c && b.released && !b.sampledAll) with
  | none => s
  | some b =>
    if !s.logitsPresent b then s
    else
      let s := ((samplingOf b).foldl (sampleOne b) (s, 0)).1
      let s := if b.replay then s.absorbLogits b else s
      let s := s.clearLogits c
      { s with batches := s.batches.map (fun (x : Batch) =>
          if x.step = b.step ∧ x.ctx = c ∧ x.replay = b.replay then { x with sampledAll := true } else x) }

/-- MATCH_UPDATE (R303): after the sweep, the MATCH words of a sequence take in the token sampled last. -/
def matchUpdate (s : State) (i : Nat) : State :=
  let x := s.smpOf i
  match x.due with
  | none => s
  | some t =>
    s.setSmp i { x with
      due := none
      matches_ := (upTo 4).map (fun q => BitVec.ofNat 8 (matchNext x.par q ((x.matches_.getD q 0).toNat) t)) }

end State

end Sys2Proof.Machine
end

