-- ==== Sys2Proof/Machine/Head.lean ====
section
/-! DEFINITION. Heads and members (R238, R239, R370, Table 16.5): the items and INPUT packets a head sends, and how a
consumer takes one item of a delivered HEAD packet. -/

namespace Sys2Proof.Machine

/-! KIND of an item (Table 16.5). -/
def kBatch : Nat := 1
def kCommit : Nat := 2
def kReserve : Nat := 3
def kReserveAck : Nat := 4
def kRefuse : Nat := 5
def kRelease : Nat := 6
def kPageLost : Nat := 7
def kRanges : Nat := 8

/-- The 32 bytes of an item: KIND, byte 1, bytes 2–3, the handle, and the words at 8, 12, 16 and 20. -/
def itemBytes (kind b1 f2 handle f8 f12 f16 f20 : Nat) : List Byte :=
  leBytes 1 kind ++ leBytes 1 b1 ++ leBytes 2 f2 ++ leBytes 4 handle ++ leBytes 4 f8 ++ leBytes 4 f12 ++ leBytes 4 f16
    ++ leBytes 4 f20 ++ List.replicate 8 0

/-- A RANGES item: handle, first index, the words of three ranges. -/
def rangeItem (handle first : Nat) (ws : List W64) : List Byte :=
  slice (leBytes 1 kRanges ++ leBytes 1 first ++ leBytes 2 0 ++ leBytes 4 handle
    ++ (upTo 3).flatMap (fun i => leBytes 8 (ws.getD (first + i) 0).toNat)) 0 32

/-- Groups of at most n. -/
def chunksOf {α : Type} (n : Nat) : Nat → List α → List (List α)
  | 0, _ => []
  | k + 1, l => if l.isEmpty then [] else l.take n :: chunksOf n k (l.drop n)

/-- Key of a member's shadow of a head entry of context c. -/
def shadowKey (c h : Nat) : Nat := (c + 1) * 131072 + h % 131072

namespace State

/-- The other ranks of the job: the members that a head addresses (R238). -/
def members (s : State) : List Nat := (upTo s.jobSize).filter (fun r => r ≠ s.jobRank)

/-- This device is a context's head: its layer program holds SAMPLE (R238). -/
def isHead (s : State) (c : Nat) : Bool := (((s.ctx c).sect.map (·.prog)).getD []).any (fun op => op % 256 = 0x0E)

/-- Send items to a rank, in HEAD packets of at most 128 items over VC 3 (R370). -/
def sendItems (s : State) (rank step : Nat) (items : List (List Byte)) : State :=
  (chunksOf 128 items.length items).foldl (fun s g =>
    let pay := g.flatten
    s.sendData rank 3 pkHead (s.descHead pay step g.length) pay) s

/-- Send items to every member. -/
def sendMembers (s : State) (step : Nat) (items : List (List Byte)) : State :=
  s.members.foldl (fun s r => s.sendItems r step items) s

/-- A batch's input token IDs in batch order, to every member (R364, R370). -/
def sendInputs (s : State) (step : Nat) (toks : List Nat) : State :=
  s.members.foldl (fun s r =>
    ((chunksOf 1024 toks.length toks).foldl (fun (r2 : State × Nat) g =>
      let pay := g.flatMap (leBytes 4)
      (r2.1.sendData r 3 pkInput (r2.1.descHead pay step g.length ++ leBytes 2 r2.2) pay, r2.2 + g.length)) (s, 0)).1) s

/-- A failed PCHK of a packet's payload at its consumer: the source is read again and fails again, so the job halts
(R317, Table 14.2, block class 2). -/
def badPayload (s : State) (detail : Nat) : State := s.log .jobFatal { typ := tBlockCheck, source := 5, detail := (2 <<< 60) + detail }

/-- PCHK agrees with the payload. -/
def pchkOk (p : Pkt) : Bool := leAt p.desc 0 4 = (blockCheck p.payload).toNat

/-- STEP, EPOCH of a data packet. -/
def pktStep (p : Pkt) : Nat := leAt p.desc 4 6
def pktEpoch (p : Pkt) : Nat := leAt p.desc 10 4

/-- R369: a data packet of another epoch is discarded uncounted. -/
def freshPkt (s : State) (p : Pkt) : Bool := pktEpoch p = s.integ.epoch.toNat

/-- Take the first delivered HEAD packet whose first item is of a kind: the item, the packet, and the state without the
item. -/
def takeItem (s : State) (kind : Nat) : Option (List Byte × Pkt × State) :=
  match s.rig.delivered.find? (fun p => p.typ = pkHead && leAt p.payload 0 1 = kind) with
  | none => none
  | some p =>
    let rest := p.payload.drop 32
    let p' := { p with payload := rest, desc := leBytes 4 (blockCheck rest).toNat ++ p.desc.drop 4 }
    let swap := if rest.length < 32 then s.rig.delivered.erase p
      else s.rig.delivered.map (fun q => if q = p then p' else q)
    let s' : State := { s with rig := { s.rig with delivered := swap } }
    some (p.payload.take 32, p, if rest.length < 32 then s'.giveBack p else s')

/-- Take the first delivered packet of a type. -/
def takePkt (s : State) (typ : Nat) : Option (Pkt × State) :=
  match s.rig.delivered.find? (fun p => p.typ = typ) with
  | none => none
  | some p =>
    let s' : State := { s with rig := { s.rig with delivered := s.rig.delivered.erase p } }
    some (p, s'.giveBack p)

/-- One item is taken and used, unless its packet is of another epoch or fails its payload check (R369, R317). -/
def withItem (s : State) (kind : Nat) (f : State → List Byte → Pkt → State) : State :=
  match s.takeItem kind with
  | none => s
  | some (it, p, s') =>
    if !s.freshPkt p then s'
    else if !pchkOk p then s'.badPayload 0
    else f s' it p

/-! Lost pages (R268). -/

/-- What a lost page does to one entry of this device's own table. -/
def loseEntry (s : State) (i : Nat) : State :=
  let e := s.entry i
  if e.inFlight ∨ e.st = .restarting then s.setEntry i { e with stepFault := if e.stepFault = 0 then 3 else e.stepFault }
  else
    match e.st with
    | .admitted => (s.dropInput i).toFaulted i s.seqStep 3
    | .prefill | .decode | .waiting | .parked | .ended | .expired => s.toFaulted i s.seqStep 3
    | .spilled =>
      if e.prior = .waiting ∨ e.prior = .ended ∨ e.prior = .expired then
        ((s.dropRows i).setEntry i { e with prior := .faulted, fault := 3 }).record i rtFault 0 s.seqStep 3
      else s
    | _ => s

/-- An entry whose word has a double-bit error (R241): it becomes FAULTED with FAULT 3h, whatever state it held; one whose step is in
flight does so at its commit point, where R227 decides the step (DEDUCED, log entry 127). -/
def eccEntry (s : State) (i : Nat) : State :=
  let e := s.entry i
  if e.st = .free then s
  else if e.inFlight ∨ e.st = .restarting then s.setEntry i { e with stepFault := if e.stepFault = 0 then 3 else e.stepFault }
  else (if e.st = .admitted then s.dropInput i else s).toFaulted i s.seqStep 3

/-- A store of the engine fails (Table 14.2, Table 10.13, R471): its sequences become FAULTED, with one record for each context
concerned. A block that passes when it is read again is a transient event (R317). -/
def storeFault (s : State) (x : StoreFault) : State :=
  let cs := (x.entries.map (fun i => (s.entry i).ctx.toNat)).eraseDups
  if x.kind ≠ 0 && !x.again then s.transient (blockInfoAt (if x.kind = 1 then 5 else 6) x.addr)
  else if x.kind = 0 then
    x.entries.foldl (fun s i => (s.eccEntry i).log .ctxFatal
      { typ := tSequence
        source := 4
        ctx := some (s.entry i).ctx.toNat
        detail := s.handleOf i + 3 <<< 32 }) s
  else if x.kind = 1 then
    let s := x.entries.foldl (fun s i =>
      if (s.entry i).inFlight then s.modEntry i (fun e => { e with stepFault := if e.stepFault = 0 then 1 else e.stepFault })
      else s.toFaulted i s.seqStep 1) s
    s.log .degraded (blockInfoAt 5 x.addr)
  else (x.entries.foldl loseEntry s).logCtxs (blockInfoAt 6 x.addr) cs

/-- R268: a page is lost. `owner` says whether the block that failed has been recorded already. -/
def losePage (s : State) (p : Nat) : State :=
  let d := s.pdesc p
  if !(d.inuse || d.defer) then (if isHost p then s else s.setPdesc p { lost := true })
  else
    let s := (s.pageUsers p).foldl (fun s i =>
      if i < 131072 then s.loseEntry i
      else s.sendItems (s.tbl i).headRank s.seqStep [itemBytes kPageLost 0 0 (i % 131072) 0 0 0 0]) s
    let hit (x : PrefixSlot) : PrefixSlot := if x.pages.any (fun ep => ep.2 = p + 1) then { x with loaded := false } else x
    let s := { s with prefixes := tabMapAll {} (fun _ x => hit x) s.prefixes }
    let s := if isHost p then s else s.setPdesc p { d with lost := true }
    let s := { s with kv := { s.kv with lost := true, lostCnt := satAdd s.kv.lostCnt 1 } }
    s.log .degraded { typ := tPage, detail := p }

/-- Every head or member message about a reservation: rows and prefix slot of one handle. -/
def reserveItem (handle rows : Nat) (slot : Option Nat) : List Byte :=
  itemBytes kReserve 0 0 handle rows (slot.getD 0xFFFF) 0 0

/-- RESERVE at a member (R239, R270): the rows are reserved, or the reservation is refused. `c` is the context of the head's
entry (log entry 35), `src` the handle of a FORK's source (log entry 36): the new entry then shares the source's pages (R259). A sequence
that the device has already is in WAITING or ENDED, so that none of its rows are reserved any more (R254). -/
def memberReserve (s : State) (c : Nat) (src : Option W32) : State :=
  s.withItem kReserve (fun s it p =>
    let h := leAt it 4 4
    let rows := leAt it 8 4
    let slot := leAt it 12 4
    let i := shadowKey c h
    let head := (s.rankOf p.src).getD 0
    let new := !(s.tbl i).owned
    let s := if new then s else s.dropRows i
    let from_ := (src.filter (fun _ => new)).map (fun w => shadowKey c w.toNat)
    let okSlot := decide (slot = 0xFFFF) || (s.pfx c slot).loaded
    let len := if new && decide (slot ≠ 0xFFFF) then (s.pfx c slot).length else (s.tbl i).shadow
    let okFork := match from_ with
      | some j => (s.tbl j).owned && s.fits c (s.forkNeed j) true && decide (s.dirSize c + (s.tbl j).ptrs.length ≤ s.ptbFree)
      | none => s.cmdFits i c len rows new
    if okSlot && okFork then
      let s := match from_ with
       | some j => ((s.forkTables j i c).setXr i (s.xr j)).modTbl i (fun t => { t with shadow := (s.tbl j).shadow })
       | none =>
        if new then
          let s := s.takeDir i c
          if slot = 0xFFFF then s
          else
            let s := s.placePrefix i c slot
            let s := s.setXr i { s.xr i with prefixSlot := some slot, p0 := (s.pfx c slot).length }
            s.modTbl i (fun t => { t with shadow := (s.pfx c slot).length })
        else s
      let s := s.modTbl i (fun t => { t with headRank := head, resRows := t.resRows + BitVec.ofNat 16 rows })
      s.sendItems head (pktStep p) [itemBytes kReserveAck 0 0 h 0 0 0 0]
    else s.sendItems head (pktStep p) [itemBytes kRefuse 0 0 h 0 0 0 0])

/-- HEAD_RELEASE at a member: the pages of a released head entry are freed, or only the rows reserved for an APPEND that another member
refused (R239, R270); the item does not say which, so `whole` does (log entry 36). -/
def memberRelease (s : State) (c : Nat) (whole : Bool) : State :=
  s.withItem kRelease (fun s it _ =>
    let i := shadowKey c (leAt it 4 4)
    if whole then (s.freeTables i).setXr i {} else s.dropRows i)

/-- Put ranges of a RANGES item into the members of a batch that carry its sequence. -/
def putRanges (i step first : Nat) (it : List Byte) (b : Batch) : Batch :=
  if b.remote && decide (b.step = step) then
    { b with members := b.members.map (fun m =>
        if m.idx = i then
          { m with ranges := (upTo 8).map (fun k =>
              if first ≤ k ∧ k < first + 3 then BitVec.ofNat 64 (leAt it (8 + 8 * (k - first)) 8) else m.ranges.getD k 0) }
        else m) }
  else b

/-- RANGES at a member: a sequence's exclusion ranges of a step (R279, R370). -/
def memberRanges (s : State) (c : Nat) : State :=
  s.withItem kRanges (fun s it p =>
    let put := putRanges (shadowKey c (leAt it 4 4)) (pktStep p) (leAt it 1 1) it
    { s with remoteWait := s.remoteWait.map put, batches := s.batches.map put })

/-- BATCH at a member: one item of a step's batch list (R238). -/
def memberBatch (s : State) (c : Nat) : State :=
  s.withItem kBatch (fun s it p =>
    let n := leAt it 2 2
    let i := shadowKey c (leAt it 4 4)
    let m : Member :=
      { idx := i
        base := leAt it 8 4
        toks := List.replicate n 0
        prefill := decide (1 < n)
        samples := decide (leAt it 20 4 % 2 = 1)
        ranges := List.replicate 8 0
        p0 := leAt it 16 4 }
    let step := pktStep p
    if s.remoteWait.any (fun b => b.step = step && b.ctx = c) then
      { s with remoteWait := s.remoteWait.map (fun b =>
          if b.step = step ∧ b.ctx = c then { b with members := b.members ++ [m], taus := b.taus ++ [leAt it 12 4] } else b) }
    else
      { s with remoteWait := s.remoteWait ++
          [{ step := step, ctx := c, group := 0, members := [m], taus := [leAt it 12 4], remote := true }] })

/-- Put input tokens into a batch's members by τ. -/
def putToks (b : Batch) (first : Nat) (ids : List Nat) : Batch :=
  { b with members := b.members.mapIdx (fun k m =>
      { m with toks := m.toks.mapIdx (fun j t =>
          let tau := b.taus.getD k 0 + j
          if first ≤ tau ∧ tau < first + ids.length then ids.getD (tau - first) 0 else t) }) }

/-- INPUT at a member: input token IDs of a step (R370); a member whose program holds no GATHER discards them. -/
def memberInput (s : State) (c : Nat) : State :=
  match s.takePkt pkInput with
  | none => s
  | some (p, s') =>
    if !s.freshPkt p then s'
    else if !pchkOk p then s'.badPayload 0
    else if !(((s.ctx c).sect.map (·.prog)).getD []).any (fun op => op % 256 = 0x0C) then s'
    else
      let ids := (upTo (leAt p.desc 14 2)).map (fun k => bitsOf (leAt p.payload (4 * k) 4) 0 20)
      let put (b : Batch) : Batch := if b.step = pktStep p ∧ b.ctx = c ∧ b.remote then putToks b (leAt p.desc 16 2) ids else b
      { s' with remoteWait := s'.remoteWait.map put, batches := s'.batches.map put }

/-- COMMIT at a member (R239): the shadow LENGTH advances, or the step rolls back; the reserved rows of a sequence that ends CANCELLED or
FAULTED return (R254, R270). -/
def memberCommit (s : State) (c : Nat) : State :=
  s.withItem kCommit (fun s it p =>
    let i := shadowKey c (leAt it 4 4)
    let step := pktStep p
    let len := (s.tbl i).shadow
    let s :=
      if leAt it 1 1 = 0 then s.modTbl i (fun t => { t with shadow := leAt it 8 4 })
      else
        let s := s.returnRows i c len (leAt it 2 2)
        if leAt it 1 1 = 1 ∨ leAt it 1 1 = 2 then s.dropRows i else s
    let drop (b : Batch) : Batch :=
      if b.step = step ∧ b.ctx = c ∧ b.remote then
        let left := b.members.filter (fun m => m.idx ≠ i)
        { b with members := if left.isEmpty then b.members else left, swept := b.swept || left.isEmpty }
      else b
    { s with batches := s.batches.map drop })

end State

end Sys2Proof.Machine
end

