-- ==== Sys2Proof/Machine/Keccak.lean ====
section
/-! DEFINITION. Keccak-f[1600] and SHAKE256 (FIPS 202), which the digests of images, chains and plans use. -/

namespace Sys2Proof.Machine

/-- θ: every lane takes the parity of the column to its left and, turned by one, of the column to its right. -/
def theta (a : List W64) : List W64 :=
  let parity := fun x => ((upTo 5).map (fun y => a.getD (5 * y + x % 5) 0)).foldl (· ^^^ ·) 0
  a.mapIdx (fun i v => v ^^^ parity (i + 4) ^^^ (parity (i + 1)).rotateLeft 1)

/-- Where π puts a lane (lane 5y + x goes to lane 5(2x + 3y) + y). From lane 1 this walks through all the other lanes but
lane 0. -/
def piOf (i : Nat) : Nat := 5 * ((2 * (i % 5) + 3 * (i / 5)) % 5) + i / 5

/-- ρ and π together, along that walk: the lane met at step t is turned by (t + 1)(t + 2)/2 and put in its new place. -/
def rhoPi (a : List W64) : Nat → Nat → List W64 → List W64
  | 0, _, b => b
  | n + 1, i, b => rhoPi a n (piOf i) (b.set (piOf i) ((a.getD i 0).rotateLeft ((24 - n) * (25 - n) / 2)))

/-- χ: every lane takes its two neighbours to the right in its row. -/
def chi (b : List W64) : List W64 :=
  let right := fun i d => b.getD (i / 5 * 5 + (i + d) % 5) 0
  b.mapIdx (fun i v => v ^^^ (right i 2 &&& ~~~(right i 1)))

/-- The shift register behind ι: eight bits, with the feedback of x⁸ + x⁶ + x⁵ + x⁴ + 1. -/
def iotaStep (r : Nat) : Nat := if 128 ≤ r then (2 * r - 256) ^^^ 0x71 else 2 * r

/-- ι's constant for one round: output j of the register stands at bit 2ʲ − 1. Also the register after its `n` outputs. -/
def iotaBits : Nat → Nat → Nat → Nat → Nat × Nat
  | 0, _, r, c => (c, r)
  | n + 1, j, r, c => iotaBits n (j + 1) (iotaStep r) (c + (r % 2) <<< (2 ^ j - 1))

/-- `n` rounds, from a state and ι's register. -/
def keccakRounds : Nat → Nat → List W64 → List W64
  | 0, _, a => a
  | n + 1, r, a =>
    let k := iotaBits 7 0 r 0
    let b := chi (rhoPi (theta a) 24 1 (theta a))
    keccakRounds n k.2 (b.modifyHead (· ^^^ BitVec.ofNat 64 k.1))

/-- Keccak-f[1600] on 25 lanes, lane 5y + x. -/
def keccakF (a : List W64) : List W64 := keccakRounds 24 1 (a ++ List.replicate (25 - a.length) 0)

/-- Padding of a sponge of `rate` bytes with a domain byte. -/
def spongePad (rate dom : Nat) (l : List Byte) : List Byte :=
  let n := rate - l.length % rate
  if n = 1 then l ++ [BitVec.ofNat 8 (dom ||| 0x80)]
  else l ++ [BitVec.ofNat 8 dom] ++ List.replicate (n - 2) 0 ++ [0x80]

/-- Absorb padded blocks. -/
def spongeAbsorb (rate : Nat) : Nat → List Byte → List W64 → List W64
  | 0, _, a => a
  | n + 1, l, a =>
    let blk := l.take rate
    let a' := a.mapIdx (fun i v => if 8 * i < rate then v ^^^ BitVec.ofNat 64 (leAt blk (8 * i) 8) else v)
    spongeAbsorb rate n (l.drop rate) (keccakF a')

/-- Squeeze `n` blocks. -/
def spongeSqueeze (rate : Nat) : Nat → List W64 → List Byte
  | 0, _ => []
  | n + 1, a => (a.flatMap (fun w => leBytes 8 w.toNat)).take rate ++ spongeSqueeze rate n (keccakF a)

/-- SHAKE256 with `n` bytes of output. -/
def shake256 (l : List Byte) (n : Nat) : List Byte :=
  let p := spongePad 136 0x1F l
  (spongeSqueeze 136 ((n + 135) / 136) (spongeAbsorb 136 (p.length / 136) p (List.replicate 25 0))).take n

/-- SHA3-256. -/
def sha3 (l : List Byte) : List Byte :=
  let p := spongePad 136 0x06 l
  (spongeSqueeze 136 1 (spongeAbsorb 136 (p.length / 136) p (List.replicate 25 0))).take 32

/-- The SHAKE256-256 digest. -/
def shakeDigest (l : List Byte) : List Byte := shake256 l 32

end Sys2Proof.Machine
end

