-- ==== Sys2Proof/Machine/Ring.lean ====
section
/-! DEFINITION. The recorder (R345 to R349): its ring in HBM, its records, arming and disarming. -/

namespace Sys2Proof.Machine

/-- A record without its SEQNO: TYPE, FLAGS, HANDLE, LENGTH, and the bytes from 16 on (Tables 15.1 to 15.4). -/
structure RecBody where
  typ : Nat
  flags : Nat := 0
  handle : Nat
  length : Nat
  body : List Byte
  deriving DecidableEq, Repr

/-- Length of a record in units of 64 B. -/
def recUnits (r : RecBody) : Nat := ceilDiv (16 + r.body.length) 64

/-- The bytes of a record. -/
def recImage (seqno : Nat) (r : RecBody) : List Byte :=
  leBytes 4 seqno ++ leBytes 1 r.typ ++ leBytes 1 r.flags ++ leBytes 2 (recUnits r) ++ leBytes 4 r.handle ++ leBytes 4 r.length
    ++ slice r.body 0 (64 * recUnits r - 16)

/-- A PAD record of n units (R347). -/
def padBody (n : Nat) : RecBody := { typ := 5, handle := 0, length := 0, body := List.replicate (64 * n - 16) 0 }

/-- Records laid out from a ring position: a record never wraps, and the units left before the end become a PAD record. -/
def layRecords (total : Nat) : Nat → List RecBody → List (Nat × RecBody)
  | _, [] => []
  | pos, r :: t =>
    if pos + recUnits r ≤ total then (pos, r) :: layRecords total ((pos + recUnits r) % total) t
    else (pos, padBody (total - pos)) :: (0, r) :: layRecords total (recUnits r % total) t

namespace State

/-- Ring size in units: INT_REC_SIZE MiB, other values acting as the nearer limit (log entry 59). -/
def ringUnits (s : State) : Nat := (max 1 (min 256 s.recorder.size.toNat)) * 16384

/-- Units held between HEAD and TAIL. -/
def ringUsed (s : State) : Nat := (s.recorder.tail.toNat + s.ringUnits - s.recorder.head.toNat % s.ringUnits) % s.ringUnits

/-- Stack 1, 3,840 MiB (R347). -/
def ringBase : Nat := 3840 * 1048576

/-- Sequence i leaves the armed ones. -/
def dropArm (s : State) (i : Nat) : State :=
  { s with recorder := { s.recorder with armed := s.recorder.armed.filter (fun a => a.1 ≠ i) } }

/-- R347: records of sequence i at one point, written whole or not at all; without room the sequence is disarmed. -/
def putRecords (s : State) (i : Nat) (rs : List RecBody) : State :=
  let l := layRecords s.ringUnits s.recorder.tail.toNat rs
  let n := (l.map (fun x => recUnits x.2)).foldl (· + ·) 0
  if s.ringUsed + n ≤ s.ringUnits - 1 then
    let s := (l.mapIdx (fun k x => (k, x))).foldl (fun s kx =>
      s.hbmWrite 1 (ringBase + 64 * kx.2.1) (recImage (s.recorder.seqno.toNat + kx.1) kx.2.2)) s
    { s with recorder := { s.recorder with
        tail := BitVec.ofNat 22 ((s.recorder.tail.toNat + n) % s.ringUnits)
        seqno := s.recorder.seqno + BitVec.ofNat 32 l.length } }
  else
    let s := s.dropArm i
    { s with recorder := { s.recorder with ovf := true, dropped := satAdd s.recorder.dropped 1 } }

/-- The section digest: the message covered by the context's publisher seal (R143). -/
def sectDigest (s : State) (c : Nat) : List Byte := shakeDigest (((s.ctx c).sect.map (·.raw)).getD [])

/-- The START record of sequence i (Table 15.3); the sequence is armed. -/
def recordStart (s : State) (i : Nat) : State :=
  let e := s.entry i
  let c := e.ctx.toNat
  let s := s.dropArm i
  let s := { s with recorder := { s.recorder with armed := s.recorder.armed ++ [(i, List.replicate 8 0)] } }
  s.putRecords i [{
    typ := 1
    handle := s.handleOf i
    length := e.length.toNat
    body := leBytes 1 c ++ [0] ++ leBytes 2 ((s.xr i).prefixSlot.getD 0xFFFF) ++ leBytes 4 s.sail.gen.toNat
      ++ leBytes 4 (s.ctx c).gen.toNat ++ List.replicate 36 0 ++ slice (s.sectDigest c) 0 32 ++ slice (s.ctx c).wdigest 0 32
      ++ slice (s.smpOf i).par 0 216 ++ List.replicate 40 0 }]

/-- CTX_AUTO arms a SUBMIT of the context (R345). -/
def autoArm (s : State) (c : Nat) : Bool := s.recorder.en && s.recorder.ctxAuto.getLsbD c

/-- A STEP record (Table 15.4). -/
def stepBody (s : State) (r : RecDue) : RecBody :=
  let ok := r.sampled && decide (r.outcome = 0)
  { typ := 2
    flags := bit_ r.sampled 0 + bit_ r.restart 1
    handle := s.handleOf r.idx
    length := r.length
    body := leBytes 6 r.step ++ leBytes 2 r.tau ++ leBytes 2 r.batchToks ++ leBytes 2 r.batchSeqs ++ leBytes 2 r.toks.length
      ++ leBytes 1 r.outcome ++ [0] ++ leBytes 4 (if ok then r.token else 0) ++ leBytes 2 (if ok then r.lp else 0) ++ leBytes 2 r.tauL
      ++ (upTo 4).flatMap (fun m => leBytes 4 (r.trimGen.getD m 0).toNat) ++ List.replicate 8 0
      ++ slice (r.toks.flatMap (leBytes 4)) 0 (64 * ceilDiv r.toks.length 16) }

/-- The records of one sequence at one commit point: RANGES before a STEP whose ranges differ from those recorded last. -/
def writeDue (s : State) (r : RecDue) : State :=
  match s.recorder.armed.find? (fun a => a.1 = r.idx) with
  | none => s
  | some a =>
    let rs := (upTo 8).map (fun k => r.ranges.getD k 0)
    let rng : RecBody :=
      { typ := 3
        handle := s.handleOf r.idx
        length := (s.entry r.idx).length.toNat
        body := List.replicate 48 0 ++ rs.flatMap (fun w => leBytes 8 w.toNat) }
    let s := { s with recorder := { s.recorder with armed := s.recorder.armed.map (fun (x : Nat × List W64) => if x.1 = r.idx then (x.1, rs) else x) } }
    s.putRecords r.idx ((if rs = a.2 then [] else [rng]) ++ [s.stepBody r])

/-- RECORDER_WRITE (R349): after the sweep, the armed sequences' records are written in batch-list order. -/
def recorderWrite (s : State) : State :=
  let due := s.recorder.due
  due.foldl writeDue { s with recorder := { s.recorder with due := [] } }

/-- Sequence i is disarmed with an END record of a REASON (R346); records due come first. -/
def disarm (s : State) (i reason : Nat) : State :=
  let s := s.recorderWrite
  if s.recorder.armed.any (fun a => a.1 = i) then
    (s.putRecords i [{
      typ := 4
      handle := s.handleOf i
      length := (s.entry i).length.toNat
      body := leBytes 1 reason ++ List.replicate 47 0 }]).dropArm i
  else s

/-- An arm completes with a status (Table 15.9). -/
def armDone (s : State) (st : Byte) : State :=
  { s with recorder := { s.recorder with armStatus := st, armRej := s.recorder.armRej || decide (st ≠ sOK) } }

/-- INT_REC_ARM (R345). -/
def recArm (s : State) (h : W32) : State :=
  if !s.recorder.en then s.armDone sRecOff
  else
    match s.byHandle h with
    | none => s.armDone sBadHandle
    | some i =>
      let e := s.entry i
      if (e.st = .admitted ∨ e.st = .prefill) ∧ !e.inFlight ∧ e.commits = 0 ∧ e.length.toNat = (s.xr i).p0 then
        (s.recordStart i).armDone sOK
      else s.armDone sRecLate

/-- INT_REC_DISARM (R346). -/
def recDisarm (s : State) (h : W32) : State :=
  match s.byHandle h with
  | none => s
  | some i => s.disarm i 2

/-- INT_REC_CTL_WRITE: setting EN resets the ring pointers; clearing it disarms every sequence (R346, R347). -/
def recCtlWrite (s : State) (v : W32) : State :=
  let en := v.getLsbD 31
  let r := s.recorder
  let r := { r with en := en, ctxAuto := fld v 0 16 }
  let r := if en && !s.recorder.en then { r with tail := 0, head := 0 } else r
  { s with recorder := if en then r else { r with armed := [], due := [] } }

/-- INT_REC_HEAD_WRITE: HEAD advances over records read; a write that would pass TAIL is ignored (R347). -/
def recHeadWrite (s : State) (v : W32) : State :=
  let h := (fld v 0 22).toNat
  let n := s.ringUnits
  if h < n ∧ (h + n - s.recorder.head.toNat % n) % n ≤ s.ringUsed then
    { s with recorder := { s.recorder with head := fld v 0 22 } }
  else s

end State

end Sys2Proof.Machine
end

