-- ==== Sys2Proof/Machine/Seq.lean ====
section
/-! DEFINITION. The sequence engine's commands (R212 to R220, R230 to R237, R264 to R267): rings, admission, the effects of
Table 10.6, moves, deadlines. -/

namespace Sys2Proof.Machine

/-- The fields of a command descriptor (Table 10.4). -/
def descOf (b : List Byte) : Desc :=
  { opcode := leAt b 0 1
    flags := leAt b 1 1
    ctx := leAt b 2 1
    priority := bitsOf (leAt b 3 1) 0 3
    handle := BitVec.ofNat 32 (leAt b 4 4)
    tag := BitVec.ofNat 32 (leAt b 8 4)
    count := leAt b 12 4
    tokens := BitVec.ofNat 64 (leAt b 16 8)
    deadline := leAt b 24 4
    hint := leAt b 28 4
    pfx := leAt b 32 2
    reel := BitVec.ofNat 64 (leAt b 40 8)
    smp := BitVec.ofNat 64 (leAt b 48 8) }

/-- An address on a 64 B boundary. -/
def al64 (a : W64) : Bool := a.toNat % 64 = 0

/-- R306: a reel descriptor is accepted. -/
def reelOk (b : List Byte) : Bool :=
  let n := leAt b 8 4
  decide (leAt b 0 8 % 64 = 0) && decide (64 ≤ n) && decide (n ≤ 65536) && decide (2 ^ n.log2 = n) && decide (leAt b 12 1 ≤ 2)
    && zeroAt b 13 3 && zeroAt b 20 4 && zeroAt b 28 36 && decide (leAt b 16 4 = leAt b 24 4)

/-- The reel that a descriptor describes: the first record takes SEQNO equal to TAIL as read (R306). -/
def reelFrom (b : List Byte) (now : Nat) : Reel :=
  { base := BitVec.ofNat 64 (leAt b 0 8)
    size := leAt b 8 4
    notify := leAt b 12 1
    head := BitVec.ofNat 32 (leAt b 16 4)
    seqno := BitVec.ofNat 32 (leAt b 24 4)
    readAt := now }

namespace State

/-! Rings (R212, R242, R467). -/

/-- The engine may fetch: enabled, the completion ring not full, no completion held, no failed fetch waiting. -/
def mayFetch (s : State) : Bool :=
  s.seq.enable && !s.cplFull && s.seq.held.isEmpty && !s.seq.fetchStop && !s.devFatal && !s.bmStop

/-- One command slot is fetched; `none` when the read and its retry failed. A reserved opcode completes at once. The number counts the
completion writes that the host still takes. -/
def fetchOne (r : State × Nat) (b : Option (List Byte)) : State × Nat :=
  let s := r.1
  let n := s.seq.cqSize.toNat
  if !s.mayFetch ∨ s.seq.cqHead.toNat % n = s.seq.cqTail.toNat % n then r
  else
    match b with
    | none => ({ s with seq := { s.seq with fetchErr := true, fetchStop := true } }, r.2)
    | some b =>
      let d := descOf b
      let s := { s with seq := { s.seq with cqHead := BitVec.ofNat 16 ((s.seq.cqHead.toNat + 1) % n) } }
      if d.opcode = 0 ∨ 9 < d.opcode then (s.cmdDone d d.handle none sBadCommand 0 (decide (0 < r.2)), r.2 - 1)
      else ({ s with seq := { s.seq with fetched := s.seq.fetched ++ [d] } }, r.2)

/-- Held completions are tried again, and the engine fetches on. `written` is how many completion writes the host takes, those of the
held ones first (R467). -/
def goOn (s : State) (slots : List (Option (List Byte))) (written : Nat) : State :=
  let n := s.seq.held.length
  (slots.foldl fetchOne (s.cplRetry written n, written - n)).1

/-- SEQ_CQ_TAIL_WRITE: the tail is set, held completions are tried again, commands are fetched in ring order. -/
def cqTailWrite (s : State) (v : W16) (slots : List (Option (List Byte))) (written : Nat) : State :=
  ({ s with seq := { s.seq with cqTail := v, fetchStop := false } }).goOn slots written

/-- SEQ_CPL_HEAD_WRITE: completion slots are freed; held completions are tried again; fetching goes on. -/
def cplHeadWrite (s : State) (v : W16) (slots : List (Option (List Byte))) (written : Nat) : State :=
  ({ s with seq := { s.seq with cplHead := v } }).goOn slots written

/-- COMPLETION_RETRY (R467): 100 µs after a failed write, held completions are tried again; fetching goes on once none waits. -/
def completionRetry (s : State) (slots : List (Option (List Byte))) (written : Nat) : State :=
  if s.seq.retryAt + 10000 ≤ s.now then s.goOn slots written else s

/-- R212, R242: SEQ_CTL as written; ENABLE is refused for a bad ring size. -/
def ringSizeOk (n : Nat) : Bool := decide (64 ≤ n) && decide (n ≤ 65536) && decide (2 ^ n.log2 = n)

def seqCtlSet (s : State) (v : W32) : State :=
  let en := v.getLsbD 31
  let bad := en && !s.seq.enable && !(ringSizeOk s.seq.cqSize.toNat && ringSizeOk s.seq.cplSize.toNat)
  let on := if bad then false else en
  { s with seq := { s.seq with
      enable := on
      cqErr := s.seq.cqErr || bad
      ageLimit := fld v 16 10
      chunkMax := fld v 0 14
      linkStop := s.seq.linkStop && !on } }

/-- SEQ_CTL_WRITE: held completions are written to the ring in force, and fetching begins or goes on, while ENABLE is set. -/
def seqCtlWrite (s : State) (v : W32) (slots : List (Option (List Byte))) (written : Nat) : State :=
  let s := s.seqCtlSet v
  if s.seq.enable then s.goOn slots written else s

/-- AGE_LIMIT and CHUNK_MAX as they act (Table 10.15). -/
def ageLimit (s : State) : Nat := max 1 s.seq.ageLimit.toNat
def chunkMax (s : State) : Nat := max 8 (min 8192 s.seq.chunkMax.toNat)

/-- SEQ_HINT_WRITE (R240): a duration in µs from now; 0 clears. -/
def hintWrite (s : State) (v : W64) : State :=
  { s with seq := { s.seq with hint := if v = 0 then 0 else s.time + v * 100 } }

/-- The decided command leaves the list of fetched ones. -/
def unfetch (s : State) (d : Desc) : State := { s with seq := { s.seq with fetched := s.seq.fetched.erase d } }

/-- A deadline of a duration in µs from now; 0 for none (R231). -/
def fromNow (s : State) (us : Nat) : W64 := if us = 0 then 0 else s.time + BitVec.ofNat 64 (us * 100)

/-! Contexts. -/

/-- A running LOAD names the context (Table 7.10). -/
def loadNames (s : State) (c : Nat) : Bool :=
  match s.sail.job with
  | some j => j.ctxs.contains c
  | none => false

/-- R237: the context takes SUBMIT, APPEND, RESUME and FORK. -/
def ctxTakes (s : State) (c : Nat) : Bool := decide ((s.ctx c).st = .running) && !s.loadNames c

/-- A command that waits for the members is to fill a FREE entry (R239). -/
def fills (a : Await) : Bool := a.cmd.opcode = 1 || a.cmd.opcode = 5

/-- Non-FREE entries of a context, with those that waiting admissions have taken (R217). -/
def ctxEntries (s : State) (c : Nat) : Nat :=
  (tabKeys s.entries (fun _ e => e.st ≠ .free && decide (e.ctx.toNat = c))).length
    + (s.seq.awaits.filter (fun a => fills a && a.ctx = c)).length

/-- The lowest-numbered FREE entry that no waiting admission holds (R217). -/
def freeEntry (s : State) : Option Nat :=
  (upTo (s.entries.length + s.seq.awaits.length + 1)).find? (fun i =>
    decide ((s.entry i).st = .free) && !s.seq.awaits.any (fun a => a.idx = i) && decide (i < 131072))

def ctxFull (s : State) (c : Nat) : Bool :=
  let n := ((s.ctx c).sect.map (·.panel.maxSeq)).getD 0
  n ≠ 0 && decide (n ≤ s.ctxEntries c)

/-! Admission (R217, R218, R236). -/

/-- INPUT_PTR names a block whose address the spec leaves open: a free value. -/
def openAddr (s : State) : W64 × State :=
  let (n, s) := s.free
  (BitVec.ofNat 64 n, s)

/-- A SUBMIT is admitted into entry i. -/
def takeIn (s : State) (d : Desc) (i : Nat) (reel smp : List Byte) : State :=
  let len := if d.pfx = 0xFFFF then 0 else (s.pfx d.ctx d.pfx).length
  let (ip, s) := s.openAddr
  let s := s.takeDir i d.ctx
  let e := s.entry i
  let s := s.setEntry i { gen := e.gen, st := .admitted, ctx := BitVec.ofNat 4 d.ctx, priority := BitVec.ofNat 3 d.priority,
                          length := BitVec.ofNat 21 len, deadline := s.fromNow d.deadline, pageTable := s.dirAddr i, inputPtr := ip,
                          reel := d.reel, smp := BitVec.ofNat 32 i }
  let s := s.setInput i { copying := d.count }
  let s := s.setReel i (reelFrom reel s.now)
  let s := s.setSmp i { par := slice smp 0 216 }
  let s := s.setXr i { p0 := len, prefixSlot := if d.pfx = 0xFFFF then none else some d.pfx }
  let s := if d.pfx = 0xFFFF then s else s.placePrefix i d.ctx d.pfx
  if s.autoArm d.ctx then s.recordStart i else s

/-- R252: the rows that a SUBMIT reserves; its c term looks at the prefix's last page, which is read-only. -/
def submitRows (s : State) (d : Desc) : Nat :=
  let len := if d.pfx = 0xFFFF then 0 else (s.pfx d.ctx d.pfx).length
  pagesFor (len + d.count) - pagesFor len + (if len % 64 = 0 then 0 else 1) + s.decodeReserve d.ctx

/-- Checks 1 to 12 of Table 10.8, the members' part of check 12 apart. -/
def submitCheck (s : State) (d : Desc) (reel smp : Option (List Byte)) : Option Byte :=
  let c := d.ctx
  let len := if d.pfx = 0xFFFF then 0 else (s.pfx c d.pfx).length
  if !(al64 d.tokens && al64 d.reel && al64 d.smp) || decide (15 < c) then some sBadConfig
  else if (s.ctx c).st = .absent then some sCtxAbsent
  else if !s.ctxTakes c then some sCtxNotRunning
  else if !s.isHead c then some sNotHead
  else if d.count = 0 then some sEmptyPrompt
  else if d.pfx ≠ 0xFFFF ∧ !(decide (d.pfx < ((s.ctx c).sect.map (·.panel.prefixSlots)).getD 0) && (s.pfx c d.pfx).loaded) then
    some sBadPrefix
  else if 1048576 < len + d.count then some sTooLong
  else if !(reel.map reelOk).getD false then some sBadReel
  else if !(smp.map (fun r => smpOk r (s.vocabOf c))).getD false then some sBadSampler
  else if s.freeEntry.isNone then some sTableFull
  else if s.ctxFull c then some sCtxFull
  else if s.inputFree < (d.count + 1023) / 1024 then some sInputFull
  else if !(s.fits c (s.rowNeed c (s.submitRows d)) true &&
      decide (s.dirSize c + (s.newPtrs {} c 0 (rowEnd len (s.submitRows d) (if len % 64 = 0 then 0 else 1))).length ≤ s.ptbFree)) then some sNoPages
  else none

/-- A command waits for the members' reservations (R239). -/
def await (s : State) (a : Await) : State := { s with seq := { s.seq with awaits := s.seq.awaits ++ [a] } }

/-- SUBMIT (R217). `reel` and `smp` are what the reads of host memory gave; `ok` says whether the completion's write
succeeds. With members the admission waits for their reservations (R239). -/
def submit (s : State) (d : Desc) (reel smp : Option (List Byte)) (ok : Bool) : State :=
  let s := s.unfetch d
  match s.submitCheck d reel smp, s.freeEntry with
  | some st, _ => s.cmdDone d 0 none st 0 ok
  | none, none => s.cmdDone d 0 none sTableFull 0 ok
  | none, some i =>
    let rows := s.submitRows d
    if s.members.isEmpty then
      let s := (s.takeIn d i (reel.getD []) (smp.getD [])).addRows i rows
      s.cmdDone d (BitVec.ofNat 32 (s.handleOf i)) (some i) sOK 0 ok
    else
      let slot := if d.pfx = 0xFFFF then none else some d.pfx
      let len := if d.pfx = 0xFFFF then 0 else (s.pfx d.ctx d.pfx).length
      let blocks := s.dirSize d.ctx + (s.newPtrs {} d.ctx 0 (pagesFor len)).length
      let s := s.sendMembers s.seqStep [reserveItem (s.handleOf i) rows slot]
      s.await { idx := i, ctx := d.ctx, cmd := d, rows := rows, blocks := blocks, waiting := s.members, acked := [],
                reel := reel.getD [], smp := smp.getD [] }

/-- APPEND takes effect (R220). -/
def appendNow (s : State) (d : Desc) (i : Nat) : State :=
  let e := s.entry i
  let n := e.nextValid.toNat + d.count
  let s := s.setInput i { toks := if e.nextValid then [e.next.toNat] else [], nextFirst := e.nextValid, copying := d.count }
  let s := s.setSmp i { s.smpOf i with new := 0, matches_ := [0, 0, 0, 0], due := none }
  s.setEntry i { e with
    st := .admitted
    input := BitVec.ofNat 21 n
    nextValid := false
    deadline := s.fromNow d.deadline
    hint := 0 }

/-- FORK takes effect: the new entry (R236, R259). -/
def forkNow (s : State) (d : Desc) (src i : Nat) (reel smp : List Byte) : State :=
  let e := s.entry src
  let s := (s.setTbl i {}).forkTables src i e.ctx.toNat
  let s := s.setEntry i { gen := (s.entry i).gen, st := e.st, ctx := e.ctx, priority := BitVec.ofNat 3 d.priority,
                          length := e.length, nextValid := e.nextValid, next := e.next, pageTable := s.dirAddr i, reel := d.reel,
                          smp := BitVec.ofNat 32 i }
  let s := s.setReel i (reelFrom reel s.now)
  let s := s.setSmp i { s.smpOf src with par := slice smp 0 216 }
  s.setXr i (s.xr src)

/-- The refusals common to commands on an entry, in the order of R215; `run` for APPEND, RESUME and FORK. -/
def entryRefusal (s : State) (d : Desc) (run : Bool) : Option Byte × Nat :=
  match s.byHandle d.handle with
  | none => (some sBadHandle, 0)
  | some i =>
    let e := s.entry i
    if e.moving then (some sSeqBusy, i)
    else if run && !s.ctxTakes e.ctx.toNat then (some sCtxNotRunning, i)
    else if run && decide (e.st = .spilled) then (some sNotResident, i)
    else (none, i)

/-- Complete a command on an entry. -/
def onEntry (s : State) (d : Desc) (i : Nat) (st : Byte) (ok : Bool) : State := s.cmdDone d d.handle (some i) st 0 ok

/-- A refusal: byte 10 shows the entry's state, or 0 when the handle names none. -/
def refuse (s : State) (d : Desc) (i : Nat) (st : Byte) (ok : Bool) : State :=
  s.cmdDone d d.handle (if st = sBadHandle ∨ st = sBadConfig then none else some i) st 0 ok

/-- The handles a command's refusal of BAD_CONFIG precedes (R215). -/
def badAlign (d : Desc) : Bool :=
  (d.opcode = 2 && !al64 d.tokens) || (d.opcode = 5 && !(al64 d.reel && al64 d.smp))

/-- APPEND (R220). -/
def append (s : State) (d : Desc) (ok : Bool) : State :=
  let s := s.unfetch d
  if badAlign d then s.refuse d 0 sBadConfig ok
  else
    match s.entryRefusal d true with
    | (some st, i) => s.refuse d i st ok
    | (none, i) =>
      let e := s.entry i
      let c := e.ctx.toNat
      let n := e.nextValid.toNat + d.count
      let rows := s.cmdRows i c e.length.toNat n
      if e.st ≠ .waiting ∧ e.st ≠ .ended then s.refuse d i sBadState ok
      else if d.count = 0 then s.refuse d i sEmptyPrompt ok
      else if 1048576 < e.length.toNat + n then s.refuse d i sTooLong ok
      else if s.inputFree < (n + 1023) / 1024 then s.refuse d i sInputFull ok
      else if !s.cmdFits i c e.length.toNat rows false then s.refuse d i sNoPages ok
      else if s.members.isEmpty then ((s.addRows i rows).appendNow d i).onEntry d i sOK ok
      else
        let s := (s.addRows i rows).sendMembers s.seqStep [reserveItem (s.handleOf i) rows none]
        s.await { idx := i, ctx := c, cmd := d, waiting := s.members, acked := [], reel := [], smp := [] }

/-- RESUME (Table 10.6). -/
def resume (s : State) (d : Desc) (ok : Bool) : State :=
  let s := s.unfetch d
  match s.entryRefusal d true with
  | (some st, i) => s.refuse d i st ok
  | (none, i) =>
    let e := s.entry i
    if e.st ≠ .expired then s.refuse d i sBadState ok
    else
      let s := (s.setEntry i { e with st := if e.expFrom then .decode else .prefill, deadline := s.fromNow d.deadline }).park i
      s.onEntry d i sOK ok

/-- CANCEL of entry i (R230, R234): the state after it, and its status, none while it waits for the commit point. -/
def cancelOf (s : State) (i : Nat) (d : Desc) : State × Option Byte :=
  let e := s.entry i
  let wait : State := s.setEntry i { e with cancelPend := true, cancels := e.cancels ++ [d] }
  match e.st with
  | .admitted | .restarting => (wait, none)
  | .prefill | .decode => if e.inFlight then (wait, none) else (s.cancelNow i, some sOK)
  | .parked => (s.cancelNow i, some sOK)
  | .waiting =>
    if e.moving then
      if e.prior = .cancelled then (s, some sAlreadyEnded)
      else ((s.setEntry i { e with prior := .cancelled }).record i rtCancelled 0 s.seqStep 0, some sOK)
    else (s.cancelNow i, some sOK)
  | .spilled =>
    if e.prior = .waiting then
      (((s.dropRows i).setEntry i { e with prior := .cancelled }).record i rtCancelled 0 s.seqStep 0, some sOK)
    else (s, some sAlreadyEnded)
  | _ => (s, some sAlreadyEnded)

/-- CANCEL (R230). -/
def cancel (s : State) (d : Desc) (ok : Bool) : State :=
  let s := s.unfetch d
  match s.byHandle d.handle with
  | none => s.refuse d 0 sBadHandle ok
  | some i =>
    match s.cancelOf i d with
    | (s, some st) => s.onEntry d i st ok
    | (s, none) => s

/-- Every CANCEL that waited on entry i completes with a status; one that an operator ecall issued (opcode 0, its spindle in the tag)
returns to its spindle (R292). `put` queues or writes a completion. -/
def cancelsWith (s : State) (i : Nat) (st : Byte) (put : State → Cpl → State) : State :=
  let l := (s.entry i).cancels
  let s := s.modEntry i (fun e => { e with cancelPend := false, cancels := [] })
  l.foldl (fun s d =>
    if d.opcode = 0 then s.ecallReturn (d.tag.toNat / 128) (d.tag.toNat % 128) st
    else put s ⟨d.tag, d.handle, st, d.opcode, stateCode (s.entry i).st, 0⟩) s

/-- The CANCELs that waited on entry i complete (R230). -/
def cancelsDone (s : State) (i : Nat) (st : Byte) (ok : Bool) : State := s.cancelsWith i st (fun s c => s.complete c ok)

/-- The same in a commit sweep, whose completions are written in their order after it. -/
def cancelsQueue (s : State) (i : Nat) : State := s.cancelsWith i sOK queueCpl

/-- FORK (R236). -/
def fork (s : State) (d : Desc) (reel smp : Option (List Byte)) (ok : Bool) : State :=
  let s := s.unfetch d
  let no (st : Byte) (i : Nat) : State :=
    s.cmdDone d 0 (if st = sBadHandle ∨ st = sBadConfig then none else some i) st 0 ok
  if badAlign d then no sBadConfig 0
  else
    match s.entryRefusal d true with
    | (some st, i) => no st i
    | (none, i) =>
      let e := s.entry i
      let c := e.ctx.toNat
      if e.st ≠ .waiting ∧ e.st ≠ .ended then no sBadState i
      else if !(reel.map reelOk).getD false then no sBadReel i
      else if !(smp.map (fun r => smpOk r (s.vocabOf c))).getD false then no sBadSampler i
      else
        match s.freeEntry with
        | none => no sTableFull i
        | some j =>
          if s.ctxFull c then no sCtxFull i
          else if !(s.fits c (s.forkNeed i) true) || decide (s.ptbFree < s.dirSize c + (s.tbl i).ptrs.length) then no sNoPages i
          else if s.members.isEmpty then
            let s := s.forkNow d i j (reel.getD []) (smp.getD [])
            s.cmdDone d (BitVec.ofNat 32 (s.handleOf j)) (some j) sOK 0 ok
          else
            let blocks := s.dirSize c + (s.tbl i).ptrs.length
            let s := s.sendMembers s.seqStep [reserveItem (s.handleOf j) 0 none]
            s.await { idx := j, ctx := c, cmd := d, blocks := blocks, waiting := s.members, acked := [],
                      reel := reel.getD [], smp := smp.getD [] }

/-- A command that has waited for the members leaves them. -/
def unawait (s : State) (a : Await) : State := { s with seq := { s.seq with awaits := s.seq.awaits.filter (fun x => x.idx ≠ a.idx) } }

/-- The head releases the reservations that members have made for a command (R239). -/
def releaseAcked (s : State) (a : Await) : State :=
  a.acked.foldl (fun s r => s.sendItems r s.seqStep [itemBytes kRelease 0 0 (s.handleOf a.idx) 0 0 0 0]) s

/-- A command that has waited for the members does not take effect: their reservations are released, then it completes. -/
def awaitFails (s : State) (a : Await) (st : Byte) (ok : Bool) : State :=
  let d := a.cmd
  let s := (s.unawait a).releaseAcked a
  if d.opcode = 2 then (s.dropRows a.idx).refuse d a.idx st ok else s.cmdDone d 0 none st 0 ok

/-- Every member has reserved (R239): the command takes effect. An APPEND, or a FORK by its source, finds the entry as Table 10.6 asks, or
completes with BAD_STATE where the entry has left that state meanwhile (DESIGN CHOICE, log entry 129). -/
def awaitDone (s : State) (a : Await) (ok : Bool) : State :=
  let d := a.cmd
  let src := if d.opcode = 2 then a.idx else d.handle.toNat % 131072
  let e := s.entry src
  if d.opcode ≠ 1 ∧ e.st ≠ .waiting ∧ e.st ≠ .ended then s.awaitFails a sBadState ok
  else
    let s := s.unawait a
    if d.opcode = 1 then
      let s := (s.takeIn d a.idx a.reel a.smp).addRows a.idx a.rows
      s.cmdDone d (BitVec.ofNat 32 (s.handleOf a.idx)) (some a.idx) sOK 0 ok
    else if d.opcode = 2 then (s.appendNow d a.idx).onEntry d a.idx sOK ok
    else
      let s := s.forkNow d src a.idx a.reel a.smp
      s.cmdDone d (BitVec.ofNat 32 (s.handleOf a.idx)) (some a.idx) sOK 0 ok

/-- One member has answered a reservation; the last answer decides: OK, or NO_PAGES once the reservations made have been released. -/
def answered (s : State) (rank : Nat) (i : Nat) (yes ok : Bool) : State :=
  match s.seq.awaits.find? (fun a => a.idx = i) with
  | none => s
  | some a =>
    let b := { a with
      waiting := a.waiting.filter (· ≠ rank)
      acked := if yes then a.acked ++ [rank] else a.acked
      refused := a.refused || !yes }
    let s := { s with seq := { s.seq with awaits := s.seq.awaits.map (fun x => if x.idx = i then b else x) } }
    if !b.waiting.isEmpty then s
    else if b.refused then s.awaitFails b sNoPages ok
    else s.awaitDone b ok

/-- RESERVE_ACK at the head. -/
def reserveAck (s : State) (ok : Bool) : State :=
  s.withItem kReserveAck (fun s it p =>
    match s.rankOf p.src with
    | some r => s.answered r (leAt it 4 4 % 131072) true ok
    | none => s)

/-- REFUSE at the head (R239): the command completes with NO_PAGES once every member has answered. -/
def refuseItem (s : State) (ok : Bool) : State :=
  s.withItem kRefuse (fun s it p =>
    match s.rankOf p.src with
    | some r => s.answered r (leAt it 4 4 % 131072) false ok
    | none => s)

/-- PAGE_LOST at the head (R239): a fault of the sequence's next step, or FAULT 5h where no step can be meant. -/
def pageLost (s : State) : State :=
  s.withItem kPageLost (fun s it _ =>
    match s.byHandle (BitVec.ofNat 32 (leAt it 4 4)) with
    | none => s
    | some i =>
      let e := s.entry i
      match e.st with
      | .prefill | .decode | .parked | .restarting => s.setEntry i { e with stepFault := if e.stepFault = 0 then 3 else e.stepFault }
      | .admitted | .waiting | .ended | .expired => s.toFaulted i s.seqStep 5
      | _ => s)

/-! Moves (R264 to R267). -/

/-- SPILL (R264). -/
def spill (s : State) (d : Desc) (ok : Bool) : State :=
  let s := s.unfetch d
  match s.entryRefusal d false with
  | (some st, i) => s.refuse d i st ok
  | (none, i) =>
    let e := s.entry i
    match e.st with
    | .waiting | .ended | .cancelled | .expired | .faulted =>
      if !s.spillFits i e.ctx.toNat then s.refuse d i sNoPages ok
      else
        let s := s.setEntry i { e with moving := true, prior := e.st }
        { s with kv := { s.kv with moves := s.kv.moves ++ [⟨false, i, d, []⟩] } }
    | _ => s.refuse d i sBadState ok

/-- RECALL (R265). -/
def recallCmd (s : State) (d : Desc) (ok : Bool) : State :=
  let s := s.unfetch d
  match s.entryRefusal d false with
  | (some st, i) => s.refuse d i st ok
  | (none, i) =>
    let e := s.entry i
    if e.st ≠ .spilled then s.refuse d i sBadState ok
    else
      let ex := decide (e.prior = .expired)
      if !s.recallFits i e.ctx.toNat ex then s.refuse d i sNoPages ok
      else
        let s := s.setEntry i { e with moving := true }
        let s := if ex then s.modTbl i (fun t => { t with released := false }) else s
        { s with kv := { s.kv with moves := s.kv.moves ++ [⟨true, i, d, []⟩] } }

/-- The pages that a move has still to transfer, in order of entry. -/
def movePages (s : State) (m : Move) : List (Nat × Nat) :=
  (if m.back then s.hostEntries m.idx else s.spillPages m.idx).filter (fun ep => !m.lost.contains ep.1)

/-- A BLOCK_CHECK record of a roving page (Table 14.7, class 1): where it lies in HBM. -/
def pageBlock (p : Nat) : RecInfo :=
  if isHost p then { typ := tBlockCheck, detail := 1 <<< 60 } else blockInfo 1 (pageStack p) (frameAddr (pageFrame p))

/-- One page of a move (R264, R265, R267): transferred, or lost; a block of HBM that failed twice is logged before (R268). -/
def movePage (m : Move) (s : State) (x : (Nat × Nat) × PageMove) : State :=
  let c := (s.entry m.idx).ctx.toNat
  match x.2 with
  | .moved b reread =>
    let s := if reread then s.transient (pageBlock x.1.2) else s
    if m.back then s.recallPage m.idx c x.1 b else s.spillPage m.idx c x.1
  | .linkError => s.losePage x.1.2
  | .badBlock => (if m.back then s else s.log .degraded (pageBlock x.1.2)).losePage x.1.2

/-- A move has transferred its last page, and its command completes (R264, R265, R267). -/
def moveDone (s : State) (m : Move) (ok : Bool) : State :=
  let i := m.idx
  let e := s.entry i
  let s := { s with kv := { s.kv with moves := s.kv.moves.erase m } }
  let s : State :=
    if m.back then s.setEntry i { e with moving := false, st := if e.st = .faulted then .faulted else e.prior }
    else
      let s := s.modTbl i (fun t =>
        if e.st = .expired then { t with released := true } else { t with resRows := 0, released := false })
      let prior : SeqState := if e.st = .faulted then .faulted else e.prior
      s.setEntry i { e with moving := false, st := .spilled, prior := prior }
  let e2 : SeqEntry := s.entry i
  let lost : Bool := decide (e2.st = .faulted) || (decide (e2.st = .spilled) && decide (e2.prior = .faulted))
  s.complete ⟨m.cmd.tag, m.cmd.handle, sOK, m.cmd.opcode, if lost then stateCode .faulted else stateCode e2.st, 0⟩ ok

/-- MOVE_COMPLETE (R266, R267): the move that runs transfers its next pages, one for each of `pages`, and completes with its last one;
else it stands at a page boundary, where a RECALL takes its turn before a SPILL. No page moves from a CXL link reset until ENABLE is set
again. -/
def moveComplete (s : State) (pages : List PageMove) (ok : Bool) : State :=
  match s.nextMove with
  | none => s
  | some m =>
    if !s.reelMay then s
    else
      let l := (s.movePages m).zip pages
      let s := l.foldl (movePage m) s
      let gone (x : PageMove) : Bool := decide (x = .linkError) || decide (x = .badBlock)
      let m' := { m with lost := m.lost ++ (l.filter (fun x => gone x.2)).map (·.1.1) }
      let s := { s with kv := { s.kv with moves := s.kv.moves.map (fun x => if x = m then m' else x) } }
      if (s.movePages m').isEmpty then s.moveDone m' ok else s

/-! The other commands. -/

/-- The generation after g (R208). -/
def nextGen (g : BitVec 15) : BitVec 15 := if g = 32767 then 1 else g + 1

/-- The records and the TAIL write that RELEASE lets finish (R235). -/
def flushReel (s : State) (i : Nat) : State :=
  (upTo (s.reel i).queue.length).foldl (fun s _ => s.reelWrite i true true) s

/-- An entry has ended (R235): ENDED, CANCELLED, EXPIRED, FAULTED, or SPILLED with such PRIOR. -/
def endedState (e : SeqEntry) : Bool :=
  let f (x : SeqState) : Bool := decide (x = .ended) || decide (x = .cancelled) || decide (x = .expired) || decide (x = .faulted)
  f e.st || (decide (e.st = .spilled) && f e.prior)

/-- RELEASE (R235); an armed entry is disarmed (R346). It waits, still undecided, while records that had room cannot be written because
requests to host memory are stopped (R310, R311, R380). -/
def release (s0 : State) (d : Desc) (ok : Bool) : State :=
  let s := s0.unfetch d
  match s.entryRefusal d false with
  | (some st, i) => s.refuse d i st ok
  | (none, i) =>
    let e := s.entry i
    if !endedState e then s.refuse d i sNotEnded ok
    else if !s.reelMay && !(s.reel i).queue.isEmpty then s0
    else
      let s := ((s.cancelsDone i sAlreadyEnded ok).disarm i 1).flushReel i
      let held := (s.reel i).held.length
      let s := s.sendMembers s.seqStep [itemBytes kRelease 0 0 (s.handleOf i) 0 0 0 0]
      let s := ((s.freeTables i).setXr i {}).dropInput i
      let s := (s.setSmp i {}).setReel i {}
      let s := s.setEntry i { gen := nextGen e.gen }
      s.cmdDone d d.handle (some i) sOK held ok

/-- SET_PRIORITY (Table 10.6). -/
def setPriorityOf (s : State) (i : Nat) (d : Desc) : State :=
  s.modEntry i (fun e => { e with
    priority := if d.flags % 2 = 1 then BitVec.ofNat 3 d.priority else e.priority
    deadline := if (d.flags >>> 1) % 2 = 1 then s.fromNow d.deadline else e.deadline
    hint := if (d.flags >>> 2) % 2 = 1 then s.fromNow d.hint else e.hint })

def setPriority (s : State) (d : Desc) (ok : Bool) : State :=
  let s := s.unfetch d
  match s.byHandle d.handle with
  | none => s.refuse d 0 sBadHandle ok
  | some i => (s.setPriorityOf i d).onEntry d i sOK ok

/-- A deadline has passed (R231). -/
def deadlinePassed (s : State) (e : SeqEntry) : Bool := e.deadline ≠ 0 && decide (e.deadline.toNat ≤ s.now)

/-- DEADLINE_EXPIRY (R231). -/
def deadlineExpiry (s : State) (i : Nat) : State :=
  let e := s.entry i
  if (e.st = .prefill ∨ e.st = .decode ∨ e.st = .parked) ∧ !e.inFlight ∧ s.deadlinePassed e then s.toExpired i s.seqStep else s

/-- INPUT_COPY_COMPLETE (R219): the tokens copied, or none when the copy failed. A CANCEL that waits for the copy of a sequence FAULTED
meanwhile by a lost page meets the new state (R230; DEDUCED, log entry 130). -/
def inputCopy (s : State) (i : Nat) (toks : Option (List Nat)) (ok : Bool) : State :=
  let e := s.entry i
  if e.st = .faulted then s.cancelsDone i sAlreadyEnded ok
  else if e.st ≠ .admitted then s
  else
    match toks with
    | none =>
      let s := s.dropInput i
      if e.cancelPend then (s.toCancelled i s.seqStep).cancelsDone i sOK ok else s.toFaulted i s.seqStep 1
    | some l =>
      let x := s.input i
      let l := (upTo x.copying).map (fun k => bitsOf (l.getD k 0) 0 32)
      let s := s.setInput i { x with toks := x.toks ++ l, copying := 0 }
      let s := s.setEntry i { e with st := .prefill, input := BitVec.ofNat 21 (x.toks.length + l.length) }
      if e.cancelPend then (s.cancelNow i).cancelsDone i sOK ok
      else if s.deadlinePassed e then s.toExpired i s.seqStep
      else s.park i

/-! What the engine knows of the future (R240). -/

/-- The pages a sequence reads and writes are in HBM, its reel has room, its MATCH words are up to date, its context runs and
holds the rotation where the device is sliced (R221, R303); the rows of its step are a separate test (R253). -/
def runnable (s : State) (i : Nat) : Bool :=
  let e := s.entry i
  let x := s.ctx e.ctx.toNat
  let r := s.reel i
  (decide (e.st = .prefill) || decide (e.st = .decode)) && !e.inFlight && !s.pagesAbsent i && decide (2 ≤ reelRoom r)
    && r.held.isEmpty && decide (r.heldQ = 0) && (s.smpOf i).due.isNone && decide (x.st = .running) && (!x.sliced || x.holder)

/-- SEQ_NEXT (R240). -/
def seqNext (s : State) : Nat :=
  if !s.batches.isEmpty || s.entries.any (fun ie => decide (ie.2.st = .admitted) || ie.2.moving || s.runnable ie.1) then 0
  else
    let hs := s.entries.flatMap (fun ie =>
      (if ie.2.hint ≠ 0 ∧ (ie.2.st = .waiting ∨ ie.2.st = .spilled) then [ie.2.hint.toNat] else [])
        ++ (if ie.2.deadline ≠ 0 then [ie.2.deadline.toNat] else []))
    ((if s.seq.hint = 0 then [] else [s.seq.hint.toNat]) ++ hs).foldl min (2 ^ 64 - 1)

end State

end Sys2Proof.Machine
end

