-- ==== Sys2Proof/WellFormed.lean ====
section
/-! DEFINITION. Well-formed commands: every operand that names a unit names one the device has. A command that is not well
formed names nothing and changes nothing (log entry 24). -/

namespace Sys2Proof

/-- Masts 0 to 3 (R11). -/
def okMast (m : Nat) : Bool := decide (m < 4)
/-- Arrays 0 to 17,407 of a mast (R21). -/
def okArr (m p : Nat) : Bool := okMast m && decide (p < 17408)
/-- Array dies 0 to 7 of a mast (R21). -/
def okDie (m d : Nat) : Bool := okMast m && decide (d < 8)
/-- Accumulators 0 to 255 of a mast (R97). -/
def okAcc (m n : Nat) : Bool := okMast m && decide (n < 256)
/-- The two tiles of an accumulator (R109). -/
def okTile (m n t : Nat) : Bool := okAcc m n && decide (t < 2)
/-- Contexts 0 to 15 (R141). -/
def okCtx (c : Nat) : Bool := decide (c < 16)
/-- HBM stacks 0 to 7 (R11). -/
def okStack (k : Nat) : Bool := decide (k < 8)
/-- Optical engines 0 to 8 (Table 6.17). -/
def okEngine (e : Nat) : Bool := decide (e < 9)
/-- Halyards 0 to 31 (R358). -/
def okPort (p : Nat) : Bool := decide (p < 32)
/-- Sequence entries 0 to 131,071 (R208). -/
def okEntry (i : Nat) : Bool := decide (i < 131072)
/-- Page numbers, of 25 bits (R246). -/
def okPage (p : Nat) : Bool := decide (p < 33554432)
/-- Spindles 0 to 127 of a mast (R286). -/
def okSpindle (m i : Nat) : Bool := okMast m && decide (i < 128)
/-- Integer registers x0 to x31 (R286). -/
def okReg (r : Nat) : Bool := decide (r < 32)
/-- Mailboxes 0 to 23, those with a host view (R389). -/
def okMbx (k : Nat) : Bool := decide (k < 24)
/-- MSI-X vectors 0 to 16 (R383). -/
def okVector (v : Nat) : Bool := decide (v < 17)
/-- Domain groups 0 to 3 (R399). -/
def okGroup (g : Nat) : Bool := decide (g < 4)

/-- A raw code of a step: an array, a physical column and a phase of a mast (R58, R59). -/
def okCode (x : RawCode) : Bool := decide (x.p < 17408) && decide (x.col < 1040) && decide (x.phase < 4)
/-- An error that no other row brings: a hop of Table 14.17 other than an array bond or a clock; a memory of Table 14.7 and its place. -/
def okFound : Found → Bool
  | .hop n _ =>
    (decide (n < 0x400) && (decide (n % 0x100 = 0x10) || decide (n % 0x100 = 0x20) || decide (n % 0x100 = 0x30)))
      || (decide (0x400 ≤ n) && decide (n < 0x440)) || decide (n = 0x480) || (decide (0x490 ≤ n) && decide (n < 0x499))
  | .single memory source addr => decide (1 ≤ memory) && decide (memory ≤ 6) && decide (source ≤ 4) && decide (addr < 2 ^ 60)

/-- Every operand of the command names something. -/
def Instr.wf : Instr → Bool
  | .registerWrite _ _ o _ _ => decide (o < 2 ^ 32)
  | .beatBoundary _ _ => true
  | .sliceExpired => true
  | .arrayStepSlot m codes => okMast m && codes.all okCode
  | .maintenanceSlot m _ _ => okMast m
  | .restoreCycleEnd m _ => okMast m
  | .restoreFailure m p => okArr m p
  | .dieTempSample m _ => okMast m
  | .write m p _ => okArr m p
  | .writeDequeue m => okMast m
  | .writeRowWindow m p _ => okArr m p
  | .writeComplete m p _ => okArr m p
  | .colwrite m p _ => okArr m p
  | .colwriteComplete m p _ => okArr m p
  | .abort m p _ => okArr m p
  | .discard m p _ => okArr m p
  | .mastArrRetWrite m p _ => okArr m p
  | .adcSelfcal => true
  | .adcSelfcalPhaseEnd _ _ _ => true
  | .adcAbort => true
  | .adcSave => true
  | .adcSaveComplete => true
  | .adcRestore => true
  | .adcRestoreComplete _ => true
  | .adcFactorWrite _ => true
  | .adcMapWrite _ => true
  | .plyTokenStep m n _ _ => okAcc m n
  | .tileDrainStart m n t => okTile m n t
  | .tileDrained m n t => okTile m n t
  | .tokenRepeat m n _ _ _ => okAcc m n
  | .plausibilityArbitration m n _ => okAcc m n
  | .splLoad m p _ _ => okArr m p
  | .splLoadComplete m p _ => okArr m p
  | .splClear m p _ => okArr m p
  | .trimCycleEnd m _ => okMast m
  | .trimColWrite _ => true
  | .trimSave => true
  | .trimSaveComplete => true
  | .trimRestore => true
  | .trimRestoreComplete _ => true
  | .ageSave => true
  | .ageRestore _ => true
  | .laserWarn e _ => okEngine e
  | .laserEndOfLife e => okEngine e
  | .sailOpkeyWrite n _ => decide (n < 4)
  | .sailLoad _ => true
  | .sailPlanRead _ => true
  | .sailAbort => true
  | .plyMvm m _ => okMast m
  | .splice m _ => okMast m
  | .attend m _ => okMast m
  | .attendJobStart m _ => okMast m
  | .expand m _ => okMast m
  | .norm m _ _ => okMast m
  | .rope m _ _ => okMast m
  | .act m _ _ => okMast m
  | .add m _ => okMast m
  | .scale m _ => okMast m
  | .send m _ => okMast m
  | .recv m _ => okMast m
  | .recvTimeout m => okMast m
  | .gather m _ => okMast m
  | .logits m _ => okMast m
  | .sample m => okMast m
  | .check m _ => okMast m
  | .barrier m => okMast m
  | .repeatBody m => okMast m
  | .wload c => okCtx c
  | .wloadManifestRead c _ => okCtx c
  | .ctxShardPost c _ => okCtx c
  | .shardFetchComplete k _ => okStack k
  | .wloadTimeout c => okCtx c
  | .derivedImageBuilt c m _ => okCtx c && okMast m
  | .wloadComplete c => okCtx c
  | .start c => okCtx c
  | .stop c => okCtx c
  | .ctxDrainComplete c => okCtx c
  | .wabort c => okCtx c
  | .ctxWbaseWrite c _ => okCtx c
  | .seqCqTailWrite _ _ _ => true
  | .seqCplHeadWrite _ _ _ => true
  | .completionRetry _ _ => true
  | .seqCtlWrite _ _ _ => true
  | .seqHintWrite _ => true
  | .seqEntryRead => true
  | .submit d _ _ _ => decide (d.opcode = 1)
  | .append d _ => decide (d.opcode = 2)
  | .resume d _ => decide (d.opcode = 3)
  | .cancel d _ => decide (d.opcode = 4)
  | .fork d _ _ _ => decide (d.opcode = 5)
  | .spill d _ => decide (d.opcode = 6)
  | .recall d _ => decide (d.opcode = 7)
  | .moveComplete _ _ => true
  | .release d _ => decide (d.opcode = 8)
  | .setPriority d _ => decide (d.opcode = 9)
  | .inputCopyComplete i _ _ => okEntry i
  | .deadlineExpiry i => okEntry i
  | .samplerFinish c => okCtx c
  | .commitSweep x => okCtx x.ctx
  | .matchUpdate i => okEntry i
  | .noticeWrite => true
  | .recorderWrite => true
  | .reelRecordWrite i _ _ => okEntry i
  | .reelHeadRead i _ => okEntry i
  | .reelPoll i _ => okEntry i
  | .reelKick _ _ _ => true
  | .smpRecRead => true
  | .pageCopyComplete => true
  | .deferredFree p => okPage p
  | .frameMove p => okPage p
  | .pfxLoad len => decide (len < 8192)
  | .pfxLoadComplete _ => true
  | .pfxClear => true
  | .kvHostBaseWrite _ _ => true
  | .apply => true
  | .fetch => true
  | .kwCrc32c m i rd rs1 rs2 => okSpindle m i && okReg rd && okReg rs1 && okReg rs2
  | .kwKeccak m i rd rs1 => okSpindle m i && okReg rd && okReg rs1
  | .kwTwist m i rd rs1 rs2 _ => okSpindle m i && okReg rd && okReg rs1 && okReg rs2
  | .kwPgwalk m i rd rs1 rs2 => okSpindle m i && okReg rd && okReg rs1 && okReg rs2
  | .kwWaitev m i rd rs1 => okSpindle m i && okReg rd && okReg rs1
  | .kwSignal m i rs1 rs2 => okSpindle m i && okReg rs1 && okReg rs2
  | .spindleWatchdog m i heir => okSpindle m i && decide (heir.spindle < 128)
  | .mastSpnCtlWrite m _ => okMast m
  | .operatorTrap m i _ _ => okSpindle m i
  | .ecallCancel m i => okSpindle m i
  | .ecallSetPriority m i => okSpindle m i
  | .notify m i => okSpindle m i
  | .intLogHeadWrite _ => true
  | .intLogDataRead => true
  | .digestRoundEnd _ _ => true
  | .jobHalt found => found.all okFound
  | .verifyComplete _ => true
  | .restartReady => true
  | .resumeMessage => true
  | .restartTimeout => true
  | .restartReadyResend => true
  | .jobHaltResend => true
  | .intRecArm _ => true
  | .intRecDisarm _ => true
  | .intRecCtlWrite _ => true
  | .intRecHeadWrite _ => true
  | .replay => true
  | .replayStepComplete => true
  | .rplAbort => true
  | .linkFrame p b _ _ => okPort p && decide (b.length = 256)
  | .linkResend p => okPort p
  | .laneLockLoss p l => okPort p && decide (l < 8)
  | .portIdleTimeout p => okPort p
  | .portTrainingDone p _ _ => okPort p
  | .en p _ => okPort p
  | .retrain p _ => okPort p
  | .packetTransit => true
  | .row => true
  | .logit => true
  | .input c => okCtx c
  | .batch c => okCtx c
  | .commit c => okCtx c
  | .reserve x => okCtx x.ctx
  | .reserveAck _ => true
  | .refuse _ => true
  | .headRelease x => okCtx x.ctx
  | .pageLost => true
  | .ranges c => okCtx c
  | .rigRouteRead => true
  | .cxlLinkReset => true
  | .hostLinkUp _ => true
  | .hostLinkTrainRetry => true
  | .bmStop _ _ _ => true
  | .vectorHoldoffEnd v => okVector v
  | .doeRequest _ => true
  | .getMeasurements => true
  | .ideKm _ _ _ => true
  | .ideIntegrityFailure => true
  | .endSession _ => true
  | .bar2Reject width => decide (width ≤ 64)
  | .doorbell k => okMbx k
  | .ack k => okMbx k
  | .mbxCleatRead k a => okMbx k && decide (a < 1024)
  | .mbxCleatWrite k _ => okMbx k
  | .info k _ => okMbx k
  | .link k _ => okMbx k
  | .fwStatus k _ _ => okMbx k
  | .fwWrite k _ _ => okMbx k
  | .fwActivate k _ _ => okMbx k
  | .fwCommit k _ _ => okMbx k
  | .idInfo k _ _ => okMbx k
  | .pwrSail _ => true
  | .pwrReef _ => true
  | .pwrDouse _ => true
  | .pwrFurl => true
  | .powerChooser => true
  | .reefEntry g => okGroup g
  | .douseEntry g => okGroup g
  | .furlEntry => true
  | .selfWake => true
  | .firstAccess m kind => okMast m && decide (kind < 5)
  | .diePowerStable m d => okDie m d
  | .douseWake => true
  | .furlWake => true
  | .wakeSlotDelayEnd => true
  | .powerSample _ _ _ _ => true
  | .inputUndervoltage => true
  | .inputFault => true
  | .nop kind addr => decide (kind < 4) && decide (addr < 131072)
  | .wake kind addr => decide (kind < 4) && decide (addr < 131072)
  | .reef kind addr => decide (kind < 4) && decide (addr < 131072)
  | .douse kind addr => decide (kind < 4) && decide (addr < 131072)
  | .furl kind addr => decide (kind < 4) && decide (addr < 131072)
  | .reset kind addr _ => decide (kind < 4) && decide (addr < 131072)
  | .lanyardBadFrame => true
  | .lanyardStuck _ => true
  | .lanyardUnstuck => true
  | .lanyardWindowEnd => true
  | .crystalFailure => true
  | .rootPllUnlock => true
  | .hbmPllUnlock k => okStack k
  | .opticalPllUnlock e => okEngine e
  | .coldReset => true
  | .romBoot => true
  | .firmwareRelease => true
  | .mgmtWatchdog => true
  | .securityCoreFault => true
  | .cxlMemWindowWrite o b => decide (o + b.length ≤ 2 ^ 31)
  | .returnToRetention m => okMast m
  | .opticalPllLock e => okEngine e
  | .timeCompare m i => okSpindle m i
  | .replayChainRead _ => true
  | .lanyardReservedCmd kind addr => decide (kind < 4) && decide (addr < 131072)

end Sys2Proof
end

