-- ==== Sys2Proof/Machine/Commands.lean ====
section
/-! DEFINITION. What every meaning shares: when a command of the host or of the sequence engine is taken, and the form of a
meaning, which changes the device by one function and leaves the queue of commands alone. -/

namespace Sys2Proof.Machine

namespace State

/-- Firmware runs: the whole register map answers (R432, R433), and the device has not halted (R334). -/
def hostMay (s : State) : Bool := !s.devFatal && decide (s.clk.state = 1) && !s.pwr.furled

/-- As `hostMay`, with the blocks that answer in RECOVERY too (R432). -/
def mailboxMay (s : State) : Bool := !s.devFatal && !decide (s.clk.state = 0) && !s.pwr.furled

/-- A read is answered, in a halted device too (R334). -/
def hostReads (s : State) : Bool := decide (s.clk.state = 1) && !s.pwr.furled
def mailboxReads (s : State) : Bool := !decide (s.clk.state = 0) && !s.pwr.furled

/-- The CXL.mem window takes writes: firmware runs and the device is not in FURL (R433, Table 18.1). -/
def windowMay (s : State) : Bool := decide (s.clk.state = 1) && !s.pwr.furled

/-- The spindles of a mast run: firmware runs, and the mast does, or a first access has woken its logic (R405). -/
def engineRuns (s : State) (m : Nat) : Bool :=
  decide (s.clk.state = 1) && !s.pwr.furled && (s.mastRuns m || s.pwr.awake.any (fun x => x.1 = m))

/-- A sequence command may be decided: the device takes commands, and no earlier command on the same entry waits, fetched or
for the members' reservations (R214, R239). -/
def seqMay (s : State) (d : Desc) : Bool :=
  s.hostMay
    && (s.seq.fetched.takeWhile (fun x => x ≠ d)).all (fun x => x.opcode = 1 || d.opcode = 1 || x.handle ≠ d.handle)
    && (d.opcode = 1 || !s.seq.awaits.any (fun a => a.cmd.opcode ≠ 1 && a.cmd.handle = d.handle))

end State

/-- The form of a meaning: where the command is taken, `f` says what changes. -/
def act (ok : Bool) (s : State) (f : State → State) : Host.Outcome State Fault Refusal :=
  .next (if ok then s.keepBoot (f s) else s)

/-- The same for what changes the boot state: the release of firmware and the entry of FURL. -/
def actBoot (ok : Bool) (s : State) (f : State → State) : Host.Outcome State Fault Refusal :=
  .next (if ok then s.keepFlash (f s) else s)

/-- The same for the ROM and the firmware services, which write the flash. -/
def actFlash (ok : Bool) (s : State) (f : State → State) : Host.Outcome State Fault Refusal :=
  .next (if ok then s.keepLife (f s) else s)

/-- The same for resets. -/
def actReset (ok : Bool) (s : State) (f : State → State) : Host.Outcome State Fault Refusal :=
  .next (if ok then { f s with pending := s.pending, flash := s.flash } else s)

end Sys2Proof.Machine
end

