-- ==== Sys2Proof/Machine/Arrays.lean ====
section
/-! DEFINITION. Charge arrays (chapter 2): array commands, writes and COLWRITEs, retirement, the restore loop's
slots, restore failures and the temperature setting. -/

namespace Sys2Proof.Machine

namespace State

/-! Shared operations. -/

/-- An array command is accepted: CMD_LAST takes its code (R468). -/
def arrAccept (s : State) (m p : Nat) (code : BitVec 4) : State :=
  s.modArr m p (fun a => { a with cmdLast := code })

/-- A command completes at once with a status, leaving a command in progress alone (R50, R468). -/
def arrRefuse (s : State) (m p : Nat) (host : Bool) (st : Byte) : State :=
  let s := s.modArr m p (fun a => { a with cmdStatus := st })
  if host then s.cause gArr else s

/-- The command in progress completes with a status (R50); MBX_GEN_CAUSE.ARR when the host issued it. -/
def arrFinish (s : State) (m p : Nat) (st : Byte) : State :=
  let h := (s.arr m p).byHost
  let s := s.modArr m p (fun a => { a with cmdStatus := st, cmdBusy := false, byHost := false })
  if h then s.cause gArr else s

/-- Array writes that the mast's write engine carries (R37). -/
def runningWrites (s : State) (m : Nat) : List Nat := s.arrsOf m (fun a => a.write.isSome && !a.queued)

/-- A die runs ADC_SELFCAL (Table 3.5). -/
def dieCal (s : State) (m d : Nat) : Bool :=
  match s.adc.job with
  | none => false
  | some j => j.dies.contains (kDie m d)

/-- The column map in force: the logical columns a spare column serves (R36). -/
def colMapOf (s : State) (m p : Nat) : List (Nat × Nat) :=
  (s.cols.filter (fun kw => decide (kw.1 / 1026 = kArr m p) && decide (kw.1 % 1026 < 1024)
    && decide (kw.2.val.pcol ≠ 0))).map (fun kw => (kw.1 % 1026, kw.2.val.pcol))

/-- The context remembers which array last served a slot that an array leaves (R171). -/
def noteServed (s : State) (m p : Nat) : State :=
  match (s.arr m p).slot with
  | none => s
  | some r => s.modCtx r.ctx (fun x => { x with
      served := (m, r.slot, p) :: x.served.filter (fun y => !(y.1 = m && y.2.1 = r.slot)) })

/-- A write or COLWRITE in progress ends with ABORTED (Tables 2.11, 2.13). -/
def endWrite (s : State) (m p : Nat) : State :=
  let a := s.arr m p
  let s := s.modMast m (fun x => { x with wrQueue := x.wrQueue.filter (· ≠ p) })
  let s := s.modArr m p (fun a => { a with write := none, col := none, queued := false })
  if a.cmdBusy then s.arrFinish m p sAborted else s

/-- The array becomes RETIRED out of use: a command in progress ends with ABORTED, it leaves its slot, and its
group counts it (R46, R48, Table 2.12, Table 6.19). -/
def toRetired (s : State) (m p : Nat) : State :=
  let g := groupOf p
  let x := s.ageGrp m g
  let s := s.endWrite m p
  let s := if (s.arr m p).st = .retired then s else s.setAgeGrp m g { x with retired := x.retired + 1 }
  (s.noteServed m p).modArr m p (fun a => { a with st := .retired, retirePend := false, queued := false, leaving := false, fw := none, slot := none })

/-- R48, Table 2.11: MAST_ARR_RET.RETIRED written 1. -/
def retire (s : State) (m p : Nat) : State :=
  let a := s.arr m p
  let s := s.modArr m p (fun a => { a with retired := true })
  match a.st with
  | .active => s.modArr m p (fun a => { a with retirePend := true })
  | .retired => s
  | _ => s.toRetired m p

/-- Table 2.11: MAST_ARR_RET.RETIRED written 0. -/
def unretire (s : State) (m p : Nat) : State :=
  let a := s.arr m p
  let g := groupOf p
  let s := s.modArr m p (fun a => { a with retired := false, retirePend := false, perm := false })
  if a.st = .retired then
    let x := s.ageGrp m g
    let s := s.setAgeGrp m g { x with retired := x.retired - 1 }
    s.modArr m p (fun a => { a with st := if (s.die m (dieOf p)).powered then .blank else .off })
  else s

/-- R332: a permanent fault charged to an array; `i` is the record of the check that found it. -/
def permanentFault (s : State) (m p : Nat) (i : RecInfo) : State :=
  let live := s.servesLive m p
  let c := (s.arr m p).slot.map (·.ctx)
  ((s.retire m p).modArr m p (fun a => { a with perm := true })).log (if live then .jobFatal else .degraded) { i with ctx := c }

/-! WRITE, ABORT, DISCARD (R36, R37, R46, R49, R50). -/

/-- The first queued write of a mast that can start (R37, Table 3.5). -/
def startable (s : State) (m : Nat) : Option Nat :=
  if 128 ≤ (s.runningWrites m).length then none
  else (s.mast m).wrQueue.find? (fun p => (s.die m (dieOf p)).powered && !s.dieCal m (dieOf p))

/-- The write starts or is queued: what it latches (R36), and why it may wait (R37, R46, Table 3.5): the write engine is full, an
earlier write that could start still waits, the die calibrates or is off; for an OFF die its mast is put in line for power-up (R405,
R406). -/
def startWrite (s : State) (m p : Nat) (restart : Bool) : State :=
  let a := s.arr m p
  let d := dieOf p
  let off := !(s.die m d).powered
  let wait := off || s.dieCal m d || decide (128 ≤ (s.runningWrites m).length) || (s.startable m).isSome
  let j : WriteJob :=
    { lmap := a.cfgLmap
      span := a.cfgSpan
      src := a.src
      colMap := s.colMapOf m p
      row := 0
      failed := []
      pattern := false
      restart := restart }
  let s := s.modArr m p (fun a => { a with
    st := if restart then a.st else .writing
    write := some j
    queued := wait
    cmdBusy := a.cmdBusy || !restart })
  let s := if off && !s.pwr.upQueue.contains m then { s with pwr := { s.pwr with upQueue := s.pwr.upQueue ++ [m] } } else s
  if wait then s.modMast m (fun x => { x with wrQueue := x.wrQueue ++ [p] }) else s

/-- WRITE, with the refusals of R50 in their order. -/
def writeCmd (s : State) (m p : Nat) (host : Bool) : State :=
  let s := s.arrAccept m p 1
  let a := s.arr m p
  if host && a.slot.isSome then s.arrRefuse m p host sArrOwned
  else if a.cmdBusy then s.arrRefuse m p host sArrBusy
  else if a.st = .active then s.arrRefuse m p host sArrActive
  else if a.st = .retired then s.arrRefuse m p host sArrRetired
  else if a.cfgLmap = 3 || decide (a.cfgSpan.toNat < 4) || decide (10 < a.cfgSpan.toNat)
      || !srcOk m a.src.toNat 1048576 then s.arrRefuse m p host sBadConfig
  else (s.modArr m p (fun a => { a with byHost := host })).startWrite m p false

/-- R37: the first queued write that can start does. -/
def writeDequeue (s : State) (m : Nat) : State :=
  match s.startable m with
  | none => s
  | some p =>
    (s.modMast m (fun x => { x with wrQueue := x.wrQueue.filter (· ≠ p) })).modArr m p
      (fun a => { a with queued := false })

/-- R33: the level index of the reference columns on row i. -/
def refLevel (l : BitVec 2) (b : Bool) (i : Nat) : Int :=
  if b then ((i % mapLevels l : Nat) : Int) - mapH l
  else if i % 2 = 0 then mapH l else -mapH l

/-- The 1,040 level indices of row i: image bytes by the latched column map, reference patterns (R33), zeros on
unassigned columns (R34). -/
def physRow (j : WriteJob) (i : Nat) (img : List Byte) : List Byte :=
  (upTo physCols).map (fun c =>
    if c = 1024 then BitVec.ofInt 8 (refLevel j.lmap false i)
    else if c = 1025 then BitVec.ofInt 8 (refLevel j.lmap true i)
    else if c < 1024 then
      if j.colMap.any (fun lp => decide (lp.1 = c)) then 0 else img.getD c 0
    else
      match j.colMap.find? (fun lp => decide (lp.2 = c)) with
      | some lp => img.getD lp.1 0
      | none => 0)

/-- Add a cell value on row i to a column's sums (R31, R117, R323). -/
def addSum (x : ColSum) (i : Nat) (v : Int) : ColSum :=
  let w : W16 := BitVec.ofInt 16 v
  { w := x.w + w
    b := x.b.mapIdx (fun q y => if i / 256 = q then y + w else y)
    s := x.s.mapIdx (fun b y => if (i >>> b) % 2 = 1 then y + w else y) }

/-- Write row i into the array, with the sums of every physical column; row 0 starts the sums afresh. -/
def putRow (s : State) (m p i : Nat) (l : BitVec 2) (levels : List Byte) : State :=
  let s := s.setRow m p i levels
  (upTo physCols).foldl (fun s c =>
    let x := if i = 0 then {} else s.sum m p c
    s.setSum m p c (addSum x i (cellValue l (levels.getD c 0)))) s

/-- A level index lies in the map (R39). -/
def inMap (l : BitVec 2) (b : Byte) : Bool := decide (-mapH l ≤ b.toInt) && decide (b.toInt ≤ mapH l)

/-- The standby pattern (R122): +h on row i when ⌊i/256⌋ is even, −h when it is odd. -/
def standbyRow (l : BitVec 2) (i : Nat) : List Byte :=
  List.replicate 1024 (BitVec.ofInt 8 (if (i / 256) % 2 = 0 then mapH l else -mapH l))

/-- A write stops for a bad image (R39): the array becomes BLANK. Firmware rebuilds a derived image that failed its check value twice,
and the write runs again (Table 14.2): a restart rewrite from its first row, a WRITE as a new command. -/
def stopWrite (s : State) (m p : Nat) (j : WriteJob) (st : Byte) : State :=
  let load := ((s.arr m p).fw.map (·.load)).getD false
  let again : FwJob := { image := j.image, lmap := j.lmap, write := !j.restart, load := load, rebuild := true }
  let rebuilt := j.image.isSome && decide (st = sBadImage)
  if j.restart then s.modArr m p (fun a => { a with
    write := some { j with row := 0, failed := [] }
    fw := if rebuilt then some again else a.fw })
  else (s.modArr m p (fun a => { a with
    st := .blank
    write := none
    fw := if rebuilt then some again else a.fw })).arrFinish m p st

/-- R36, R39: one row window of a running write. -/
def rowWindow (s : State) (m p : Nat) (r : RowRead) : State :=
  let a := s.arr m p
  match a.write with
  | none => s
  | some j =>
    if a.queued || decide (1024 < j.row) then s
    else
      let j := if 0 < j.row && !r.backOk then { j with failed := j.failed ++ [j.row - 1] } else j
      if j.row = 1024 then s.modArr m p (fun a => { a with write := some { j with row := 1025 } })
      else
        let addr := s.imageAddr m j.image j.src.toNat (1024 * j.row)
        let img := if j.pattern then standbyRow j.lmap j.row else s.imageBytes m j.image j.src.toNat (1024 * j.row) 1024
        if !r.blockOk then
          (s.log .repeated (blockInfoAt 3 addr)).stopWrite m p j sBadImage
        else
          let s := if r.reread then s.transient (blockInfoAt 3 addr) else s
          if img.any (fun b => !inMap j.lmap b) then s.stopWrite m p j sBadCode
          else (s.putRow m p j.row j.lmap (physRow j j.row img)).modArr m p
            (fun a => { a with write := some { j with row := j.row + 1 } })

/-- The image that an array holds: the snapped level index of every cell of logical columns 0 to 1,023 in row order, then its
splice region (R325). -/
def arrayString (s : State) (m p : Nat) : List Byte :=
  let cols := (upTo 1024).map (s.physOf m p)
  (upTo 1024).flatMap (fun i => let r := s.row m p i; cols.map (fun c => r.getD c 0)) ++ s.region m p

/-- The digest of what an array holds differs from a recorded one. -/
def digestDiffers (s : State) (m p : Nat) (d : List Byte) : Bool := !d.isEmpty && decide (shakeDigest (s.arrayString m p) ≠ d)

/-- A write completes with OK (R38): READY with the latched map and span in force; every spare column is usable
again, and a zero spare column waits for no assignment any more (R34, R40). A restart rewrite, which no command issues (Table 2.12), leaves the array ACTIVE. -/
def writeOk (s : State) (m p : Nat) (j : WriteJob) : State :=
  let s := s.modArr m p (fun a => { a with
    st := if j.restart then a.st else .ready
    lmap := j.lmap
    span := j.span
    wcnt := if j.restart then a.wcnt else a.wcnt + 1
    write := none
    image := j.image
    digest := j.digest
    pattern := j.pattern
    run4 := 0
    run8 := 0 })
  let s := s.modAtrim m p (fun x => { x with unusable := 0, measured := 0, fresh := true, colSwaps := [], colTodo := [] })
  if j.restart then s else s.arrFinish m p sOK

/-- A write completes with VERIFY_FAIL (R38): RETIRED is set and the array becomes RETIRED; a restart rewrite sets
RETIRE_PEND (Table 2.11). -/
def writeFail (s : State) (m p : Nat) (j : WriteJob) : State :=
  let s := if j.restart then s else s.arrFinish m p sVerifyFail
  let s :=
    if j.restart then
      s.modArr m p (fun a => { a with retired := true, retirePend := true, perm := true, write := none })
    else (s.modArr m p (fun a => { a with retired := true })).toRetired m p
  s.logArr m p 1

/-- A restart rewrite whose digest differs from the derived image's (Table 14.8): the array is written again, once (R326); after that the
restart handles it as a rewrite that ends with VERIFY_FAIL. The spec says that the digest is compared, and gives no outcome (DESIGN
CHOICE, log entry 118). -/
def rewriteDiffers (s : State) (m p : Nat) (j : WriteJob) : State :=
  if j.second then s.writeFail m p j
  else s.modArr m p (fun a => { a with write := some { j with row := 0, failed := [], second := true } })

/-- R38: the failed rows are rewritten once; `bad` are the rows that fail again. -/
def writeComplete (s : State) (m p : Nat) (bad : List Nat) : State :=
  match (s.arr m p).write with
  | none => s
  | some j =>
    if (s.arr m p).queued || j.row ≠ 1025 then s
    else if j.failed.any (fun r => bad.contains r) then s.writeFail m p j
    else if j.restart && s.digestDiffers m p j.digest then s.rewriteDiffers m p j
    else s.writeOk m p j

/-- COLWRITE (R40), with the refusals of R50 in their order. -/
def colwriteCmd (s : State) (m p : Nat) (host : Bool) : State :=
  let s := s.arrAccept m p 2
  let a := s.arr m p
  let c := a.colP.toNat
  if host && a.slot.isSome then s.arrRefuse m p host sArrOwned
  else if a.cmdBusy then s.arrRefuse m p host sArrBusy
  else if a.st = .retired then s.arrRefuse m p host sArrRetired
  else if decide (c < 1026) || decide (1039 < c) || s.spareAssigned m p (c - 1026) then
    s.arrRefuse m p host sArrColBusy
  else if !srcOk m a.src.toNat 1048576 then s.arrRefuse m p host sBadConfig
  else if a.st ≠ .ready ∧ a.st ≠ .active then s.arrRefuse m p host sBadConfig
  else s.modArr m p (fun a => { a with
    cmdBusy := true
    byHost := host
    col := some { colP := c, colL := a.colL.toNat, src := a.src, row := 0, failed := [], swap := false } })

/-- A column of the image, top to bottom. -/
def imageCol (s : State) (m : Nat) (r : Option SlotRef) (src col : Nat) : List Byte :=
  (upTo 1024).map (fun i => (s.imageBytes m r src (1024 * i + col) 1).getD 0 0)

/-- A column of the standby pattern (R122). -/
def standbyCol (l : BitVec 2) : List Byte := (upTo 1024).map (fun i => (standbyRow l i).getD 0 0)

/-- Write one physical column of every row, with its sums. -/
def putCol (s : State) (m p c : Nat) (l : BitVec 2) (levels : List Byte) : State :=
  let s := (upTo 1024).foldl (fun s i => s.setRow m p i ((s.row m p i).set c (levels.getD i 0))) s
  s.setSum m p c ((upTo 1024).foldl (fun x i => addSum x i (cellValue l (levels.getD i 0))) {})

/-- R40: a COLWRITE completes; `fails` says that a row failed its read-back twice. R39 gives a WRITE its outcomes for an image block
that fails its check value and for an index outside the map; the spec gives a COLWRITE none, and the model writes the indices as they
are read (DESIGN CHOICE, log entry 108). -/
def colwriteComplete (s : State) (m p : Nat) (fails : Bool) : State :=
  let a := s.arr m p
  match a.col with
  | none => s
  | some j =>
    let s := s.putCol m p j.colP a.lmap (if j.pattern then standbyCol a.lmap else s.imageCol m j.image j.src.toNat j.colL)
    let s := s.modArr m p (fun a => { a with col := none })
    if fails then
      (s.modAtrim m p (fun x => { x with unusable := x.unusable ||| BitVec.ofNat 14 (2 ^ (j.colP - 1026)) })).arrFinish
        m p sVerifyFail
    else
      let s := if j.swap then s.modAtrim m p (fun x => { x with colSwaps := x.colSwaps ++ [(j.colL, j.colP, false)] }) else s
      s.arrFinish m p sOK

/-- ABORT (R50, Table 2.13): a write or COLWRITE in progress ends with ABORTED; ABORT itself completes with OK. -/
def abortCmd (s : State) (m p : Nat) (host : Bool) : State :=
  let s := s.arrAccept m p 3
  let a := s.arr m p
  if host && a.slot.isSome then s.arrRefuse m p host sArrOwned
  else
    let s := if a.cmdBusy then s.endWrite m p else s
    let s := if a.st = .writing then s.modArr m p (fun a => { a with st := .blank, fw := none }) else s
    s.arrRefuse m p host sOK

/-- DISCARD (R46, R50). -/
def discardCmd (s : State) (m p : Nat) (host : Bool) : State :=
  let s := s.arrAccept m p 4
  let a := s.arr m p
  if host && a.slot.isSome then s.arrRefuse m p host sArrOwned
  else if a.cmdBusy then s.arrRefuse m p host sArrBusy
  else if a.st = .active then s.arrRefuse m p host sArrActive
  else if a.st = .retired then s.arrRefuse m p host sArrRetired
  else (if a.st = .ready then s.modArr m p (fun a => { a with st := .blank }) else s).arrRefuse m p host sOK

/-- A reserved command code (Table 2.21): BAD_COMMAND; nothing happens. -/
def arrBadCommand (s : State) (m p : Nat) (host : Bool) : State := s.arrRefuse m p host sBadCommand

/-! The restore loop (R41 to R45). -/

/-- N of a restore interval (Table 2.7). -/
def intervalN (i : BitVec 2) : Nat := if i = 0 then 64 else if i = 1 then 48 else if i = 2 then 32 else 16

/-- The present step slot is a maintenance slot (R41). -/
def isMaint (s : State) (m : Nat) : Bool :=
  let n := intervalN (s.mast m).effInt
  decide ((s.mast m).stepCtr % n = n - 1)

/-- R41: the array step counter advances. -/
def stepSlot (s : State) (m : Nat) : State :=
  s.modMast m (fun x => { x with stepCtr := x.stepCtr + 1, slotDone := false })

/-- A metastable decision (R58): ADC_META of the mast and the converter's own count advance. -/
def metastable (s : State) (m : Nat) (pg : Nat × Nat) : State :=
  (s.modMast m (fun x => { x with adcMeta := satAdd x.adcMeta 1 })).setMeta m pg.1 pg.2 (s.meta_ m pg.1 pg.2 + 1)

/-- The loop works this array (R42): READY or ACTIVE. -/
def restored (a : Arr) : Bool := decide (a.st = .ready) || decide (a.st = .active)

/-- Snapped levels never pass the outermost level (R42). -/
def clampLevel (l : BitVec 2) (b : Byte) : Byte := BitVec.ofInt 8 (max (-mapH l) (min (mapH l) b.toInt))

/-- R42: one row of one array is sensed, snapped and rewritten, its drift counted; the column of a running COLWRITE is
left alone (R40). -/
def restoreRow (s : State) (m slot : Nat) (x : Sense) : State :=
  let a := s.arr m x.p
  if restored a && (x.row = 2 * slot || x.row = 2 * slot + 1) then
    let new := x.levels.map (clampLevel a.lmap)
    let new := match a.col with
      | some j => new.set j.colP ((s.row m x.p x.row).getD j.colP 0)
      | none => new
    (s.setRow m x.p x.row new).modArr m x.p (fun a => { a with run4 := a.run4 + x.ge4, run8 := a.run8 + x.ge8 })
  else s

/-- R44: the restore loop has failed for an array. A COLWRITE that runs on a READY array goes on (DESIGN CHOICE, log entry 109). -/
def restoreFailure (s : State) (m p : Nat) : State :=
  let a := s.arr m p
  if a.st = .ready then
    ((s.modMast m (fun x => { x with rstFail := true })).modArr m p (fun a => { a with st := .blank })).logArr m p 2
  else if a.st = .active then
    (s.modMast m (fun x => { x with rstFail := true })).permanentFault m p
      { typ := tArray, source := m, detail := arrDetail m p 0 2 }
  else s

/-- Lower bound of each row of Table 2.9 after the first, in 1/16 °C. -/
def bandBounds : List Int := [45 * 16, 65 * 16, 85 * 16, 95 * 16, 105 * 16]

/-- The row of Table 2.9 a temperature lies in. -/
def bandOf (t : Int) : Nat := (bandBounds.filter (fun b => decide (b < t))).length

/-- R45: the row moves up at once, and down only past 3 °C below the boundary it leaves. -/
def nextBand (t : Int) : Nat → Nat
  | 0 => bandOf t
  | b + 1 =>
    if b + 1 ≤ bandOf t then bandOf t
    else if t ≤ bandBounds.getD b 0 - 48 then nextBand t b
    else b + 1

/-- Table 2.9: the interval code of a row for a level map. -/
def bandInterval (b : Nat) (l : BitVec 2) : BitVec 2 :=
  if l = 0 then (if b ≤ 2 then 0 else if b = 3 then 1 else if b = 4 then 2 else 3)
  else if l = 1 then (if b ≤ 4 then 0 else 1)
  else 0

/-- The level maps in use among a mast's READY, ACTIVE and WRITING arrays; a WRITING array counts with the map its
write latched (R45). -/
def mapsInUse (s : State) (m : Nat) : List (BitVec 2) :=
  (s.arrsOf m (fun a => restored a || decide (a.st = .writing))).map
    (fun p => match (s.arr m p).write with
      | some j => j.lmap
      | none => (s.arr m p).lmap)

/-- The hottest valid powered die of a mast, in 1/16 °C. -/
def hottest (s : State) (m : Nat) : Option Int :=
  (((upTo 8).filter (fun d => (s.die m d).powered && (s.die m d).valid)).map (fun d => (s.die m d).temp.toInt)).max?

/-- The longer-to-shorter order of interval codes: the shortest of a list (R43, R45). -/
def shortest (l : List (BitVec 2)) : BitVec 2 := l.foldl (fun a b => if a.toNat < b.toNat then b else a) 0

/-- R45: the mast's temperature setting. -/
def setTempInt (s : State) (m : Nat) : State :=
  match s.hottest m with
  | none => s.modMast m (fun x => { x with tempInt := 0, band := 0 })
  | some t =>
    let b := nextBand t (s.mast m).band
    let maps := s.mapsInUse m
    let maps := if maps.isEmpty then [0] else maps
    s.modMast m (fun x => { x with band := b, tempInt := shortest (maps.map (bandInterval b)) })

/-- R45: each powered die reports its hottest sensor. -/
def reportTemps (s : State) (m : Nat) (temps : List W16) : State :=
  (upTo 8).foldl (fun s d =>
    if (s.die m d).powered then s.modDie m d (fun x =>
      let t := temps.getD d x.temp
      { x with
        valid := true
        temp := t
        trimLo := if !x.valid || t.toInt < x.trimLo.toInt then t else x.trimLo
        trimHi := if !x.valid || x.trimHi.toInt < t.toInt then t else x.trimHi })
    else s) s

/-- R43: the effective interval of the next restore cycle. -/
def nextInterval (s : State) (m : Nat) : BitVec 2 :=
  let x := s.mast m
  shortest [x.hostInt, x.ageInt, x.tempInt]

end State

end Sys2Proof.Machine
end

