-- ==== Sys2Proof/Machine/Convert.lean ====
section
/-! DEFINITION. Column conversion (chapter 3): the correction stage, the converter map, ADC_SELFCAL and its phases,
saving and restoring factor sets, factor and map writes. -/

namespace Sys2Proof.Machine

/-! Factor words (Table 3.2). -/
def facGain (w : W64) : Rat := (((w.toNat >>> 48) % 65536 : Nat) : Rat) / 32768
def facOffset (w : W64) : Rat := (signed 12 (w.toNat >>> 36) : Rat) / 64
def facBad (w : W64) : Bool := (w.toNat >>> 32) % 2 = 1
def facSeg (w : W64) (i : Nat) : Rat := (signed 8 (w.toNat >>> (8 * i)) : Rat) / 64
/-- Reserved bits of a factor word read as zero (R7). -/
def facMask (w : W64) : W64 := w &&& 0xFFFFFFF1FFFFFFFF

/-- R60: the corrected code, in units of 1/256, of raw code c, with the converter's factors and the column's CG and
CO. The single rounding is to nearest, ties to even. -/
def correct (w : W64) (cg : BitVec 24) (co : W16) (c : Int) : Int :=
  let n := (c + 128).toNat
  rneInt (256 * (((c : Rat) + facSeg w (n / 64) - facOffset w) * facGain w * ((cg.toNat : Rat) / 4194304)
    - (co.toInt : Rat) / 1024))

/-- R54: the converter that serves a group. -/
def convOf (x : ConvMap) (g : Nat) : Nat :=
  if x.enB && x.grpB.toNat = g then 131 else if x.enA && x.grpA.toNat = g then 130 else g

/-- The value of ADC_MAP (Table 3.15). -/
def mapWord (x : ConvMap) : Nat := bit_ x.enB 31 + at_ x.grpB 16 + bit_ x.enA 15 + at_ x.grpA 0

/-- The fields of an ADC_MAP value. -/
def mapOfWord (v : Nat) : ConvMap :=
  { enB := bitsOf v 31 1 = 1, grpB := BitVec.ofNat 8 (bitsOf v 16 8), enA := bitsOf v 15 1 = 1,
    grpA := BitVec.ofNat 8 (bitsOf v 0 8) }

/-- R54: a map whose enabled fields name groups up to 129, no group twice. -/
def mapOk (x : ConvMap) : Bool :=
  (!x.enA || decide (x.grpA.toNat ≤ 129)) && (!x.enB || decide (x.grpB.toNat ≤ 129))
    && !(x.enA && x.enB && x.grpA = x.grpB)

/-- The code of CAL (Table 3.14). -/
def calCode : Cal → Nat
  | .invalid => 0
  | .calibrating => 1
  | .valid => 2
  | .failed => 3

def calOf (n : Nat) : Cal :=
  if n = 1 then .calibrating else if n = 2 then .valid else if n = 3 then .failed else .invalid

/-- The dies of a mask: bit 8m + d (Table 3.11). -/
def maskDies (w : W32) : List Nat := (upTo 32).filter (fun i => w.getLsbD i)

/-- The mask of a list of dies. -/
def diesMask (l : List Nat) : W32 := l.foldl (fun w i => w ||| BitVec.ofNat 32 (2 ^ i)) 0

namespace State

/-- An ADC command completes (R468, Table 3.10). -/
def adcFinish (s : State) (st : Byte) : State :=
  { s with adc := { s.adc with busy := false, phase := 0, status := st, job := none } }.cause gAdc

/-- An ADC command completes at once, a running one going on. -/
def adcRefuse (s : State) (st : Byte) : State :=
  { s with adc := { s.adc with status := st } }.cause gAdc

def adcAccept (s : State) (c : BitVec 4) : State := { s with adc := { s.adc with cmdLast := c } }

/-- The arrays of a die. -/
def dieArrays (k : Nat) : List (Nat × Nat) := (upTo arrPerDie).map (fun a => (k / 8, (k % 8) * arrPerDie + a))

/-- Some array of a die is ACTIVE or WRITING (R63). -/
def dieInUse (s : State) (k : Nat) : Bool :=
  !(s.arrsOf (k / 8) (fun a => decide (a.st = .active) || decide (a.st = .writing))).all
    (fun p => dieOf p ≠ k % 8)

/-- ADC_SELFCAL (R63, R64, R68). A die skipped because it is off makes no result partial (log entry 96). The arrays of the dies miss trim
measurements of the running restore cycle (R115). -/
def selfcal (s : State) : State :=
  let s := s.adcAccept 1
  if s.adc.busy then s.adcRefuse sAdcBusy
  else
    let named := maskDies s.adc.mask
    if named.any s.dieInUse then s.adcRefuse sAdcDieBusy
    else
      let dies := named.filter (fun k => (s.die (k / 8) (k % 8)).powered)
      if dies.isEmpty then { s with adc := { s.adc with done := 0 } }.adcRefuse sOK
      else
        let s := dies.foldl (fun s k => (dieArrays k).foldl (fun s mp =>
          s.modCal mp.1 mp.2 (fun x => { x with cal := .calibrating, committed := false })) s) s
        let s := dies.foldl (fun s k => ((s.arrsOf (k / 8) restored).filter (fun p => dieOf p = k % 8)).foldl (fun s p =>
          s.modAtrim (k / 8) p (fun x => { x with calHit := true })) s) s
        { s with adc := { s.adc with
            busy := true
            phase := 1
            done := 0
            latchMask := s.adc.mask
            job := some
              { dies := dies
                temps := dies.map (fun k => (k, (s.die (k / 8) (k % 8)).temp))
                partialFlag := false } } }

/-- R62: what the test DAC places at every converter input at code t, in code steps. -/
def dacLevel (t : Int) : Rat := (t : Rat) / 4

/-- The codes of SWEEP, t from −512 to +511, and the eight of VERIFY (Table 3.3). -/
def sweepCodes : List Int := (upTo 1024).map (fun i : Nat => (i : Int) - 512)
def verifyCodes : List Int := [-448, -320, -192, -64, 64, 192, 320, 448]

/-- The segment n[7:6] that a mean code falls in (R60). -/
def segOf (x : Rat) : Nat := (floorInt ((x + 128) / 64)).toNat

/-- What a fit gives: OFFSET, GAIN and the four segment factors. -/
structure ConvFit where
  offset : Rat
  gain : Rat
  seg : List Rat
  deriving DecidableEq, Repr

/-- Mean of a list; zero of none. -/
def meanQ (l : List Rat) : Rat := if l.isEmpty then 0 else l.foldl (· + ·) 0 / (l.length : Rat)

/-- The fit of SWEEP (R64): points are a level at the converter input and the mean code there. GAIN is fitted by least squares over the
points more than 2 LSB inside the code range, so that (code − OFFSET) × GAIN comes to the level; SEGs is the mean of what the codes of
segment s then still lack, in LSB (log entry 112). -/
def fitConv (offset : Rat) (pts : List (Rat × Rat)) : ConvFit :=
  let l := pts.filter (fun x => decide (-126 < x.2) && decide (x.2 < 125))
  let den := (l.map (fun x => (x.2 - offset) * (x.2 - offset))).foldl (· + ·) 0
  let gain : Rat := if den = 0 then 0 else (l.map (fun x => x.1 * (x.2 - offset))).foldl (· + ·) 0 / den
  let rest (x : Rat × Rat) : Rat := if gain = 0 then 0 else x.1 / gain - (x.2 - offset)
  { offset := offset
    gain := gain
    seg := (upTo 4).map (fun s => meanQ ((l.filter (fun x => segOf x.2 = s)).map rest)) }

/-- A mean code corrected with the factors of a fit. -/
def ConvFit.correct (f : ConvFit) (x : Rat) : Rat := (x + f.seg.getD (segOf x) 0 - f.offset) * f.gain

/-- The fit of a converter in ADC_SELFCAL: OFFSET is its mean code on reset-level inputs (Table 3.3). -/
def calFit (x : CalMeas) : ConvFit := fitConv x.zero ((sweepCodes.map dacLevel).zip x.sweep)

/-- R65: a converter passes. The tests take the fitted values as they are, before they are rounded to their fields (log entry 113). -/
def convPasses (x : CalMeas) : Bool :=
  let f := calFit x
  decide ((7 / 8 : Rat) ≤ f.gain) && decide (f.gain ≤ 9 / 8) && decide (absQ f.offset ≤ 16)
    && f.seg.all (fun q => decide (absQ q ≤ 3 / 2)) && x.allCodes
    && decide (x.verify.length = 8) && (x.verify.zip verifyCodes).all (fun p => decide (absQ (f.correct p.1 - dacLevel p.2) ≤ 1 / 2))
    && decide (x.devs.length = 8) && x.devs.all (fun q => decide (q ≤ 3 / 5))

/-- The factor word of fitted factors (Table 3.2), each rounded to its unit and held to its field. -/
def facWord (x : ConvFit) (bad : Bool) : W64 :=
  let cl (lo hi z : Int) : Int := max lo (min hi z)
  let g := (cl 0 65535 (rneInt (x.gain * 32768))).toNat
  let o := unsigned 12 (cl (-2048) 2047 (rneInt (x.offset * 64)))
  let sg (i : Nat) := unsigned 8 (cl (-128) 127 (rneInt (x.seg.getD i 0 * 64)))
  BitVec.ofNat 64 ((g <<< 48) + (o <<< 36) + bit_ bad 32 + (sg 3 <<< 24) + (sg 2 <<< 16) + (sg 1 <<< 8) + sg 0)

/-- R66: good spares for the bad groups, ascending: spare A first, then B. -/
def assignSpares : List Nat → List Nat → ConvMap → ConvMap
  | [], _, x => x
  | _ :: _, [], x => x
  | g :: t, c :: cs, x =>
    assignSpares t cs (if c = 130 then { x with enA := true, grpA := BitVec.ofNat 8 g }
      else { x with enB := true, grpB := BitVec.ofNat 8 g })

/-- R66: one array is committed, atomically. -/
def commitArray (s : State) (m p : Nat) (temp : W16) (convs : List CalMeas) (dflt : CalMeas) : State :=
  let meas (g : Nat) : CalMeas := (convs.find? (fun x => x.conv = g)).getD { dflt with conv := g }
  let s := (upTo 132).foldl (fun s g =>
    let x := meas g
    s.setFac m p g (facWord (calFit x) (!convPasses x))) s
  let bad := (upTo 130).filter (fun g => !convPasses (meas g))
  let good := [130, 131].filter (fun g => convPasses (meas g))
  let short := decide (good.length < bad.length)
  let s := s.modCal m p (fun y => { y with
    cal := if short then .failed else .valid
    calTemp := temp
    map := assignSpares bad good {}
    committed := true })
  if short then (s.retire m p).logArr m p 3 else s

/-- An array still CALIBRATING becomes INVALID (Table 3.5). -/
def uncal (s : State) (mp : Nat × Nat) : State :=
  s.modCal mp.1 mp.2 (fun x => if x.cal = .calibrating then { x with cal := .invalid } else x)

/-- The dies on which every array is committed (R68). -/
def committedDies (s : State) (l : List Nat) : List Nat :=
  l.filter (fun k => (dieArrays k).all (fun mp => (s.cal mp.1 mp.2).committed))

/-- A named die is powered down while the calibration runs: its arrays are INVALID and the others go on (Table 3.5). -/
def calOff (s : State) (m : Nat) : State :=
  match s.adc.job with
  | none => s
  | some j =>
    let out := j.dies.filter (fun k => k / 8 = m)
    if out.isEmpty then s
    else
      let s := out.foldl (fun s k => (dieArrays k).foldl (fun s mp => s.modCal mp.1 mp.2 (fun x => { x with cal := .invalid })) s) s
      let rest := j.dies.filter (fun k => !out.contains k)
      let j' : CalJob := { dies := rest, temps := j.temps.filter (fun x => rest.contains x.1), partialFlag := true }
      { s with adc := { s.adc with job := some j' } }

/-- A calibration ends: its uncommitted arrays are INVALID, ADC_DONE names the dies done. -/
def endCal (s : State) (j : CalJob) (st : Byte) : State :=
  let s := j.dies.foldl (fun s k => (dieArrays k).foldl uncal s) s
  let s := { s with adc := { s.adc with done := diesMask (s.committedDies j.dies) } }
  s.adcFinish st

/-- Table 3.5: a die whose temperature moved by more than 5 °C since acceptance. -/
def tempMoved (s : State) (j : CalJob) (k : Nat) : Bool :=
  match j.temps.find? (fun x => x.1 = k) with
  | none => false
  | some x => decide (80 < ((s.die (k / 8) (k % 8)).temp.toInt - x.2.toInt).natAbs)

/-- R64, R66: a calibration phase ends. At the end of VERIFY, COMMIT begins with the temperatures of that moment;
in COMMIT the listed arrays, or with `last` every array left, are committed. -/
def selfcalPhaseEnd (s : State) (meas : List ArrMeas) (dflt : CalMeas) (last : Bool) : State :=
  match s.adc.job with
  | none => s
  | some j =>
    if s.adc.phase.toNat < 3 then { s with adc := { s.adc with phase := s.adc.phase + 1 } }
    else if s.adc.phase = 3 then
      let out := j.dies.filter (s.tempMoved j)
      let s := out.foldl (fun s k => (dieArrays k).foldl uncal s) s
      let dies := j.dies.filter (fun k => !out.contains k)
      let j' := { j with
        dies := dies
        temps := dies.map (fun k => (k, (s.die (k / 8) (k % 8)).temp))
        partialFlag := j.partialFlag || !out.isEmpty }
      { s with adc := { s.adc with phase := 4, job := some j' } }
    else
      let todo := if last then
          (j.dies.flatMap dieArrays).filter (fun mp => (s.cal mp.1 mp.2).cal = .calibrating)
        else (meas.map (fun x => (x.m, x.p))).filter (fun mp =>
          j.dies.contains (kDie mp.1 (dieOf mp.2)) && decide ((s.cal mp.1 mp.2).cal = .calibrating))
      let s := todo.foldl (fun s mp =>
        let t := ((j.temps.find? (fun x => x.1 = kDie mp.1 (dieOf mp.2))).map (·.2)).getD 0
        let cs := ((meas.find? (fun x => x.m = mp.1 && x.p = mp.2)).map (·.convs)).getD []
        s.commitArray mp.1 mp.2 t cs dflt) s
      if last then s.endCal j (if j.partialFlag then sAdcPartial else sOK) else s

/-- ADC_ABORT (R68): the running calibration ends with ADC_ABORTED; with no command running it completes with OK. -/
def adcAbort (s : State) : State :=
  let s := s.adcAccept 2
  match s.adc.job with
  | some j => s.endCal j sAdcAborted
  | none => if s.adc.busy then s.adcRefuse sAdcBusy else s.adcRefuse sOK

/-! Factor sets (R70 to R72). -/

/-- The header of Table 3.6 with its marker. -/
def setHeader (s : State) (marker : List Byte) (mask : W32) : List Byte :=
  marker ++ leBytes 2 1 ++ leBytes 2 0 ++ leBytes 4 mask.toNat ++ leBytes 4 0 ++ leBytes 8 s.age.epoch.toNat
    ++ leBytes 8 s.time.toNat
    ++ (upTo 32).flatMap (fun k =>
        let d := s.die (k / 8) (k % 8)
        leBytes 2 (if d.powered && d.valid then d.temp.toNat else 0x8000))
    ++ List.replicate 32 0

/-- One array record of a factor set (Table 3.6): factors and map in force; CAL INVALID for a powered-down die (R71). -/
def facRecord (s : State) (m p : Nat) : List Byte :=
  let c := s.cal m p
  let on := (s.die m (dieOf p)).powered
  leBytes 2 (p % arrPerDie) ++ leBytes 1 (if on then calCode c.cal else 0) ++ leBytes 1 0 ++ leBytes 4 (mapWord c.map)
    ++ leBytes 2 c.calTemp.toNat ++ List.replicate 22 0
    ++ (upTo 132).flatMap (fun g => leBytes 8 (s.fac m p g).toNat)

/-- The factor set of the dies of a mask (R70, R71). -/
def factorSet (s : State) (mask : W32) : List Byte :=
  s.setHeader [0x4B, 0x57, 0x46, 0x43] mask
    ++ (maskDies mask).flatMap (fun k => (dieArrays k).flatMap (fun mp => s.facRecord mp.1 mp.2))

/-- ADC_SAVE (R71). -/
def adcSave (s : State) : State :=
  let s := s.adcAccept 3
  if s.adc.busy then s.adcRefuse sAdcBusy
  else { s with adc := { s.adc with busy := true, phase := 5, latchMask := s.adc.mask, latchBuf := s.adc.buf } }

/-- The last bytes of the set are written, with its check table (R316), and the command completes. -/
def adcSaveComplete (s : State) : State :=
  if s.adc.phase = 5 then
    let s := s.emit (.hostWrite s.adc.latchBuf.toNat (withCheckTable (s.factorSet s.adc.latchMask)))
    { s with adc := { s.adc with done := s.adc.latchMask } }.adcFinish sOK
  else s

/-- ADC_RESTORE (R72). -/
def adcRestore (s : State) : State :=
  let s := s.adcAccept 4
  if s.adc.busy then s.adcRefuse sAdcBusy
  else { s with adc := { s.adc with busy := true, phase := 6, latchMask := s.adc.mask, latchBuf := s.adc.buf } }

/-- Whether every block that bytes o to o + n − 1 of a structure of `len` bytes touch passes its check value. -/
def rangePasses (set : List Byte) (len o n : Nat) : Bool :=
  (upTo (blockCount len)).all (fun k =>
    decide (k < o / 4096) || decide ((o + n - 1) / 4096 < k) || blockPasses set len k)

/-- R130, R72: a die passes the acceptance conditions for a set. -/
def dieAccepts (s : State) (set : List Byte) (k : Nat) : Bool :=
  let d := s.die (k / 8) (k % 8)
  let t := leAt set (32 + 2 * k) 2
  d.valid && decide (t ≠ 0x8000) && decide ((signed 16 t - d.temp.toInt).natAbs ≤ 80)
    && decide (leAt set 16 8 = s.age.epoch.toNat)

/-- New factors and a new map wait for a boundary; `trim` says that they are trim's corrections (R127). A later value replaces
one that waits (R73). -/
def waitFactors (s : State) (m p : Nat) (facs : List (Nat × W64)) (map : Option ConvMap) (trim : Bool) : State :=
  s.modCal m p (fun c => { c with
    pendFac := facs ++ c.pendFac.filter (fun x => !facs.any (fun y => y.1 = x.1))
    trimFac := (if trim then facs.map (·.1) else []) ++ c.trimFac.filter (fun g => !facs.any (fun y => y.1 = g))
    pendMap := match map with | some x => some x | none => c.pendMap
    trimMap := if map.isSome then trim else c.trimMap })

/-- New factors and a new map come into force at once, in place of ones that wait. -/
def forceFactors (s : State) (m p : Nat) (facs : List (Nat × W64)) (map : Option ConvMap) : State :=
  (facs.foldl (fun s gw => s.setFac m p gw.1 gw.2) s).modCal m p (fun c => { c with
    pendFac := c.pendFac.filter (fun x => !facs.any (fun y => y.1 = x.1))
    trimFac := c.trimFac.filter (fun g => !facs.any (fun y => y.1 = g))
    map := match map with | some x => x | none => c.map
    pendMap := if map.isSome then none else c.pendMap
    trimMap := if map.isSome then false else c.trimMap })

/-- R73: new factors and a new map for an array, pending while it is ACTIVE. -/
def putFactors (s : State) (m p : Nat) (facs : List (Nat × W64)) (map : Option ConvMap) : State :=
  if (s.arr m p).st = .active then s.waitFactors m p facs map false else s.forceFactors m p facs map

/-- One array record of a factor set is applied (R72, R73). R72 has each array take the map saved and names no test of it; the model
applies one that breaks R54 too (log entry 114). -/
def applyFac (s : State) (set : List Byte) (o m p : Nat) : State :=
  let s := s.modCal m p (fun c => { c with
    cal := calOf (leAt set (o + 2) 1)
    calTemp := BitVec.ofNat 16 (leAt set (o + 8) 2) })
  s.putFactors m p ((upTo 132).map (fun g => (g, facMask (BitVec.ofNat 64 (leAt set (o + 32 + 8 * g) 8)))))
    (some (mapOfWord (leAt set (o + 4) 4)))

/-- R72: whether a die record stands whole: its block checks and its array numbers. -/
def dieRecordOk (set : List Byte) (len o size n : Nat) : Bool :=
  rangePasses set len o (size * n) && (upTo n).all (fun a => decide (leAt set (o + size * a) 2 = a))

/-- R72: ADC_RESTORE ends; `set` is the set read, with its check table, or none for a link error. -/
def adcRestoreComplete (s : State) (set : Option (List Byte)) : State :=
  if s.adc.phase ≠ 6 then s
  else
    let set := set.getD []
    let mask : W32 := BitVec.ofNat 32 (leAt set 8 4)
    let len := 128 + (maskDies mask).length * 2367488
    if !(decide (leAt set 0 4 = 0x4346574B) && decide (leAt set 4 2 = 1) && blockPasses set len 0) then
      s.adcFinish sAdcBadSet
    else
      let named := maskDies s.adc.latchMask
      let try_ := (maskDies mask).filter (fun k => named.contains k)
      let r := try_.foldl (fun (sd : State × List Nat) k =>
        let o := 128 + ((maskDies mask).filter (fun j => decide (j < k))).length * 2367488
        if dieRecordOk set len o 1088 arrPerDie && sd.1.dieAccepts set k then
          ((dieArrays k).foldl (fun s mp => s.applyFac set (o + 1088 * (mp.2 % arrPerDie)) mp.1 mp.2) sd.1, sd.2 ++ [k])
        else sd) (s, [])
      let s := { r.1 with adc := { r.1.adc with done := diesMask r.2 } }
      s.adcFinish (if named.all (fun k => r.2.contains k) then sOK else sAdcPartial)

/-! ADC_FACTOR and ADC_MAP (R54, R73, R74). -/

/-- The array and converter that ADC_SEL names (Table 3.13). -/
def adcSelMast (s : State) : Nat := bitsOf s.adc.sel.toNat 30 2
def adcSelArr (s : State) : Nat := bitsOf s.adc.sel.toNat 15 15
def adcSelConv (s : State) : Nat := bitsOf s.adc.sel.toNat 0 8
def adcSelOk (s : State) : Bool := decide (s.adcSelArr < arrPerMast) && decide (s.adcSelConv ≤ 131)

def adcReject (s : State) : State := { s with adc := { s.adc with wrRej := true } }

/-- A 64-bit write of ADC_FACTOR (R73, Table 3.5). -/
def adcFactor (s : State) (v : W64) : State :=
  if !s.adcSelOk then s
  else if (s.cal s.adcSelMast s.adcSelArr).cal = .calibrating then s.adcReject
  else s.putFactors s.adcSelMast s.adcSelArr [(s.adcSelConv, facMask v)] none

/-- A write of ADC_MAP (R54, R73, Table 3.5). -/
def adcMap (s : State) (v : W32) : State :=
  if !s.adcSelOk then s
  else if (s.cal s.adcSelMast s.adcSelArr).cal = .calibrating || !mapOk (mapOfWord v.toNat) then s.adcReject
  else s.putFactors s.adcSelMast s.adcSelArr [] (some (mapOfWord v.toNat))

end State

end Sys2Proof.Machine
end

