-- ==== Sys2Proof/Machine/Splice.lean ====
section
/-! DEFINITION. The splice path (chapter 4): splice regions and their commands, the input stage, residual sums,
designated channels, the corrected column output. -/

namespace Sys2Proof.Machine

/-! Splice regions (Tables 4.1 to 4.3). -/

/-- Cell scale s_j of a region, its bits. -/
def regScale (r : List Byte) (j : Nat) : W32 := BitVec.ofNat 32 (leAt r (4 * j) 4)
/-- Column descriptor j. -/
def regDesc (r : List Byte) (j : Nat) : Nat := leAt r (4096 + 4 * j) 4
def regCount (r : List Byte) (j : Nat) : Nat := bitsOf (regDesc r j) 16 6
def regStart (r : List Byte) (j : Nat) : Nat := bitsOf (regDesc r j) 0 11
/-- Residual entry i: row and residual. -/
def regEntry (r : List Byte) (i : Nat) : Nat × Int :=
  let w := leAt r (8192 + 4 * i) 4
  (bitsOf w 8 10, signed 8 w)

/-- A binary32 word that is positive, finite and normal (R83, R104). -/
def posNormal (w : W32) : Bool := decide (0x00800000 ≤ w.toNat) && decide (w.toNat < 0x7F800000)

/-- R83: the column limit of a level map. -/
def countLimit (l : BitVec 2) : Nat := if l = 0 then 32 else 48

/-- R89: a COUNT above its limit, or a START + COUNT above 2,048. -/
def regOver (r : List Byte) (l : BitVec 2) : Bool :=
  (upTo 1024).any (fun j => decide (countLimit l < regCount r j) || decide (2048 < regStart r j + regCount r j))

/-- Two entry ranges are disjoint. -/
def rangesApart (a b : Nat × Nat) : Bool := decide (a.1 + a.2 ≤ b.1) || decide (b.1 + b.2 ≤ a.1)

/-- Ranges that are disjoint in pairs. -/
def allApart : List (Nat × Nat) → Bool
  | [] => true
  | a :: t => t.all (rangesApart a) && allApart t

/-- R83: the other conditions of a well-formed region. -/
def regFormed (r : List Byte) : Bool :=
  (upTo 1024).all (fun j => posNormal (regScale r j)
      && decide (regDesc r j < 4194304) && decide (bitsOf (regDesc r j) 11 5 = 0))
    && (upTo 2048).all (fun i => decide (leAt r (8192 + 4 * i) 4 < 262144))
    && allApart (((upTo 1024).map (fun j => (regStart r j, regCount r j))).filter (fun x => decide (x.2 ≠ 0)))

/-- R83: the entry total, and the largest COUNT. -/
def regTotal (r : List Byte) : Nat := ((upTo 1024).map (regCount r)).foldl (· + ·) 0
def regMax (r : List Byte) : Nat := ((upTo 1024).map (regCount r)).foldl max 0

/-- R82: the residual sum R_j over the activations of the slot's rows. -/
def residual (r : List Byte) (a : List Int) (j : Nat) : Int :=
  ((upTo (regCount r j)).map (fun i =>
    let e := regEntry r (regStart r j + i)
    a.getD e.1 0 * e.2)).foldl (· + ·) 0

/-! The input stage (R77 to R79). -/

/-- What the input stage makes of one token: the scale exponent, the activations, and the two markings. -/
structure Stage where
  e : Int
  acts : List Int
  zeroScale : Bool
  nonfinite : Bool
  deriving DecidableEq, Repr

/-- R77 to R79: the input stage over the K channels of a token, `s` slots, designated channels `d`. -/
def inputStage (x : List Ext) (k s : Nat) (d : List Nat) : Stage :=
  let used := (upTo k).filter (fun i => !d.contains i)
  let vals := used.map (fun i => x.getD i Ext.zero)
  if vals.any (fun v => !v.isFinite) then ⟨0, List.replicate (1024 * s) 0, false, true⟩
  else
    let m := vals.foldl (fun m v => max m (absQ v.toRat)) 0
    if m = 0 then ⟨0, List.replicate (1024 * s) 0, true, false⟩
    else
      let e := scaleExp m
      ⟨e, (upTo (1024 * s)).map (fun i =>
        if i < k ∧ !d.contains i then rneInt ((x.getD i Ext.zero).toRat / pow2 e) else 0), false, false⟩

/-- The value of a master code: INT8 (FMT 4) or FP8 E4M3 (R85, R195). -/
def masterValue (fmt q : Nat) : Ext := elemValue (if fmt = 4 then 4 else 2) q

/-- R85: the designated-channel term A_j from an outlier table. -/
def designated (tab : List Byte) (fmt : Nat) (d : List Nat) (x : List Ext) (j : Nat) : Ext :=
  let t := f32 (BitVec.ofNat 32 (leAt tab (32768 + 4 * j) 4))
  Ext.sum ((d.mapIdx (fun i c =>
    Ext.mul (Ext.mul (x.getD c Ext.zero) (masterValue fmt (leAt tab (1024 * i + j) 1))) t)))

/-- R75, R78: the corrected column output of a slot served by one array. -/
def colOut (st : Stage) (sj : W32) (y : Rat) (r : Int) (a : Ext) : W32 :=
  if st.nonfinite then qNaN
  else if st.zeroScale then rne32 a
  else rne32 (Ext.add (Ext.mul (Ext.mul (Ext.ofRat (pow2 st.e)) (f32 sj)) (Ext.ofRat (y + (r : Rat)))) a)

/-- R87: the corrected column output of a doubled slot served by both its arrays. -/
def colOut2 (st : Stage) (sa : W32) (ya : Rat) (ra : Int) (sb : W32) (yb : Rat) (rb : Int) (a : Ext) : W32 :=
  if st.nonfinite then qNaN
  else if st.zeroScale then rne32 a
  else
    let ta := Ext.mul (f32 sa) (Ext.ofRat (ya + (ra : Rat)))
    let tb := Ext.mul (f32 sb) (Ext.ofRat (yb + (rb : Rat)))
    rne32 (Ext.add (Ext.mul (Ext.ofRat (pow2 st.e / 2)) (Ext.add ta tb)) a)

namespace State

/-! LOAD and CLEAR (R89 to R95). -/

/-- A splice command completes at once with a status. -/
def splRefuse (s : State) (m p : Nat) (host : Bool) (st : Byte) : State :=
  let s := s.modSpl m p (fun x => { x with status := st })
  if host then s.cause gArr else s

/-- The LOAD in progress completes. -/
def splFinish (s : State) (m p : Nat) (st : Byte) : State :=
  let h := (s.spl m p).byHost
  let s := s.modSpl m p (fun x => { x with status := st, busy := false, byHost := false })
  if h then s.cause gArr else s

/-- A region, or the outlier table of a mast-wide ply, is written anew, and its bad words with it (R93). -/
def healWords (s : State) (outlier : Bool) (m x : Nat) : State :=
  { s with integ := { s.integ with
      badWords := s.integ.badWords.filter (fun w => !(w.outlier = outlier && w.mast = m && w.owner = x)) } }

/-- The region becomes EMPTY, its contents the reset values (R81, R89). -/
def splEmpty (s : State) (m p : Nat) : State :=
  ((s.modSpl m p (fun x => { x with st := .empty, maxCount := 0, entries := 0, lmap := 0 })).setRegion m p []).healWords false m p

/-- SPL_LOAD, with the refusals of R95 in their order. -/
def splLoad (s : State) (m p : Nat) (lmap : BitVec 2) (host : Bool) : State :=
  let a := s.arr m p
  let x := s.spl m p
  if host && a.slot.isSome then s.splRefuse m p host sArrOwned
  else if x.busy then s.splRefuse m p host sArrBusy
  else if a.st = .active then s.splRefuse m p host sArrActive
  else if a.st = .retired then s.splRefuse m p host sArrRetired
  else if lmap = 3 || !srcOk m x.src.toNat 16384 then s.splRefuse m p host sBadConfig
  else s.modSpl m p (fun x => { x with st := .loading, busy := true, latchLmap := lmap, latchSrc := x.src, byHost := host, image := none })

/-- SPL_CLEAR. -/
def splClear (s : State) (m p : Nat) (host : Bool) : State :=
  let a := s.arr m p
  if host && a.slot.isSome then s.splRefuse m p host sArrOwned
  else if (s.spl m p).busy then s.splRefuse m p host sArrBusy
  else if a.st = .active then s.splRefuse m p host sArrActive
  else if a.st = .retired then s.splRefuse m p host sArrRetired
  else (s.splEmpty m p).splRefuse m p host sOK

/-- What a LOAD's image blocks give: a block that passes only when it is read again is a transient event (R317). -/
def splBlocks (s : State) (addr : Nat) (blocks : List (Bool × Bool)) : State :=
  (blocks.take 4).foldl (fun s b => if b.1 && b.2 then s.transient (blockInfoAt 3 addr) else s) s

/-- R89: a LOAD's image has been read; `blocks` says of each of its four blocks whether it passes its check value, and whether only
when read again. Firmware rebuilds a derived image whose block fails twice, and the LOAD runs again (Table 14.2). -/
def splLoadComplete (s : State) (m p : Nat) (blocks : List (Bool × Bool)) : State :=
  let x := s.spl m p
  if !x.busy then s
  else
    let img := s.imageBytes m x.image x.latchSrc.toNat (if x.image.isSome then 1048576 else 0) 16384
    let s := s.splBlocks x.latchSrc.toNat blocks
    if !((upTo 4).all (fun i => (blocks.getD i (true, false)).1)) then
      let s := ((s.log .repeated (blockInfoAt 3 x.latchSrc.toNat)).splEmpty m p).splFinish m p sBadImage
      match x.image with
      | none => s
      | some r =>
        let w := ((s.arr m p).fw.map (·.write)).getD false
        let again : FwJob := { image := some r, lmap := x.latchLmap, write := w, rebuild := true }
        s.modArr m p (fun a => { a with fw := some again })
    else if regOver img x.latchLmap then (s.splEmpty m p).splFinish m p sSplOver
    else if !regFormed img then (s.splEmpty m p).splFinish m p sSplBad
    else
      (((s.setRegion m p img).healWords false m p).modSpl m p (fun x => { x with
        st := .valid
        lmap := x.latchLmap
        maxCount := BitVec.ofNat 6 (regMax img)
        entries := BitVec.ofNat 12 (regTotal img) })).splFinish m p sOK

/-- R93: a single-bit error of a mast's splice SRAM (memory 2) or outlier store (memory 3), at a word address ÷ 8: corrected, counted and
logged. -/
def splSingle (s : State) (m memory addr : Nat) : State :=
  (s.modMast m (fun x => { x with splSec := satAdd x.splSec 1 })).log .corrected
    { typ := tMemoryEcc, source := m, detail := (memory <<< 60) + addr }

/-- R93: the words that a scrub of a mast's splice SRAM and outlier store corrected. -/
def scrub (s : State) (m : Nat) (words : List (Nat × Nat)) : State := words.foldl (fun s w => s.splSingle m w.1 w.2) s

/-- R93: a double-bit error met in a step is counted; the word stays as it is, so that every later step meets it too. -/
def splDouble (s : State) (w : BadWord) : State :=
  let s := s.modMast w.mast (fun x => { x with splDed := satAdd x.splDed 1 })
  { s with integ := { s.integ with
      badWords := if s.integ.badWords.contains w then s.integ.badWords else s.integ.badWords ++ [w] } }

/-! The analogue side (R24 to R31, R60). -/

/-- Digit d_k of an activation (R24). -/
def digit (a : Int) (k : Nat) : Nat := ((a + 128).toNat >>> (2 * k)) % 4

/-- P_k of a physical column: the sum over the rows of digit times cell value (R25). -/
def colP (s : State) (m p c : Nat) (a : List Int) (k : Nat) : Int :=
  ((upTo 1024).map (fun i => (digit (a.getD i 0) k : Int) * cellValue (s.arr m p).lmap ((s.row m p i).getD c 0))).foldl
    (· + ·) 0

/-- R29: the nominal code at gain G, saturated. -/
def nominalCode (g : Rat) (pk : Int) (span : Nat) : Int :=
  max (-128) (min 127 (rneInt (g * (pk : Rat) / ((2 ^ span : Nat) : Rat))))

/-- The raw code that a converter latches (R58, R59): an unresolved bit is set to 1 and every lower bit to 0. -/
def codeOf (x : RawCode) : Int :=
  let n := match x.unresolved with
    | none => x.n.toNat
    | some b => x.n.toNat >>> (b.val + 1) <<< (b.val + 1) + 2 ^ b.val
  (n : Int) - 128

/-- A code that met an unresolved bit decision, on a physical column of its array, is counted (R58). -/
def noteCode (s : State) (m c : Nat) (x : RawCode) : State :=
  if x.unresolved.isSome then s.metastable m (x.p, convOf (s.cal m x.p).map (c / 8)) else s

/-- A raw code of a token step: as the operand lists it, else the nominal code at G = 0.95 (log entry 29). -/
def rawCode (s : State) (m p c : Nat) (a : List Int) (k : Nat) (listed : List RawCode) : Int :=
  match listed.find? (fun x => x.p = p && x.col = c && x.phase = k) with
  | some x => codeOf x
  | none => nominalCode (19 / 20) (s.colP m p c a k) (s.arr m p).span.toNat

/-- The corrected code of logical column j (1,024 and 1,025 for the reference columns), in 1/256 code (R60). -/
def corrCode (s : State) (m p j : Nat) (c : Int) : Int :=
  let w := s.colWord m p j
  let conv := convOf (s.cal m p).map (s.physOf m p j / 8)
  correct (s.fac m p conv) w.val.cg w.val.co c

/-- R30: the array partial from the four raw codes of a logical column. -/
def arrayPartial (s : State) (m p j : Nat) (raw : List Int) : Rat :=
  let c (k : Nat) : Int := s.corrCode m p j (raw.getD k 0)
  ((2 ^ (s.arr m p).span.toNat : Nat) : Rat) * (((c 0 + 4 * c 1 + 16 * c 2 + 64 * c 3 : Int) : Rat) / 256)
    - 128 * ((s.sum m p (s.physOf m p j)).w.toInt : Rat)

/-- R29: saturated codes of the four phases: n = 0 or 255. -/
def saturatedCodes (raw : List Int) : Nat := (raw.filter (fun c => decide (c = -128) || decide (c = 127))).length

end State

end Sys2Proof.Machine
end

