-- ==== Sys2Proof/Machine/Image.lean ====
section
/-! DEFINITION. Derived images (R193 to R197, R136): the array image and splice region that firmware plans from a PLY
tensor of the master copy. -/

namespace Sys2Proof.Machine

/-- One weight planned at a level map (R136): its level index and its residual in cell units. -/
def planWeight (l : BitVec 2) (w : Int) : Int × Int :=
  let n := max (-mapH l) (min (mapH l) (rneInt ((w : Rat) / (mapM l : Rat))))
  (n, w - mapM l * n)

/-- R136: an entry is made when |r| exceeds M/2. -/
def needsEntry (l : BitVec 2) (r : Int) : Bool := decide (mapM l < 2 * (r.natAbs : Int))

/-- R197: a residual in entries of magnitude at most 127. -/
def splitRes (r : Int) : List Int :=
  let n := r.natAbs
  let sg : Int := if r < 0 then -1 else 1
  List.replicate (n / 127) (sg * 127) ++ (if n % 127 = 0 then [] else [sg * ((n % 127 : Nat) : Int)])

/-- R195: the planned value of a master code, if it is an integer. -/
def planned (fmt q : Nat) (shift : Int) : Option Int :=
  match masterValue fmt q with
  | .num v _ =>
    let w := v * pow2 (-shift)
    if w.den = 1 then some w.num else none
  | _ => none

/-- A PLY tensor in HBM (Table 9.4), as the bytes it holds. -/
structure PlyTensor where
  fmt : Nat
  bytes : List Byte
  deriving DecidableEq, Repr

namespace PlyTensor
def t (x : PlyTensor) (j : Nat) : W32 := BitVec.ofNat 32 (leAt x.bytes (4 * j) 4)
def c (x : PlyTensor) (j : Nat) : W32 := BitVec.ofNat 32 (leAt x.bytes (4096 + 4 * j) 4)
def b (x : PlyTensor) (j : Nat) : W32 := BitVec.ofNat 32 (leAt x.bytes (8192 + 4 * j) 4)
def shift (x : PlyTensor) (j : Nat) : Int := signed 8 (leAt x.bytes (12288 + j) 1)
/-- Master code of row i of slot k, column j. -/
def code (x : PlyTensor) (k i j : Nat) : Nat := leAt x.bytes (16384 + (1024 * k + i) * 1024 + j) 1
/-- The cell scale s_j = t_j × 2^SHIFT_j (R195), exact. -/
def s (x : PlyTensor) (j : Nat) : Rat := (f32 (x.t j)).toRat * pow2 (x.shift j)
/-- The bits of s_j. -/
def sBits (x : PlyTensor) (j : Nat) : W32 := rne32 (Ext.ofRat (x.s j))
end PlyTensor

/-- A row that carries no weight in the arrays: a designated channel's, or one at or above K (R197). -/
def idleRow (kCh : Nat) (dch : List Nat) (k i : Nat) : Bool :=
  decide (kCh ≤ 1024 * k + i) || dch.contains (1024 * k + i)

/-- The planned weights of one column of slot k: level indices top to bottom, and entries (row, residual) ascending. -/
def planColumn (x : PlyTensor) (kCh : Nat) (dch : List Nat) (l : BitVec 2) (k j : Nat) : List Int × List (Nat × Int) :=
  let ws := (upTo 1024).map (fun i =>
    if idleRow kCh dch k i then (0, 0) else planWeight l ((planned x.fmt (x.code k i j) (x.shift j)).getD 0))
  (ws.map (·.1),
   (ws.mapIdx (fun i lr => if needsEntry l lr.2 then (splitRes lr.2).map (fun r => (i, r)) else [])).flatten)

/-- R196: the conditions of WIMG_PLAN that do not depend on the level map. -/
def planFails (x : PlyTensor) (kCh k : Nat) : Bool :=
  (upTo 1024).any (fun j =>
    !posNormal (x.t j) || !posNormal (x.sBits j) || !decide (f32 (x.sBits j) = Ext.ofRat (x.s j))
      || (upTo 1024).any (fun i =>
        (decide (kCh ≤ 1024 * k + i) && decide (x.code k i j ≠ 0))
          || (planned x.fmt (x.code k i j) (x.shift j)).isNone
          || (masterValue x.fmt (x.code k i j)).isNan))

/-- A planned derived image: the array image, the splice region, and whether its entries pass the limits of the map. -/
structure Derived where
  image : List Byte
  region : List Byte
  excess : Bool
  deriving DecidableEq, Repr

/-- R193, R197: the derived image of slot k at a level map. -/
def deriveImage (x : PlyTensor) (kCh : Nat) (dch : List Nat) (l : BitVec 2) (k : Nat) : Derived :=
  let cols := (upTo 1024).map (planColumn x kCh dch l k)
  let counts := cols.map (fun c => c.2.length)
  let starts := (counts.foldl (fun (a : Nat × List Nat) n => (a.1 + n, a.2 ++ [a.1])) (0, [])).2
  let total := counts.foldl (· + ·) 0
  let ents := cols.flatMap (fun c => c.2)
  { image := (upTo 1024).flatMap (fun i => cols.map (fun c => BitVec.ofInt 8 (c.1.getD i 0)))
    region := slice ((upTo 1024).flatMap (fun j => leBytes 4 (x.sBits j).toNat)
      ++ (counts.zip starts).flatMap (fun cs => leBytes 4 ((cs.1 <<< 16) + (if cs.2 < 2048 then cs.2 else 0)))
      ++ ents.flatMap (fun e => leBytes 4 ((e.1 <<< 8) + unsigned 8 e.2))) 0 16384
    excess := counts.any (fun n => decide (countLimit l < n)) || decide (2048 < total) }

/-- R104, R196: the fuse values of a ply, as its panel enables them. -/
def fuseFails (x : PlyTensor) (scaleEn biasEn : Bool) : Bool :=
  (upTo 1024).any (fun j =>
    let c := (x.c j).toNat % 2147483648
    (scaleEn && (decide (c < 0x00800000) || decide (0x7F800000 ≤ c))) || (biasEn && !(f32 (x.b j)).isFinite))

/-- R84: the outlier table of a ply: the codes of its designated channels in list order, then the column scales. -/
def outlierTable (x : PlyTensor) (dch : List Nat) : List Byte :=
  slice (dch.flatMap (fun ch => (upTo 1024).map (fun j => BitVec.ofNat 8 (x.code (ch / 1024) (ch % 1024) j)))) 0 32768
    ++ (upTo 1024).flatMap (fun j => leBytes 4 (x.t j).toNat)

/-- R104: the fuse-store entry of a ply: c_j, then b_j. -/
def fuseEntry (x : PlyTensor) : List Byte :=
  (upTo 1024).flatMap (fun j => leBytes 4 (x.c j).toNat) ++ (upTo 1024).flatMap (fun j => leBytes 4 (x.b j).toNat)

end Sys2Proof.Machine
end

