-- ==== Sys2Proof/Machine/Slots.lean ====
section
/-! DEFINITION. Which ply, K slot and derived image a physical array stands for: the slot entries of a context's PLY
panels (R151, R156, R193). -/

namespace Sys2Proof.Machine

namespace State

/-- The derived image that firmware plans for a slot at a level map, with whether R196 fails it. -/
def deriveSlot (s : State) (c m x : Nat) (l : BitVec 2) : Option (Derived × Bool) :=
  match s.useOf c m x with
  | none => none
  | some u =>
    match s.tensorOf c u.ply.tensor with
    | none => none
    | some t =>
      let pt : PlyTensor := ⟨t.fmt, s.tensorBytes c t⟩
      some (deriveImage pt u.ply.k u.ply.dch l u.k, planFails pt u.ply.k u.k)

/-- A context in reload mode (R184). -/
def isReload (s : State) (c : Nat) : Bool := ((s.ctx c).sect.map (·.panel.reload)).getD false

/-- Slots of one half on a mast (R185). -/
def halfSlots (s : State) (c m : Nat) : Nat := (((s.ctx c).sect.map (fun x => x.panel.slots.getD m 0)).getD 0) / 2

/-- The slot whose derived image an array holds (R185). -/
def imageSlot (s : State) (m : Nat) (r : SlotRef) : Nat :=
  if s.isReload r.ctx ∧ s.halfSlots r.ctx m ≤ r.slot then r.slot - s.halfSlots r.ctx m else r.slot

/-- Firmware builds a slot's derived image into HBM at a level map, and records its digest (R325). -/
def buildDerived (s : State) (c m x : Nat) (l : BitVec 2) (d : Derived) : State :=
  match s.derivedAt c m x with
  | none => s
  | some (k, o) =>
    let s := (s.regionWrite c k o d.image).regionWrite c k (o + 1048576) d.region
    s.modCtx c (fun y => { y with
      digests := (m, x, l, shakeDigest (d.image ++ d.region)) :: y.digests.filter (fun z => !(z.1 = m && z.2.1 = x)) })

/-- The level map and the recorded digest of a slot's derived image in HBM. -/
def builtImage (s : State) (c m x : Nat) : Option (BitVec 2 × List Byte) :=
  ((s.ctx c).digests.find? (fun z => z.1 = m && z.2.1 = x)).map (·.2.2)

/-- Firmware rebuilds a derived image from the master copy, at a level map that it fits (R193). -/
def rebuildImage (s : State) (c m x : Nat) (l : BitVec 2) : State :=
  match s.deriveSlot c m x l with
  | some (d, _) => if d.excess then s else s.buildDerived c m x l d
  | none => s

/-- The SPAN of a slot (R151). -/
def slotSpan (s : State) (c m x : Nat) : BitVec 4 := BitVec.ofNat 4 (((s.useOf c m x).map (·.ply.span)).getD 8)

/-- The target level map of an array's group (R134, R136). -/
def targetMap (s : State) (m p : Nat) : BitVec 2 := (s.ageGrp m (groupOf p)).lmap

/-- The image that an array holds, or is being given (R126). -/
def imageToBe (s : State) (m p : Nat) : Option SlotRef :=
  let a := s.arr m p
  let now_ := match a.write with
    | some j => j.image
    | none => a.image
  match a.fw with
  | some j => if j.write then j.image else now_
  | none => now_

/-- A restart rewrite of an ACTIVE array from its slot's derived image: no command issues it, and the command registers stay as they
are (R340, Table 2.12). -/
def restartWrite (s : State) (m p c x : Nat) (l : BitVec 2) : State :=
  match s.derivedAt c m x with
  | none => s
  | some (k, o) =>
    let was := s.arr m p
    let s := s.modArr m p (fun a => { a with
      src := BitVec.ofNat 64 (hbmOf k (s.regionAddr c k o))
      cfgLmap := l
      cfgSpan := s.slotSpan c m x })
    (s.startWrite m p true).modArr m p (fun a => { a with
      src := was.src
      cfgLmap := was.cfgLmap
      cfgSpan := was.cfgSpan
      write := a.write.map (fun j => { j with image := some ⟨c, x⟩, digest := ((s.builtImage c m x).map (·.2)).getD [] }) })

/-- Firmware issues the WRITE of its job: from the derived image of a slot, or of the standby pattern at SPAN 8 (R122, R126, R201). -/
def fwIssue (s : State) (m p : Nat) (j : FwJob) : State :=
  let issue (s : State) (src : W64) (span : BitVec 4) : State :=
    (s.modArr m p (fun a => { a with
      src := src
      cfgLmap := j.lmap
      cfgSpan := span
      cmdLast := 1
      byHost := false })).startWrite m p false
  match j.image with
  | none => (issue s (s.arr m p).src 8).modArr m p (fun a => { a with write := a.write.map (fun w => { w with pattern := true }) })
  | some r =>
    match s.derivedAt r.ctx m r.slot with
    | none => s
    | some (k, o) =>
      (issue s (BitVec.ofNat 64 (hbmOf k (s.regionAddr r.ctx k o))) (s.slotSpan r.ctx m r.slot)).modArr m p (fun a => { a with
        write := a.write.map (fun w => { w with image := some r, digest := ((s.builtImage r.ctx m r.slot).map (·.2)).getD [] }) })

/-- Firmware issues the LOAD of its job (R89, R126). -/
def fwLoad (s : State) (m p : Nat) (j : FwJob) : State :=
  match j.image with
  | none => s
  | some r =>
    match s.derivedAt r.ctx m r.slot with
    | none => s
    | some (k, o) =>
      s.modSpl m p (fun y => { y with
        src := BitVec.ofNat 64 (hbmOf k (s.regionAddr r.ctx k (o + 1048576)))
        st := .loading
        busy := true
        latchLmap := j.lmap
        latchSrc := BitVec.ofNat 64 (hbmOf k (s.regionAddr r.ctx k (o + 1048576)))
        byHost := false
        image := some r })

/-- Firmware's job on an array goes on: a lost image is rebuilt; then each command is issued as soon as none runs before it there
(ARR_BUSY), and the array is not ACTIVE (ARR_ACTIVE). A RETIRED array takes neither (R50, R91). -/
def fwNext (s : State) (m p : Nat) : State :=
  let a := s.arr m p
  match a.fw with
  | none => s
  | some j =>
    let s := match j.image with
      | some r => if j.rebuild then s.rebuildImage r.ctx m r.slot j.lmap else s
      | none => s
    let idle := decide (a.st ≠ .active) && decide (a.st ≠ .retired)
    let w := j.write && idle && !a.cmdBusy && a.write.isNone
    let l := j.load && idle && !(s.spl m p).busy
    let s := if w then s.fwIssue m p j else s
    let s := if l then s.fwLoad m p j else s
    let rest := { j with write := j.write && !w, load := j.load && !l, rebuild := false }
    s.modArr m p (fun a => { a with
      fw := if decide (a.st ≠ .retired) && (rest.write || rest.load) then some rest else none })

/-- Firmware takes up a job on an array, in place of one it had there. -/
def fwAsk (s : State) (m p : Nat) (j : FwJob) : State := (s.modArr m p (fun a => { a with fw := some j })).fwNext m p

/-- The level map at which firmware can write a slot's derived image: the one asked for, or the one that the image stands at in HBM
where the plan of the former exceeds its bounds (R83, R136). -/
def fitMap (s : State) (c m x : Nat) (l : BitVec 2) : BitVec 2 :=
  match s.builtImage c m x with
  | none => l
  | some b =>
    if b.1 = l then l
    else match s.deriveSlot c m x l with
      | some (d, _) => if d.excess then b.1 else l
      | none => b.1

/-- Firmware writes an array from the derived image of a slot, and loads its region (R126, R185, R201). The image is first built at
the level map asked for, where it stands in HBM at another one (R193). -/
def firmwareWrite (s : State) (m p c x : Nat) (l : BitVec 2) : State :=
  let l := s.fitMap c m x l
  let other := decide ((s.builtImage c m x).map (·.1) ≠ some l)
  s.fwAsk m p { image := some ⟨c, x⟩, lmap := l, rebuild := other }

/-- Firmware writes an array with the standby pattern, at its group's target map and SPAN 8 (R122). -/
def standbyWrite (s : State) (m p : Nat) : State :=
  s.fwAsk m p { image := none, lmap := s.targetMap m p, load := false }

/-- The array is the incoming one of a pending swap (R126). -/
def booked (s : State) (m y : Nat) : Bool := s.trims.any (fun kx => decide (kx.1 / arrPerMast = m) && decide (kx.2.swap = some y))

/-- Firmware keeps the standby of a spare group READY with the standby pattern, at the group's target map (R122): it writes a standby
that is not, once that is in no slot and in no swap. When it does so is a choice of the model: at the end of each restore cycle, and
after a swap (log entry 110). -/
def keepStandby (s : State) (m g : Nat) : State :=
  match s.standbyOf m g with
  | none => s
  | some y =>
    let a := s.arr m y
    let kept := decide (a.st = .ready) && a.pattern && decide (a.lmap = (s.ageGrp m g).lmap)
    let able := (decide (a.st = .ready) || decide (a.st = .blank)) && (s.die m (dieOf y)).powered && a.slot.isNone && a.fw.isNone
      && !s.booked m y
    if able && !kept then s.standbyWrite m y else s

end State

end Sys2Proof.Machine
end

