-- ==== Sys2Proof/Machine/Prog.lean ====
section
/-! DEFINITION. The layer program (R162, R167, R168, Table 8.1): the fields of an operation, streams, bodies, the place of an
operation in its stream. -/

namespace Sys2Proof.Machine

/-! Fields of an operation, from the 128-bit number its 16 bytes spell. -/
def opCode (o : Nat) : Nat := bitsOf o 0 8
def opGroup (o : Nat) : Nat := bitsOf o 12 4
def opMast (o : Nat) : Nat := bitsOf o 10 2
def opFixed (o : Nat) : Bool := bitsOf o 8 1 = 1
def opFmtD (o : Nat) : Nat := bitsOf o 20 3
def opFmtS (o : Nat) : Nat := bitsOf o 16 3
def opWidth (o : Nat) : Nat := bitsOf o 32 16
def opDst (o : Nat) : Nat := bitsOf o 48 16
def opSrcA (o : Nat) : Nat := bitsOf o 64 16
/-- 16-bit fields at bytes 10 and 12, byte fields at 12 to 15. -/
def opA10 (o : Nat) : Nat := bitsOf o 80 16
def opA12 (o : Nat) : Nat := bitsOf o 96 16
def opA14 (o : Nat) : Nat := bitsOf o 112 16
def opB12 (o : Nat) : Nat := bitsOf o 96 8
def opB13 (o : Nat) : Nat := bitsOf o 104 8
def opB14 (o : Nat) : Nat := bitsOf o 112 8
def opB15 (o : Nat) : Nat := bitsOf o 120 8

/-! Operation codes (Table 8.3). -/
def cPlyMvm : Nat := 0x01
def cSplice : Nat := 0x02
def cAttend : Nat := 0x03
def cExpand : Nat := 0x04
def cNorm : Nat := 0x05
def cRope : Nat := 0x06
def cAct : Nat := 0x07
def cAdd : Nat := 0x08
def cScale : Nat := 0x09
def cSend : Nat := 0x0A
def cRecv : Nat := 0x0B
def cGather : Nat := 0x0C
def cLogits : Nat := 0x0D
def cSample : Nat := 0x0E
def cCheck : Nat := 0x0F
def cBarrier : Nat := 0x10
def cRepeat : Nat := 0x11

/-- The stream (g, m) of a program: operation numbers with the operations, in panel order (R162). -/
def streamOps (prog : List Nat) (g m : Nat) : List (Nat × Nat) :=
  ((prog.mapIdx (fun i o => (i, o))).filter (fun x => decide (opGroup x.2 = g) && decide (opMast x.2 = m)))

/-- The index of the REPEAT in a stream, if it has one. -/
def repeatAt (l : List (Nat × Nat)) : Option Nat :=
  let i := l.findIdx (fun x => opCode x.2 = cRepeat)
  if i < l.length then some i else none

/-- The index of the first operation of the body: the BODY operations before the REPEAT (R167). -/
def bodyStart (l : List (Nat × Nat)) : Nat :=
  match repeatAt l with
  | some r => r - opA10 ((l.getD r (0, 0)).2)
  | none => 0

/-- The strides of a stream's REPEAT: TENSOR_STRIDE and PLY_STRIDE. -/
def strides (l : List (Nat × Nat)) : Nat × Nat :=
  match repeatAt l with
  | some r => (opA12 ((l.getD r (0, 0)).2), opA14 ((l.getD r (0, 0)).2))
  | none => (0, 0)

/-- An operation of the body is between its start and the REPEAT. -/
def inBody (l : List (Nat × Nat)) (pos : Nat) : Bool :=
  match repeatAt l with
  | some r => decide (bodyStart l ≤ pos) && decide (pos < r)
  | none => false

/-- What the strides add to a PLY field at a place of the stream in an iteration (R167). -/
def plyAdd (l : List (Nat × Nat)) (pos iter : Nat) (o : Nat) : Nat :=
  if inBody l pos && !opFixed o then iter * (strides l).2 else 0
def tensorAdd (l : List (Nat × Nat)) (pos iter : Nat) (o : Nat) : Nat :=
  if inBody l pos && !opFixed o then iter * (strides l).1 else 0

namespace State

def progOf (s : State) (c : Nat) : List Nat := ((s.ctx c).sect.map (·.prog)).getD []

/-- Layer group g of a context. -/
def groupAt (s : State) (c g : Nat) : Option Group := (s.groupsOf c)[g]?

/-- The masts of a group. -/
def groupMasts (s : State) (c g : Nat) : List Nat :=
  match s.groupAt c g with
  | some x => (upTo 4).filter (fun m => (x.mask >>> m) % 2 = 1)
  | none => []

/-- Operations that act in the beat of a layer of a group on one mast, with the iteration (R167, R184). -/
def layerOps (s : State) (c g m l : Nat) : List (Nat × Nat × Nat) :=
  match s.groupAt c g with
  | none => []
  | some x =>
    let ops := streamOps (s.progOf c) g m
    let i := l - x.first
    (ops.mapIdx (fun pos o => (pos, i, o.2))).filter (fun t =>
      match repeatAt ops with
      | none => decide (l = x.first)
      | some r =>
        (decide (t.1 < bodyStart ops) && decide (l = x.first)) || inBody ops t.1 || (decide (r < t.1) && decide (l = x.last)))

/-- The plies that a layer uses on a mast (R185). -/
def layerPlies (s : State) (c g m l : Nat) : List Nat :=
  let ops := streamOps (s.progOf c) g m
  ((s.layerOps c g m l).flatMap (fun t =>
    let o := t.2.2
    if opCode o = cPlyMvm ∨ opCode o = cSplice then
      (upTo (opB15 o)).map (fun k => opA12 o + plyAdd ops t.1 t.2.1 o + k)
    else if opCode o = cLogits then (upTo (opA14 o)).map (fun k => opA12 o + k)
    else [])).eraseDups

/-- The array that serves the slot entry of a ply, in the half in use (R185). -/
def slotArray (s : State) (c m x : Nat) : Option Nat :=
  let h := if s.isReload c && (s.ctx c).half then s.halfSlots c m else 0
  s.slotArr m c (x + h)

end State

end Sys2Proof.Machine
end

