-- ==== Sys2Proof/Machine/Trim.lean ====
section
/-! DEFINITION. Trim and ageing (chapter 6): trim cycles, corrections and selection, array swaps, what comes into
force at a boundary, saved sets, the error bound's terms, the ageing ladder and its record. -/

namespace Sys2Proof.Machine

namespace State

/-! Column words (R120, R121). -/

/-- CG and CO of a column as real values (Table 6.3). -/
def cgVal (v : ColVal) : Rat := (v.cg.toNat : Rat) / 4194304
def coVal (v : ColVal) : Rat := (v.co.toInt : Rat) / 1024

/-- CG within its valid range, 0.875 to 1.25 (Table 6.3). -/
def cgOk (n : Nat) : Bool := decide (3670016 ≤ n) && decide (n ≤ 5242880)

/-- A column word's new value: pending while the array is ACTIVE, in force at once otherwise (R121, R125). -/
def putCol' (s : State) (m p j : Nat) (v : ColVal) : State :=
  let w := s.colWord m p j
  if (s.arr m p).st = .active then s.setColWord m p j { w with pend := some v, pendTrim := false }
  else s.setColWord m p j { val := v }

/-- A correction by trim: it waits while the array is ACTIVE or HOLD is 1 (R125, R127). -/
def corrCol (s : State) (m p j : Nat) (v : ColVal) : State :=
  if (s.arr m p).st = .active ∨ s.trim.hold then
    s.setColWord m p j { s.colWord m p j with pend := some v, pendTrim := true }
  else s.setColWord m p j { val := v }

/-- Corrections of converter factors and of the map by trim (R125, R127). -/
def corrFactors (s : State) (m p : Nat) (facs : List (Nat × W64)) (map : Option ConvMap) : State :=
  if (s.arr m p).st = .active ∨ s.trim.hold then s.waitFactors m p facs map true else s.forceFactors m p facs map

/-- The value that a next correction starts from: the waiting one if there is one (R121, R127). -/
def latestCol (s : State) (m p j : Nat) : ColVal := ((s.colWord m p j).pend).getD (s.colWord m p j).val

/-- What TRIM_SEL names (Table 6.16). -/
def trimMast (s : State) : Nat := bitsOf s.trim.sel.toNat 30 2
def trimArr (s : State) : Nat := bitsOf s.trim.sel.toNat 15 15
def trimRef (s : State) : Bool := bitsOf s.trim.sel.toNat 10 1 = 1
def trimCol (s : State) : Nat := bitsOf s.trim.sel.toNat 0 10
def trimSelOk (s : State) : Bool :=
  decide (s.trimArr < arrPerMast) && (!s.trimRef || decide (s.trimCol < 2))
/-- The column word selected: 1,024 and 1,025 for the reference columns. -/
def trimWord (s : State) : Nat := if s.trimRef then 1024 + s.trimCol else s.trimCol

/-- A write of TRIM_COL (R121): a CG outside its range is ignored and WR_REJ set; the CO of the write is taken (log entry 91). -/
def trimColWrite (s : State) (v : W64) : State :=
  if !s.trimSelOk then s
  else
    let old := s.latestCol s.trimMast s.trimArr s.trimWord
    let cg := v.toNat >>> 40
    let co : W16 := BitVec.ofNat 16 (v.toNat >>> 24)
    if cgOk cg then s.putCol' s.trimMast s.trimArr s.trimWord { old with cg := BitVec.ofNat 24 cg, co := co }
    else
      let s := s.putCol' s.trimMast s.trimArr s.trimWord { old with co := co }
      { s with trim := { s.trim with wrRej := true } }

/-! Boundaries (R125, R126). -/

/-- A converter's waiting factors, or the waiting map, may come into force: HOLD holds trim's corrections back (R127). -/
def facGoes (s : State) (c : ArrCal) (g : Nat) : Bool := !(s.trim.hold && c.trimFac.contains g)
def mapGoes (s : State) (c : ArrCal) : Bool := c.pendMap.isSome && !(s.trim.hold && c.trimMap)

/-- Pending factors and map of an array come into force (R73, R125), trim's own only while HOLD is 0. -/
def applyPending (s : State) (m p : Nat) : State :=
  let c := s.cal m p
  let go := c.pendFac.filter (fun x => s.facGoes c x.1)
  let mg := s.mapGoes c
  let s := go.foldl (fun s gw => s.setFac m p gw.1 gw.2) s
  s.setCal m p { c with
    pendFac := c.pendFac.filter (fun x => !go.any (fun y => y.1 = x.1))
    trimFac := c.trimFac.filter (fun g => !go.any (fun y => y.1 = g))
    map := if mg then c.pendMap.getD c.map else c.map
    pendMap := if mg then none else c.pendMap
    trimMap := if mg then false else c.trimMap }

/-- The column words of mast m that wait for a boundary and may come into force at it. -/
def pendingCols (s : State) (m : Nat) : List Nat :=
  tabKeys s.cols (fun k w => decide (k / (1026 * arrPerMast) = m) && w.pend.isSome && !(s.trim.hold && w.pendTrim))

/-- A waiting column word, by its key, comes into force. -/
def applyCol (s : State) (k : Nat) : State :=
  let w := tabGet {} s.cols k
  { s with cols := tabSet {} s.cols k { val := w.pend.getD w.val } }

/-- Arrays of mast m whose factors or map wait for a boundary and may come into force at it. -/
def pendingCals (s : State) (m : Nat) : List Nat :=
  (tabKeys s.cals (fun k c => decide (k / arrPerMast = m) && (c.pendFac.any (fun x => s.facGoes c x.1) || s.mapGoes c))).map
    (· % arrPerMast)

/-- TRIM_CTL.HOLD is written (Table 6.6): once it is 0, what waits on arrays that are not ACTIVE comes into force at once (R125). -/
def setHold (s : State) (h : Bool) : State :=
  let s := { s with trim := { s.trim with hold := h } }
  if h then s
  else
    let idle (k : Nat) : Bool := decide ((s.arr (k / arrPerMast) (k % arrPerMast)).st ≠ .active)
    let cols := tabKeys s.cols (fun k w => w.pend.isSome && idle (k / 1026))
    let cals := tabKeys s.cals (fun k c => (!c.pendFac.isEmpty || c.pendMap.isSome) && idle k)
    cals.foldl (fun s k => s.applyPending (k / arrPerMast) (k % arrPerMast)) (cols.foldl applyCol s)

/-- A swap is pending on the array's slot (Table 6.17). -/
def swapPend (s : State) (m p : Nat) : Bool := (s.atrim m p).swap.isSome

/-- Arrays of mast m with a pending swap. -/
def pendingSwaps (s : State) (m : Nat) : List Nat :=
  (tabKeys s.trims (fun k x => decide (k / arrPerMast = m) && x.swap.isSome)).map (· % arrPerMast)

/-- The derived image that an array's slot takes (R193). -/
def slotImage (s : State) (m x : Nat) : Option SlotRef := (s.arr m x).slot.map (fun r => ⟨r.ctx, s.imageSlot m r⟩)

/-- R126: the incoming array Y can take the slot of X: it holds the slot's image, its region does too, and it is calibrated. -/
def canServe (s : State) (m x y : Nat) : Bool :=
  decide ((s.arr m y).st = .ready) && decide ((s.spl m y).st = .valid) && decide ((s.spl m y).lmap = (s.arr m y).lmap)
    && decide ((s.cal m y).cal = .valid) && (s.arr m y).slot.isNone && (s.arr m y).fw.isNone
    && decide ((s.arr m y).image = s.slotImage m x)

/-- R127: the incoming array failed its write, was retired or was reassigned. -/
def swapLost (s : State) (m x y : Nat) : Bool :=
  let a := s.arr m y
  !(decide (a.st = .ready) || (decide (a.st = .writing) && a.write.isSome) || (decide (a.st = .blank) && a.fw.isSome))
    || a.slot.isSome || decide (s.imageToBe m y ≠ s.slotImage m x)

/-- AGE_EPOCH advances (R138). -/
def bumpEpoch (s : State) : State := { s with age := { s.age with epoch := s.age.epoch + 1 } }

/-- An array leaves its slot at a boundary: READY, or RETIRED while RETIRE_PEND is set (Table 2.11). -/
def leaveSlot (s : State) (m p : Nat) : State :=
  let a := s.arr m p
  let s := s.modAtrim m p (fun x => { x with swap := none, swapRetire := false, swapPlan := false, atLimit := false })
  if a.retirePend then s.toRetired m p
  else (s.noteServed m p).modArr m p (fun a => { a with
    st := if a.st = .active then .ready else a.st
    slot := none
    leaving := false })

/-- A standby that entered a slot of another group gives way to the highest-numbered array of its group out of ply slots (log entry 97). -/
def nextStandby (s : State) (m g : Nat) : State :=
  s.setStandby m g ((groupArrays g).reverse.find? (fun q => (s.arr m q).slot.isNone && (s.arr m q).st ≠ .retired))

/-- The re-plan of a group is complete once no array of it waits for its turn or its swap (R135). -/
def replanOver (s : State) (m g : Nat) : Bool :=
  (s.ageGrp m g).replan.isEmpty && !(groupArrays g).any (fun p => (s.atrim m p).swap.isSome && (s.atrim m p).swapPlan)

/-- The restore cycles since a group's last re-plan count from its completion (R135). -/
def notePlan (s : State) (m g : Nat) : State :=
  if s.replanOver m g then s.setAgeGrp m g { s.ageGrp m g with sincePlan := 0 } else s

/-- A swap of X for Y of the same group hands X's turn in a re-plan on to Y, which then serves the slot (R136). -/
def passTurn (s : State) (m x y : Nat) : State :=
  let g := groupOf x
  let a := s.ageGrp m g
  if a.replan.contains x then
    let rest := a.replan.filter (· ≠ x)
    let next := if groupOf y = g then rest.filter (· < y) ++ (y :: rest.filter (fun q => y < q)) else rest
    s.setAgeGrp m g { a with replan := next }
  else s

/-- R126: the swap of X for Y is made: Y takes the slot and enters ACTIVE at this boundary, X leaves it and becomes its group's
standby (Table 6.4), or is retired. -/
def makeSwap (s : State) (m x y : Nat) : State :=
  let ref := (s.arr m x).slot
  let retire := (s.atrim m x).swapRetire
  let plan := (s.atrim m x).swapPlan
  let gx := groupOf x
  let gy := groupOf y
  let wasStandby := s.isStandby m y
  let s := s.leaveSlot m x
  let s := s.modArr m y (fun a => { a with slot := ref })
  let s := if retire then (s.retire m x).bumpEpoch else s
  let s :=
    if (s.arr m x).st ≠ .retired then s.setStandby m gx (some x)
    else if wasStandby && gy = gx then s.setStandby m gx none
    else s
  let s := if wasStandby && gy ≠ gx then s.nextStandby m gy else s
  let s := if plan then s.notePlan m gx else s.passTurn m x y
  if (s.arr m x).st = .ready then (s.modAtrim m x (fun t => { t with probation := true })).standbyWrite m x else s

/-- The swap of X is dropped: SWAP_PEND clears (R127); a re-plan takes its array up again. -/
def dropSwap (s : State) (m x : Nat) : State :=
  let plan := (s.atrim m x).swapPlan
  let a := s.ageGrp m (groupOf x)
  let s := s.modAtrim m x (fun t => { t with swap := none, swapRetire := false, swapPlan := false })
  if plan then s.setAgeGrp m (groupOf x) { a with replan := x :: a.replan.filter (· ≠ x) } else s

/-- One pending swap at a boundary: made, dropped (R127), or still waiting. -/
def boundarySwap (s : State) (m x : Nat) : State :=
  match (s.atrim m x).swap with
  | none => s
  | some y =>
    if s.trim.hold && !(s.arr m x).retirePend then s
    else if s.canServe m x y then s.makeSwap m x y
    else if s.swapLost m x y then s.dropSwap m x
    else s

/-- R125, R126: what waits on mast m comes into force at a beat boundary; TRIM_GEN advances if anything does. -/
def boundaryTrim (s : State) (m : Nat) : State :=
  let cols := s.pendingCols m
  let cals := s.pendingCals m
  let s1 := cols.foldl applyCol s
  let s2 := cals.foldl (fun s p => s.applyPending m p) s1
  let swaps := s2.pendingSwaps m
  let s3 := swaps.foldl (fun s x => s.boundarySwap m x) s2
  let moved := swaps.any (fun x => decide ((s3.arr m x).slot ≠ (s2.arr m x).slot))
  if cols.isEmpty && cals.isEmpty && !moved then s3
  else s3.modMast m (fun x => { x with trimGen := x.trimGen + 1 })

/-! Array swaps (R124, R126). -/

/-- R124: a donor: READY, in no slot and in no other swap, its group keeping one array out of ply slots afterwards. -/
def donorOk (s : State) (m p : Nat) : Bool :=
  let a := s.arr m p
  decide (a.st = .ready) && a.slot.isNone && !s.booked m p && a.fw.isNone
    && decide (2 ≤ ((groupArrays (groupOf p)).filter (fun q => (s.arr m q).slot.isNone && (s.arr m q).st ≠ .retired)).length)

/-- The group's standby can come in: READY, in no slot, and not promised to another swap. -/
def standbyFree (s : State) (m y : Nat) : Bool := decide ((s.arr m y).st = .ready) && (s.arr m y).slot.isNone && !s.booked m y

/-- R124: the array a swap of p brings in: its group's standby if READY, else the lowest-numbered donor. -/
def replacement (s : State) (m p : Nat) : Option Nat :=
  match (s.standbyOf m (groupOf p)).filter (s.standbyFree m) with
  | some y => some y
  | none => (s.arrsOf m (fun a => decide (a.st = .ready))).find? (fun q => groupOf q ≠ groupOf p && s.donorOk m q)

/-- R124, R137: no replacement: AT_LIMIT, logged with severity DEGRADED. -/
def atLimit (s : State) (m p : Nat) : State :=
  if (s.atrim m p).atLimit then s
  else (s.modAtrim m p (fun x => { x with atLimit := true })).logArr m p 5

/-- Array y is to come in for p: SWAP_PEND, and firmware writes y with the slot's image at a level map (R126). -/
def bookSwap (s : State) (m p y : Nat) (l : BitVec 2) (retire plan : Bool) : State :=
  match s.slotImage m p with
  | none => s
  | some r =>
    (s.modAtrim m p (fun x => { x with swap := some y, swapRetire := retire, swapPlan := plan })).firmwareWrite m y r.ctx r.slot l

/-- R126: a swap of array p begins, at a level map. Under HOLD only a swap that chapter 14 orders begins, that of an array with
RETIRE_PEND (R127). On a slot whose swap is pending no second one begins: the array leaves by the first, and is retired then if the
second would retire it (log entry 116). -/
def beginSwap (s : State) (m p : Nat) (l : BitVec 2) (retire plan : Bool) : State :=
  if (s.arr m p).slot.isNone then s
  else if s.swapPend m p then (if retire then s.modAtrim m p (fun x => { x with swapRetire := true }) else s)
  else if s.trim.hold && !(s.arr m p).retirePend then s
  else
    match s.replacement m p with
    | none => s.atLimit m p
    | some y => s.bookSwap m p y l retire plan

/-! Trim cycles (R118, R119, R123). -/

/-- The word in force of a column that a probe names; a spare column that serves none has the reset values. -/
def probedWord (s : State) (m p : Nat) (pr : ColProbe) : ColVal := if pr.col < 1026 then (s.colWord m p pr.col).val else {}

/-- The physical column that a probe reads. -/
def probedPhys (s : State) (m p : Nat) (pr : ColProbe) : Nat := if pr.col < 1026 then s.physOf m p pr.col else pr.col

/-- The converter factors in force of the column that a probe reads. -/
def probedFac (s : State) (m p : Nat) (pr : ColProbe) : W64 := s.fac m p (convOf (s.cal m p).map (s.probedPhys m p pr / 8))

/-- The mean over codes of a function of the code. -/
def codesMean (l : Codes) (f : Int → Rat) : Rat :=
  let n := (l.map (·.2)).foldl (· + ·) 0
  if n = 0 then 0 else (l.map (fun x => f x.1 * ((x.2 : Nat) : Rat))).foldl (fun (a b : Rat) => a + b) 0 / ((n : Nat) : Rat)

/-- The variance of the null-probe codes. -/
def nullVar (pr : ColProbe) : Rat :=
  let mean := codesMean pr.nulls (fun c => (c : Rat))
  codesMean pr.nulls (fun c => ((c : Rat) - mean) * ((c : Rat) - mean))

/-- The mean of (c + SEG − OFFSET) × GAIN over the null probes (Table 6.2). -/
def nullMean (s : State) (m p : Nat) (pr : ColProbe) : Rat :=
  let w := s.probedFac m p pr
  codesMean pr.nulls (fun c => ((c : Rat) + facSeg w ((c + 128).toNat / 64) - facOffset w) * facGain w)

/-- y_q: the mean corrected code of a block (R60, Table 6.2). -/
def blockMean (s : State) (m p : Nat) (pr : ColProbe) (q : Nat) : Rat :=
  let v := s.probedWord m p pr
  codesMean (pr.blocks.getD q []) (fun c => (correct (s.probedFac m p pr) v.cg v.co c : Rat) / 256)

/-- The blocks a gain fit takes (Table 6.2): x_q and y_q. -/
def fitBlocks (s : State) (m p : Nat) (pr : ColProbe) : List (Rat × Rat) :=
  let b := (s.sum m p (s.probedPhys m p pr)).b
  (upTo 4).filterMap (fun q =>
    let x := 3 * ((b.getD q 0).toInt : Rat) / ((2 ^ (s.arr m p).span.toNat : Nat) : Rat)
    let saturated := (pr.blocks.getD q []).any (fun z => decide (z.1 = -128) || decide (z.1 = 127))
    if 4 ≤ absQ x ∧ absQ x ≤ 120 ∧ !saturated then some (x, s.blockMean m p pr q) else none)

/-- The fitted CG of a column, from the CG in force while it was measured (Table 6.2); none without a block to fit. -/
def fitCg (s : State) (m p : Nat) (pr : ColProbe) : Option Rat :=
  let bl := s.fitBlocks m p pr
  let den := bl.foldl (fun a xy => a + xy.2 * xy.2) 0
  if bl.isEmpty || den = 0 then none
  else some (cgVal (s.probedWord m p pr) * (bl.foldl (fun a xy => a + xy.1 * xy.2) 0) / den)

/-- The mean CG of the array's fitted columns (Table 6.2): as this cycle fits it, or as in force where the readings agree with it. -/
def meanCg (s : State) (m p : Nat) (prs : List ColProbe) : Rat :=
  let l := (upTo 1024).filterMap (fun j =>
    match prs.find? (fun pr => pr.col = j) with
    | some pr => s.fitCg m p pr
    | none => let v := (s.colWord m p j).val; if v.inherit then none else some (cgVal v))
  if l.isEmpty then cgVal {} else (l.foldl (· + ·) 0) / (l.length : Rat)

/-- New CG and CO of a column from its probes, of which `prs` are all (Table 6.2); a measured spare column is named by its physical
number. -/
def newCol (s : State) (m p : Nat) (prs : List ColProbe) (pr : ColProbe) : ColVal :=
  let old := s.probedWord m p pr
  let fit := s.fitCg m p pr
  let cg := match fit with
    | some q => q
    | none => s.meanCg m p prs
  { old with
    cg := BitVec.ofNat 24 (max 0 (min 16777215 (rneInt (cg * 4194304)))).toNat
    co := BitVec.ofInt 16 (max (-32768) (min 32767 (rneInt (s.nullMean m p pr * cgVal old * 1024))))
    inherit := fit.isNone }

/-- R119: a column's new value, each of CG and CO replaced only where it differs enough from the value in force. -/
def corrected (old new : ColVal) : ColVal :=
  let cg := decide (cgVal old / 4096 < absQ (cgVal new - cgVal old))
  let co := decide ((1 / 64 : Rat) < absQ (coVal new - coVal old))
  { old with
    cg := if cg then new.cg else old.cg
    inherit := if cg then new.inherit else old.inherit
    co := if co then new.co else old.co }

/-- Table 6.4, first row: the column conditions. -/
def colBad (v : ColVal) (pr : ColProbe) : Bool :=
  !cgOk v.cg.toNat || decide (8 < absQ (coVal v)) || decide ((16 / 25 : Rat) < nullVar pr) || pr.probeAlone

/-- The sixteen levels of the converter probe (Table 6.1). -/
def probeLevels : List Rat := (upTo 16).map (fun i : Nat => dacLevel (64 * (i : Int) - 480))

/-- The new factors of a converter: OFFSET its mean idle code, GAIN and SEG fitted as in SWEEP (Table 6.2). -/
def probeFit (x : ConvProbe) : ConvFit := fitConv x.idle (probeLevels.zip x.levels)

/-- The probe residual after new factors: the largest over the levels. -/
def probeResidual (x : ConvProbe) : Rat :=
  ((probeLevels.zip x.levels).map (fun y => absQ ((probeFit x).correct y.2 - y.1))).foldl max 0

/-- Table 6.4, second row: the converter conditions; `n` its metastable decisions of the cycle. -/
def convBad (x : ConvProbe) (n : Nat) : Bool :=
  let f := probeFit x
  decide (16 < absQ f.offset) || decide (f.gain < 7 / 8) || decide ((9 / 8 : Rat) < f.gain)
    || f.seg.any (fun q => decide ((3 / 2 : Rat) < absQ q)) || decide ((1 / 2 : Rat) < probeResidual x) || decide (64 < n)

/-- R119: a converter's new factors, each replaced only where it differs enough from the value in force. -/
def correctedFac (w : W64) (x : ConvProbe) : ConvFit :=
  let f := probeFit x
  { offset := if (1 / 64 : Rat) < absQ (f.offset - facOffset w) then f.offset else facOffset w
    gain := if (1 / 32768 : Rat) < absQ (f.gain - facGain w) then f.gain else facGain w
    seg := (upTo 4).map (fun i =>
      if (1 / 64 : Rat) < absQ (f.seg.getD i 0 - facSeg w i) then f.seg.getD i 0 else facSeg w i) }

/-- Trim issues the next of its COLWRITEs on an array, once no command runs there (Table 6.4): from the image of the slot that the array
serves, or from the standby pattern where it serves none. -/
def colNext (s : State) (m p : Nat) : State :=
  let a := s.arr m p
  match (s.atrim m p).colTodo with
  | [] => s
  | (j, c) :: rest =>
    if a.cmdBusy || !restored a then s
    else
      let img := (s.slotImage m p).filter (fun r => (s.derivedAt r.ctx m r.slot).isSome)
      let src : W64 := if img.isSome then BitVec.ofNat 64 (s.imageAddr m img 0 0) else a.src
      (s.modAtrim m p (fun x => { x with colTodo := rest })).modArr m p (fun a => { a with
        cmdBusy := true
        cmdLast := 2
        byHost := false
        src := src
        colP := BitVec.ofNat 11 (1026 + c)
        colL := BitVec.ofNat 10 j
        col := some { colP := 1026 + c, colL := j, src := src, row := 0, failed := [], swap := true, pattern := img.isNone, image := img } })

/-- A command on an array has ended: firmware's next one on it is issued, then trim's (R50, Table 2.12). -/
def arrNext (s : State) (m p : Nat) : State := (s.fwNext m p).colNext m p

/-- Trim calls for a COLWRITE of column j onto spare column 1,026 + c. -/
def trimColwrite (s : State) (m p j c : Nat) : State :=
  (s.modAtrim m p (fun x => { x with colTodo := x.colTodo ++ [(j, c)] })).colNext m p

/-- A column swap of logical column j is under way: its COLWRITE waits or runs, or the spare is being measured. -/
def colBusy (s : State) (m p j : Nat) : Bool :=
  (s.atrim m p).colSwaps.any (fun lp => lp.1 = j) || (s.atrim m p).colTodo.any (fun jc => jc.1 = j)
    || (match (s.arr m p).col with
        | some c => c.swap && decide (c.colL = j)
        | none => false)

/-- A usable spare column that nothing serves, awaits or is being written for. -/
def spareOpen (s : State) (m p : Nat) : Option Nat :=
  (s.spareFree m p).find? (fun c => !s.spareWaits m p c
    && !(s.atrim m p).colSwaps.any (fun lp => lp.2.1 = 1026 + c) && !(s.atrim m p).colTodo.any (fun jc => jc.2 = c)
    && (match (s.arr m p).col with
        | some j => decide (j.colP ≠ 1026 + c)
        | none => true))

/-- The column that a measured spare column comes to serve: one full trim cycle has measured it since its COLWRITE, or its assignment
waits (Table 6.4). -/
def colAwaiting (s : State) (m p phys : Nat) : Option Nat :=
  match (s.atrim m p).colSwaps.find? (fun lp => lp.2.1 = phys) with
  | some lp => if lp.2.2 then some lp.1 else none
  | none => (upTo 1024).find? (fun j =>
      match (s.colWord m p j).pend with
      | some v => decide (v.pcol = phys) && decide ((s.colWord m p j).val.pcol ≠ phys)
      | none => false)

/-- A column's assignment to another physical column waits for its boundary. -/
def colMoves (s : State) (m p j : Nat) : Bool :=
  match (s.colWord m p j).pend with
  | some v => decide (v.pcol ≠ (s.colWord m p j).val.pcol)
  | none => false

/-- A spare column that one full trim cycle has measured is assigned, with its own CG and CO (Table 6.4). -/
def assignCol (s : State) (m p j phys : Nat) (v : ColVal) : State :=
  (s.modAtrim m p (fun x => { x with colSwaps := x.colSwaps.filter (fun y => y.2.1 ≠ phys) })).corrCol m p j { v with pcol := phys }

/-- What acting on one column, whose new values are v, finds: the state, and whether an array swap is needed. -/
def trimOneCol (m p : Nat) (r : State × Bool) (x : ColProbe × ColVal) : State × Bool :=
  let s := r.1
  let pr := x.1
  let v := x.2
  if 1026 ≤ pr.col then
    match s.colAwaiting m p pr.col with
    | none => r
    | some j => (s.assignCol m p j pr.col v, r.2)
  else if s.colMoves m p pr.col then r
  else if colBad v pr then
    if 1024 ≤ pr.col then (s, true)
    else if s.colBusy m p pr.col || s.trim.hold then r
    else
      match s.spareOpen m p with
      | some c => (s.trimColwrite m p pr.col c, r.2)
      | none => (s, true)
  else
    let old := (s.colWord m p pr.col).val
    let new := corrected old v
    if new = old then r else (s.corrCol m p pr.col new, r.2)

/-- A new set of corrections replaces trim's waiting ones in full, the assignments of spare columns excepted, which are measured
anew themselves (R127). -/
def dropWaiting (s : State) (m p : Nat) : State :=
  let ks := tabKeys s.cols (fun k w => decide (k / 1026 = kArr m p) && w.pendTrim
    && decide (w.pend.map (·.pcol) = some w.val.pcol))
  let s := ks.foldl (fun s k => { s with cols := tabSet {} s.cols k { val := (tabGet {} s.cols k).val } }) s
  s.modCal m p (fun c => { c with
    pendFac := c.pendFac.filter (fun x => !c.trimFac.contains x.1)
    trimFac := []
    pendMap := if c.trimMap then none else c.pendMap
    trimMap := false })

/-- What acting on one converter finds (Table 6.4, second and last rows). -/
def trimOneConv (m p : Nat) (r : State × Bool) (x : ConvProbe) : State × Bool :=
  let s := r.1
  let c := s.cal m p
  let map := c.pendMap.getD c.map
  if convBad x (s.meta_ m p x.conv) then
    let s := s.corrFactors m p [(x.conv, s.fac m p x.conv ||| BitVec.ofNat 64 (2 ^ 32))] none
    let grp := if x.conv = 130 then (if map.enA then some map.grpA else none)
      else if x.conv = 131 then (if map.enB then some map.grpB else none)
      else if convOf map x.conv = x.conv then some (BitVec.ofNat 8 x.conv) else none
    match grp with
    | none => (s, r.2)
    | some g =>
      let map0 := { map with enA := map.enA && x.conv ≠ 130, enB := map.enB && x.conv ≠ 131 }
      if !map.enA && x.conv ≠ 130 && !facBad (s.fac m p 130) then
        (s.corrFactors m p [] (some { map0 with enA := true, grpA := g }), r.2)
      else if !map.enB && x.conv ≠ 131 && !facBad (s.fac m p 131) then
        (s.corrFactors m p [] (some { map0 with enB := true, grpB := g }), r.2)
      else (s, true)
  else
    let old := s.fac m p x.conv
    let new := facWord (correctedFac old x) (facBad old)
    if new = old then r else (s.corrFactors m p [(x.conv, new)] none, r.2)

/-- RCERR of the cycle (Table 6.2): the mean reference error, in units of 2^SPAN/256, saturating. The spec gives the mean no rounding:
each error is rounded down to a whole unit before it is added, and the mean again (DESIGN CHOICE, log entry 115). -/
def newRcerr (x : ArrTrim) : W16 := if x.refCnt = 0 then x.rcerr else satNat 16 (x.refSum / x.refCnt)

/-- Trim's work on one array at the end of a trim cycle (R118, R119, R123). Under HOLD the corrections wait and no swap begins
(R127). -/
def trimArray (s : State) (m p : Nat) (probes : List TrimProbe) : State :=
  let x := s.atrim m p
  let d := s.die m (dieOf p)
  let steady := decide ((d.trimHi.toInt - d.trimLo.toInt).natAbs ≤ 48)
  let s0 := s.modAtrim m p (fun x => { x with measured := x.measured - 16, refSum := 0, refCnt := 0 })
  if !(decide (16 ≤ x.measured) && steady) then
    s0.modAtrim m p (fun x => { x with
      stale := if x.stale = 15 then 15 else x.stale + 1
      colSwaps := x.colSwaps.map (fun lp => (lp.1, lp.2.1, true)) })
  else
    let s1 := s0.modAtrim m p (fun y => { y with
      stale := 0
      measTemp := d.temp
      measSpan := (s.arr m p).span
      rcerr := newRcerr x })
    let pr : TrimProbe := (probes.find? (fun y => y.p = p)).getD ⟨p, [], []⟩
    let news := pr.cols.map (fun y => (y, s1.newCol m p pr.cols y))
    let quiet := x.colSwaps.filter (fun lp => lp.2.2 && !pr.cols.any (fun y => y.col = lp.2.1))
    let s2 := quiet.foldl (fun s lp => s.assignCol m p lp.1 lp.2.1 {}) (s1.dropWaiting m p)
    let r1 := news.foldl (trimOneCol m p) (s2, false)
    let r2 := pr.convs.foldl (trimOneConv m p) r1
    let r2 : State × Bool := (r2.1.modAtrim m p (fun x => { x with colSwaps := x.colSwaps.map (fun lp => (lp.1, lp.2.1, true)) }), r2.2)
    let need := r2.2 || decide (512 < (newRcerr x).toNat)
    if !need then r2.1.modAtrim m p (fun x => { x with probation := false })
    else if s.trim.hold then r2.1
    else if x.probation then (r2.1.retire m p).bumpEpoch
    else r2.1.beginSwap m p (s.arr m p).lmap false false

/-- An array that was not measured throughout the cycle: STALE rises, saturating (R119). -/
def staler (x : ArrTrim) : ArrTrim :=
  { x with
    stale := if x.stale = 15 then 15 else x.stale + 1
    measured := 0
    refSum := 0
    refCnt := 0 }

/-- The metastable counts of a mast are set to zero (R58). -/
def clearMetas (s : State) (m : Nat) : State :=
  { s with metas := s.metas.filter (fun kv => decide (kv.1 / (132 * arrPerMast) ≠ m)) }

/-- LEAK of a group at the end of a trim cycle (Table 6.10): the largest Q8, scaled by 4 ms over the interval. -/
def leakOf (q8 : Nat) (i : BitVec 2) : Byte :=
  satNat 8 (if i = 0 then q8 else if i = 1 then q8 * 4 / 3 else if i = 2 then q8 * 2 else q8 * 4)

/-- R118, R123, R128: a trim cycle of mast m ends. -/
def trimCycleEnd (s : State) (m : Nat) (probes : List TrimProbe) : State :=
  if (s.mast m).trimRc < 16 then s
  else
    let ps := (tabKeys s.arrs (fun k a => decide (k / arrPerMast = m) && restored a)).map (· % arrPerMast)
    let s := ps.foldl (fun s p => s.trimArray m p probes) s
    let out := (tabKeys s.trims (fun k _ => decide (k / arrPerMast = m))).filter (fun k => !ps.contains (k % arrPerMast))
    let s := out.foldl (fun s k => s.modAtrim m (k % arrPerMast) staler) s
    let s := s.clearMetas m
    let i := (s.mast m).effInt
    let s := (tabKeys s.ageGrps (fun k _ => decide (k / 1024 = m))).foldl (fun s k =>
      let g := s.ageGrp m (k % 1024)
      s.setAgeGrp m (k % 1024) { g with leak := leakOf g.q8max i, q8max := 0 }) s
    let s := (upTo 8).foldl (fun s d => s.modDie m d (fun x => { x with trimLo := x.temp, trimHi := x.temp })) s
    let s := s.modMast m (fun x => { x with trimRc := x.trimRc - 16, trimCount := x.trimCount + 1 })
    { s with trim := { s.trim with lastTime := s.time } }

/-- TRIM_COUNT (R128). -/
def trimCountAll (s : State) : W64 := ((upTo 4).map (fun m => (s.mast m).trimCount)).foldl (· + ·) 0

/-! Trim sets (R129, R130). -/

def trimAccept (s : State) (c : BitVec 4) : State := { s with trim := { s.trim with cmdLast := c } }
def trimFinish (s : State) (st : Byte) : State :=
  { s with trim := { s.trim with busy := false, phase := 0, status := st } }.cause gTrim
def trimRefuse (s : State) (st : Byte) : State := { s with trim := { s.trim with status := st } }.cause gTrim

/-- TRIM_SAVE (R129). -/
def trimSave (s : State) : State :=
  let s := s.trimAccept 1
  if s.trim.busy then s.trimRefuse sTrimBusy else { s with trim := { s.trim with busy := true, phase := 1, latchMask := s.trim.mask, latchBuf := s.trim.buf } }

/-- A column word's register value (Table 6.3). -/
def colWordBits (s : State) (m p j : Nat) : Nat :=
  let w := s.colWord m p j
  at_ w.val.cg 40 + at_ w.val.co 24 + bit_ w.pend.isSome 19 + bit_ w.val.inherit 18 + s.physOf m p j

/-- The same without PEND, as a set records it. -/
def colSaveBits (s : State) (m p j : Nat) : Nat :=
  let w := s.colWord m p j
  at_ w.val.cg 40 + at_ w.val.co 24 + bit_ w.val.inherit 18 + s.physOf m p j

/-- One array record of a trim set (Table 6.7). -/
def trimRecord (s : State) (m p : Nat) : List Byte :=
  let x := s.atrim m p
  leBytes 2 (p % arrPerDie) ++ leBytes 1 x.stale.toNat ++ leBytes 1 x.measSpan.toNat ++ leBytes 2 x.measTemp.toNat
    ++ leBytes 2 (16383 - x.unusable.toNat) ++ leBytes 8 (s.colSaveBits m p 1024) ++ leBytes 8 (s.colSaveBits m p 1025)
    ++ List.replicate 8 0 ++ (upTo 1024).flatMap (fun j => leBytes 8 (s.colSaveBits m p j))

/-- The trim set of the dies of a mask (R129). -/
def trimSet (s : State) (mask : W32) : List Byte :=
  s.setHeader [0x4B, 0x57, 0x54, 0x52] mask
    ++ (maskDies mask).flatMap (fun k => (dieArrays k).flatMap (fun mp => s.trimRecord mp.1 mp.2))

/-- The trim set is written, with its check table, and the command completes. -/
def trimSaveComplete (s : State) : State :=
  if s.trim.phase = 1 then
    let s := s.emit (.hostWrite s.trim.latchBuf.toNat (withCheckTable (s.trimSet s.trim.latchMask)))
    { s with trim := { s.trim with done := s.trim.latchMask } }.trimFinish sOK
  else s

/-- TRIM_RESTORE (R130). -/
def trimRestore (s : State) : State :=
  let s := s.trimAccept 2
  if s.trim.busy then s.trimRefuse sTrimBusy else { s with trim := { s.trim with busy := true, phase := 2, latchMask := s.trim.mask, latchBuf := s.trim.buf } }

/-- One word of a trim set is applied, or skipped where its PCOL differs on a READY or ACTIVE array (R130). -/
def applyWord (s : State) (m p j w : Nat) : State :=
  let v : ColVal :=
    { cg := BitVec.ofNat 24 (w >>> 40)
      co := BitVec.ofNat 16 (w >>> 24)
      inherit := bitsOf w 18 1 = 1
      pcol := if bitsOf w 0 11 = j ∨ 1024 ≤ j then 0 else bitsOf w 0 11 }
  if restored (s.arr m p) && decide (bitsOf w 0 11 ≠ s.physOf m p j) then
    { s with trim := { s.trim with skipped := true } }
  else s.putCol' m p j v

/-- One array record of a trim set is applied (R130, R127): the array's measurements of the cycle are discarded. -/
def applyTrim (s : State) (set : List Byte) (o m p : Nat) : State :=
  let s := s.applyWord m p 1024 (leAt set (o + 8) 8)
  let s := s.applyWord m p 1025 (leAt set (o + 16) 8)
  let s := (upTo 1024).foldl (fun s j => s.applyWord m p j (leAt set (o + 32 + 8 * j) 8)) s
  s.modAtrim m p (fun x => { x with
    stale := BitVec.ofNat 4 (leAt set (o + 2) 1)
    measSpan := BitVec.ofNat 4 (leAt set (o + 3) 1)
    measTemp := BitVec.ofNat 16 (leAt set (o + 4) 2)
    unusable := BitVec.ofNat 14 (16383 - leAt set (o + 6) 2 % 16384)
    measured := 0
    refSum := 0
    refCnt := 0
    fresh := true })

/-- R130: TRIM_RESTORE ends. -/
def trimRestoreComplete (s : State) (set : Option (List Byte)) : State :=
  if s.trim.phase ≠ 2 then s
  else
    let set := set.getD []
    let mask : W32 := BitVec.ofNat 32 (leAt set 8 4)
    let len := 128 + (maskDies mask).length * 17895424
    if !(decide (leAt set 0 4 = 0x5254574B) && decide (leAt set 4 2 = 1) && blockPasses set len 0) then
      s.trimFinish sTrimBadSet
    else
      let named := maskDies s.trim.latchMask
      let try_ := (maskDies mask).filter (fun k => named.contains k && !s.dieCal (k / 8) (k % 8))
      let r := try_.foldl (fun (sd : State × List Nat) k =>
        let o := 128 + ((maskDies mask).filter (fun j => decide (j < k))).length * 17895424
        if dieRecordOk set len o 8224 arrPerDie && sd.1.dieAccepts set k then
          ((dieArrays k).foldl (fun s mp => s.applyTrim set (o + 8224 * (mp.2 % arrPerDie)) mp.1 mp.2) sd.1, sd.2 ++ [k])
        else sd) (s, [])
      let s := { r.1 with trim := { r.1.trim with done := diesMask r.2 } }
      s.trimFinish (if named.all (fun k => r.2.contains k) then sOK else sTrimPartial)

/-! The error of one slot (R131, R132). -/

/-- Table 6.8 row of a die's temperature: A_n in 1/2 codes and δ in 1/10,000. -/
def errBand (t : Int) : Nat × Nat :=
  match bandOf t with
  | 0 => (9, 10)
  | 1 => (10, 12)
  | 2 => (11, 15)
  | 3 => (13, 20)
  | 4 => (15, 25)
  | _ => (19, 35)

/-- Largest drift of Table 2.9's row, mV/ms. -/
def driftOf (t : Int) : Rat :=
  match bandOf t with
  | 0 => 3 / 10
  | 1 => 6 / 10
  | 2 => 12 / 10
  | 3 => 17 / 10
  | 4 => 24 / 10
  | _ => 34 / 10

/-- The bracket of R131 for one column: A × 2^SPAN + δ × U + D × V, with the column's CG. -/
def errUnits (s : State) (m p : Nat) (cg : BitVec 24) (u v : Int) : Rat :=
  let t := (s.die m (dieOf p)).temp.toInt
  let an : Rat := ((errBand t).1 : Rat) / 2
  let a := (85 / 2 : Rat) * ((cg.toNat : Rat) / 4194304) + an
  let dl : Rat := ((errBand t).2 : Rat) / 10000
    + (if (s.atrim m p).measSpan ≠ (s.arr m p).span then 2 / 1000 else 0)
  let l := (s.arr m p).lmap
  let ms : Rat := ((4 - (s.mast m).effInt.toNat : Nat) : Rat)
  let d : Rat := if (s.ageGrp m (groupOf p)).rung = 0 then driftOf t * ms / 25
    else (if l = 0 then 1 / 4 else if l = 1 then 1 / 2 else 1)
  a * ((2 ^ (s.arr m p).span.toNat : Nat) : Rat) + dl * (u : Rat) + d * (v : Rat)

/-- R132: the statement of R131 holds for a step of the array. -/
def boundHolds (s : State) (m p : Nat) : Bool :=
  let d := s.die m (dieOf p)
  let x := s.atrim m p
  decide ((s.cal m p).cal = .valid) && decide (x.stale.toNat ≤ 2) && d.valid
    && decide ((d.temp.toInt - x.measTemp.toInt).natAbs ≤ 80) && decide (d.temp.toInt ≤ 115 * 16) && !x.atLimit

/-! Ageing (R134 to R138). -/

/-- Q4CYC (Table 6.19). -/
def q4cyc (g : AgeGrp) : Nat := (g.hist.filter id).length

/-- The groups of a mast with Q4CYC of 2 or more, ascending. -/
def agingGroups (s : State) (m : Nat) : List Nat :=
  (tabKeys s.ageGrps (fun k g => decide (k / 1024 = m) && decide (2 ≤ q4cyc g))).map (· % 1024)

/-- A ladder change starts the hold (R135). -/
def ladderChange (s : State) (m : Nat) : State := s.modMast m (fun x => { x with ladderHold := 16 })

/-- A group's RUNG rises; AGE_EPOCH advances at the change (R138). -/
def setRung (s : State) (m g : Nat) (r : BitVec 2) : State :=
  let x := s.ageGrp m g
  if x.rung = r then s else (s.setAgeGrp m g { x with rung := r }).bumpEpoch

/-- Rung 1: the mast's setting goes one step shorter; the groups that called for it are at rung 1 at least (log entry 98). -/
def rung1 (s : State) (m : Nat) (gs : List Nat) : State :=
  let s := (s.modMast m (fun x => { x with ageInt := x.ageInt + 1 })).bumpEpoch
  let s := gs.foldl (fun s g => if (s.ageGrp m g).rung = 0 then s.setRung m g 1 else s) s
  s.ladderChange m

/-- The array's part in a re-plan (R136): it is in a ply slot, and the slot's image is built. Arrays of a reload context take a new map
when they are next written, and a slot not built yet takes it as it is built (Table 9.9). -/
def replans (s : State) (m p : Nat) : Bool :=
  match s.slotImage m p with
  | none => false
  | some r => decide ((s.arr m p).st ≠ .retired) && !s.isReload r.ctx && (s.builtImage r.ctx m r.slot).isSome

/-- Rung 2: the group's target map goes one step coarser, its arrays in ply slots are to be re-planned, and its standby is rewritten
at the new map first (R136). -/
def rung2 (s : State) (m g : Nat) : State :=
  let x := s.ageGrp m g
  let s := (s.setAgeGrp m g { x with
    lmap := x.lmap + 1
    rung := 2
    replan := (groupArrays g).filter (s.replans m)
    sincePlan := 0 }).bumpEpoch
  (s.keepStandby m g).ladderChange m

/-- Rung 3: the group's arrays with their own Q4 above zero in 2 of the last 16 cycles are retired, by swaps where they serve a slot;
AGE_EPOCH advances at each retirement (R138). -/
def rung3 (s : State) (m g : Nat) : State :=
  let s := s.setRung m g 3
  let out := (groupArrays g).filter (fun p => (s.arr m p).st ≠ .retired && decide (2 ≤ ((s.arr m p).q4Hist.filter id).length))
  let s := out.foldl (fun s p =>
    if (s.arr m p).slot.isSome then s.beginSwap m p (s.arr m p).lmap true false
    else if s.trim.hold then s
    else (s.retire m p).bumpEpoch) s
  s.ladderChange m

/-- R135: the first rung of Table 6.11 whose trigger holds, outside a hold. After a relax the quiet restore cycles are counted from 0
again, so that a further step needs another 4,096 (DESIGN CHOICE, log entry 117). -/
def ladder (s : State) (m : Nat) : State :=
  let x := s.mast m
  if 0 < x.ladderHold then s.modMast m (fun x => { x with ladderHold := x.ladderHold - 1 })
  else
    let gs := s.agingGroups m
    if !gs.isEmpty && x.ageInt ≠ 3 then s.rung1 m gs
    else
      match gs.find? (fun g => (s.ageGrp m g).lmap ≠ 2 && x.effInt = 3) with
      | some g => s.rung2 m g
      | none =>
        match gs.find? (fun g => (s.ageGrp m g).lmap = 2 && s.replanOver m g
            && decide (16 ≤ (s.ageGrp m g).sincePlan)) with
        | some g => s.rung3 m g
        | none =>
          if 4096 ≤ x.quiet ∧ x.ageInt ≠ 0 then
            ((s.modMast m (fun x => { x with ageInt := x.ageInt - 1, quiet := 0 })).bumpEpoch).ladderChange m
          else s

/-- R137: a donor whose group holds a finer target map than l. -/
def finerDonor (s : State) (m p : Nat) (l : BitVec 2) : Option Nat :=
  (s.arrsOf m (fun a => decide (a.st = .ready))).find? (fun q =>
    groupOf q ≠ groupOf p && s.donorOk m q && decide ((s.targetMap m q).toNat < l.toNat))

/-- The group's standby is not yet READY with its pattern at the target map, or is promised to a swap: a re-plan waits for it (R136). A
RETIRED standby is waited for no longer. -/
def standbyWaits (s : State) (m g : Nat) : Bool :=
  match s.standbyOf m g with
  | some y =>
    let a := s.arr m y
    decide (a.st ≠ .retired) && (s.booked m y || a.fw.isSome || decide (a.st ≠ .ready) || !a.pattern || decide (a.lmap ≠ (s.ageGrp m g).lmap))
  | none => false

/-- R137: the slot's image overflows at its group's map: a finer donor that it fits takes the slot, the array being retired, or the
slot keeps its array with AT_LIMIT. -/
def finerSwap (s : State) (m p : Nat) (l : BitVec 2) (r : SlotRef) : State :=
  match s.finerDonor m p l with
  | none => s.atLimit m p
  | some y =>
    match s.deriveSlot r.ctx m r.slot (s.targetMap m y) with
    | none => s.atLimit m p
    | some (fine, _) =>
      if fine.excess then s.atLimit m p
      else (s.buildDerived r.ctx m r.slot (s.targetMap m y) fine).bookSwap m p y (s.targetMap m y) true true

/-- R136, R137: the next array of a group's re-plan, one at a time, once the group's standby is written: its image is built at the new
map and it is swapped. A swap pending on it comes first (Table 6.6). -/
def replanStep (s : State) (m g : Nat) : State :=
  let x := s.ageGrp m g
  match x.replan with
  | [] => s
  | p :: t =>
    if s.swapPend m p || s.trim.hold || s.standbyWaits m g
        || (groupArrays g).any (fun q => (s.atrim m q).swap.isSome && (s.atrim m q).swapPlan) then s
    else
      let s := s.setAgeGrp m g { x with replan := t }
      let s := match s.slotImage m p with
        | none => s
        | some r =>
          match s.deriveSlot r.ctx m r.slot x.lmap with
          | none => s
          | some (d, _) =>
            if d.excess then s.finerSwap m p x.lmap r
            else (s.buildDerived r.ctx m r.slot x.lmap d).beginSwap m p x.lmap false true
      s.notePlan m g

/-- The Q4 history of a group takes one more restore cycle (Table 6.10). -/
def noteGroup (s : State) (m g : Nat) : State :=
  let as := (groupArrays g).map (fun p => s.arr m p)
  let any := as.any (fun a => restored a && decide (0 < a.q4.toNat))
  let q8 := (as.filter restored).foldl (fun n a => max n a.q8.toNat) 0
  let x := s.ageGrp m g
  s.setAgeGrp m g { x with hist := (any :: x.hist).take 16, q8max := max x.q8max q8, sincePlan := x.sincePlan + 1 }

/-- R42, R43: one array's drift counts of the completed restore cycle are reported. -/
def noteDrift (s : State) (m p : Nat) : State :=
  let s := s.modArr m p (fun a => { a with
    q4 := satNat 16 a.run4
    q8 := satNat 16 a.run8
    run4 := 0
    run8 := 0
    q4Hist := (decide (0 < a.run4) :: a.q4Hist).take 16 })
  s.modAtrim m p (fun x => { x with
    measured := if x.fresh || x.calHit then x.measured else x.measured + 1
    calHit := s.dieCal m (dieOf p)
    fresh := false })

/-- The groups of a mast whose dies are powered. -/
def standbyGroups (s : State) (m : Nat) : List Nat :=
  ((upTo 8).filter (fun d => (s.die m d).powered)).flatMap (fun d => (upTo 128).map (fun k => d * 128 + k))

/-- R43, R93, R134 to R136: a restore cycle of mast m ends; its scrub corrected the words `scrubbed`: memory, word address ÷ 8. -/
def restoreCycleEnd (s : State) (m : Nat) (scrubbed : List (Nat × Nat)) : State :=
  if (s.mast m).slotNo < 781 then s
  else
    let ps := (tabKeys s.arrs (fun k a => decide (k / arrPerMast = m) && restored a)).map (· % arrPerMast)
    let s := ps.foldl (fun s p => s.noteDrift m p) s
    let gs := (upTo 1024).filter (fun g => (groupArrays g).any (fun p => ps.contains p) || !(s.ageGrp m g).hist.isEmpty)
    let s := gs.foldl (fun s g => s.noteGroup m g) s
    let calm := gs.all (fun g => q4cyc (s.ageGrp m g) = 0)
    let s := s.modMast m (fun x => { x with
      slotNo := 0
      rstCycles := x.rstCycles + 1
      trimRc := x.trimRc + 1
      quiet := if calm then x.quiet + 1 else 0 })
    let s := s.ladder m
    let s := (s.standbyGroups m).foldl (fun s g => s.keepStandby m g) s
    let s := gs.foldl (fun s g => s.replanStep m g) s
    let s := s.scrub m scrubbed
    s.modMast m (fun x => { x with effInt := s.nextInterval m })

/-! The ageing record (R138). -/

/-- AGE_GRP's register value (Table 6.19). -/
def ageGrpBits (g : AgeGrp) : Nat := at_ g.lmap 30 + at_ g.rung 28 + at_ g.leak 16 + (q4cyc g <<< 8) + at_ g.retired 0

/-- The ageing record (Table 6.12). -/
def ageRecord (s : State) : List Byte :=
  [0x4B, 0x57, 0x41, 0x47] ++ leBytes 2 1 ++ leBytes 2 0 ++ leBytes 8 s.age.epoch.toNat ++ leBytes 8 s.time.toNat
    ++ (upTo 4).map (fun m => BitVec.ofNat 8 (s.mast m).ageInt.toNat) ++ List.replicate 36 0
    ++ (upTo 4096).flatMap (fun i => leBytes 4 (ageGrpBits (s.ageGrp (i / 1024) (i % 1024))))

def ageRefuse (s : State) (st : Byte) : State := { s with age := { s.age with status := st } }.cause gAge

/-- An ageing record is applied (R138): every Q4CYC is cleared. -/
def applyAge (s : State) (r : List Byte) : State :=
  let s := { s with age := { s.age with epoch := BitVec.ofNat 64 (leAt r 8 8) } }
  let s := (upTo 4).foldl (fun s m => s.modMast m (fun x => { x with ageInt := BitVec.ofNat 2 (leAt r (24 + m) 1) })) s
  (upTo 4096).foldl (fun s i =>
    let w := leAt r (64 + 4 * i) 4
    let x := s.ageGrp (i / 1024) (i % 1024)
    s.setAgeGrp (i / 1024) (i % 1024) { x with
      lmap := BitVec.ofNat 2 (bitsOf w 30 2)
      rung := BitVec.ofNat 2 (bitsOf w 28 2)
      leak := BitVec.ofNat 8 (bitsOf w 16 8)
      retired := BitVec.ofNat 8 (bitsOf w 0 8)
      hist := [] }) s

/-- A record stands: marker, version, check values (R138). -/
def ageRecordOk (r : List Byte) : Bool :=
  decide (leAt r 0 4 = 0x4741574B) && decide (leAt r 4 2 = 1) && checksPass r 16448

/-- AGE_SAVE (R138): the record is written with its check table, and the command completes. -/
def ageSave (s : State) : State :=
  let s := { s with age := { s.age with cmdLast := 1 } }
  (s.emit (.hostWrite s.age.buf.toNat (withCheckTable s.ageRecord))).ageRefuse sOK

/-- AGE_RESTORE (R138). -/
def ageRestore (s : State) (r : Option (List Byte)) : State :=
  let s := { s with age := { s.age with cmdLast := 2 } }
  if s.age.busy || (upTo 4).any (fun m => !(s.arrsOf m (fun a => decide (a.st = .active) || decide (a.st = .writing))).isEmpty) then
    s.ageRefuse sAgeBusy
  else if !ageRecordOk (r.getD []) then s.ageRefuse sAgeBadSet
  else (s.applyAge (r.getD [])).ageRefuse sOK

/-- R139: a laser's bias reaches 90 % of its end-of-life value. 1,000 shows a bias held at the end of life (R450): it stays, and only
LASER_END_OF_LIFE brings it. -/
def laserWarn (s : State) (e : Nat) (bias : W16) : State :=
  let x := s.laser e
  let s := s.setLaser e (true, if x.2 = 1000 then 1000 else if 1000 ≤ bias.toNat then 999 else bias)
  if x.1 then s else s.log .degraded { typ := tLaser, detail := e }

end State

end Sys2Proof.Machine
end

