-- ==== Sys2Proof/Machine/Beat.lean ====
section
/-! DEFINITION. Beats: batch formation (R221 to R225), the commit sweep (R226 to R229), the beat boundary (R15, R469, R470,
R185), the rotation of reload contexts (R159), and the drain of a context (R200). -/

namespace Sys2Proof.Machine

/-- R470: CAUSE of a mast: the largest of its five terms, the lowest code among equals; FIXED when every term is zero. -/
def causeOf (l : List Rat) : Nat :=
  let x := l.foldl max 0
  if x = 0 then 7 else l.findIdx (· = x) + 1

/-- ARRAY (R470), in ticks of 10 ns: the step slots of the mast's largest ply, each 48 CLK_ARR cycles, or 80 ns, long, times the step-time
factor of the mast's restore interval (Table 2.7). -/
def arrayTerm (slots : Tab Nat) (i : BitVec 2) : Rat :=
  let n := State.intervalN i
  ((8 * (slots.map (·.2)).foldl max 0 * n : Nat) : Rat) / ((n - 1 : Nat) : Rat)

/-- W (R186), in ticks: what writing `n` arrays takes of the write engine, and of HBM. -/
def reloadTime (n : Nat) : Rat := max ((2050 * ((n + 127) / 128) : Nat) : Rat) (((n * derivedBytes : Nat) : Rat) / 51200)

/-- MEMORY (R470), in ticks: the bytes moved, the writes of the next layer among them, at 5.12 TB/s; at least W in reload mode. -/
def memoryTerm (moved reload : Nat) : Rat := max (((moved + reload * derivedBytes : Nat) : Rat) / 51200) (reloadTime reload)

/-- Selection order of R222: promoted ones by order of promotion, the others by priority and deadline; then by index. -/
def selKey (i : Nat) (e : SeqEntry) : Nat × Nat × Nat × Nat :=
  if e.promoted then (0, e.promoOrder, 0, i)
  else (1, 7 - e.priority.toNat, if e.deadline = 0 then 2 ^ 64 else e.deadline.toNat, i)

def keyLt (a b : Nat × Nat × Nat × Nat) : Bool :=
  decide (a.1 < b.1) || (a.1 = b.1 && (decide (a.2.1 < b.2.1) || (a.2.1 = b.2.1 &&
    (decide (a.2.2.1 < b.2.2.1) || (a.2.2.1 = b.2.2.1 && decide (a.2.2.2 < b.2.2.2))))))

def insertKey (x : Nat × (Nat × Nat × Nat × Nat)) : List (Nat × (Nat × Nat × Nat × Nat)) → List (Nat × (Nat × Nat × Nat × Nat))
  | [] => [x]
  | y :: t => if keyLt x.2 y.2 then x :: y :: t else y :: insertKey x t

/-- First τ of each member, in batch-list order (R101, R163). -/
def tausFrom : Nat → List Member → List Nat
  | _, [] => []
  | n, m :: t => n :: tausFrom (n + m.toks.length) t

/-- Token vectors of a batch. -/
def batchToks (b : Batch) : Nat := (b.members.map (fun m => m.toks.length)).foldl (· + ·) 0

/-- Shares of the prefill budget (R223): each request gets at least its first share, then the rest in order up to its cap. -/
def shareRest : Nat → List (Nat × Nat) → List Nat
  | _, [] => []
  | n, (base, cap) :: t => let x := min n (cap - base); (base + x) :: shareRest (n - x) t

/-- First shares under a limit on vectors (R223, reload mode); none once no vector is left. -/
def firstShares : Nat → List Nat → List Nat
  | _, [] => []
  | n, want :: t => let x := min want n; x :: firstShares (n - x) t

/-- Ascending by step number as R4 compares it. -/
def insertStep (b : Batch) : List Batch → List Batch
  | [] => [b]
  | c :: t => if later 48 c.step b.step then b :: c :: t else c :: insertStep b t

/-- Key of the tables that a replay's rovings go to (R354). -/
def rplKey : Nat := 17 * 131072

namespace State

/-! The commit sweep. -/

/-- The group whose streams hold SAMPLE (R16). -/
def samples (s : State) (c g : Nat) : Bool := (s.progOf c).any (fun o => decide (opCode o = cSample) && decide (opGroup o = g))

/-- RESTART precedes the records of a re-run step (R232). -/
def restartRec (s : State) (b : Batch) (m : Member) : State :=
  if m.rerun then s.record m.idx rtRestart 0 b.step 0 else s

/-- The recorder owes a STEP record of an armed sequence (R345, R349). -/
def oweStep (s : State) (b : Batch) (m : Member) (k tauL length outcome token lp : Nat) : State :=
  if s.recorder.en && s.recorder.armed.any (fun a => a.1 = m.idx) then
    let r : RecDue :=
      { idx := m.idx
        step := b.step
        tau := b.taus.getD k 0
        batchToks := batchToks b
        batchSeqs := b.members.length
        toks := m.toks
        length := length
        outcome := outcome
        sampled := m.samples
        restart := m.rerun
        token := token
        lp := lp
        tauL := tauL
        trimGen := b.trimGen
        ranges := m.ranges }
    { s with recorder := { s.recorder with due := s.recorder.due ++ [r] } }
  else s

/-- A notice is owed to the operator partitions that name the context (R292, Table 12.7). -/
def oweNotice (s : State) (b : Batch) (m : Member) (token : Nat) : State :=
  let e := s.entry m.idx
  let n := leBytes 4 (s.handleOf m.idx) ++ leBytes 4 token ++ leBytes 4 e.length.toNat ++ leBytes 1 (stateCode e.st)
    ++ leBytes 1 m.samples.toNat ++ [0, 0]
  { s with noticesDue := s.noticesDue ++ [(b.ctx, n)] }

/-- Tokens of a chunk that COUNT_INPUT counts (R302). -/
def countedInput (x : Smp) (m : Member) : List Nat :=
  if smpCountInput x.par && m.prefill then (if m.nextFirst then m.toks.drop 1 else m.toks) else []

/-- R229, R302, R303: the commit of one member's step. `t` is the sampler's token with its LP. -/
def commitStep (s : State) (b : Batch) (m : Member) (t : Option Sampled) : State :=
  let e := s.entry m.idx
  let n := m.toks.length
  let x := s.smpOf m.idx
  let l := e.length.toNat + n
  let inp := s.input m.idx
  let s :=
    if m.prefill then
      s.setInput m.idx { inp with toks := inp.toks.drop n, off := (inp.off + n) % 1024, nextFirst := inp.nextFirst && decide (n = 0) }
    else s
  let add := (match t with | some v => [v.token] | none => []) ++ countedInput x m
  let cnt := countToks x.counts add
  let s := if cnt.2 && !x.full then { s with smp := { s.smp with full := satAdd s.smp.full 1 } } else s
  let x1 : Smp := { x with counts := cnt.1, full := x.full || cnt.2 }
  let e1 : SeqEntry :=
    { e with
      length := BitVec.ofNat 21 l
      input := if m.prefill then e.input - BitVec.ofNat 21 n else e.input
      inFlight := false }
  match t with
  | none =>
    let s := (s.setSmp m.idx x1).setEntry m.idx { e1 with st := if e1.input = 0 then .decode else .prefill }
    s.oweNotice b m 0
  | some v =>
    let x2 : Smp := { x1 with new := x1.new + 1, due := some v.token }
    let st := stopsAt x2 v.token l
    let e2 : SeqEntry := { e1 with nextValid := true, next := BitVec.ofNat 20 v.token, commits := e1.commits + 1 }
    let s := (s.setSmp m.idx x2).setEntry m.idx { e2 with st := if e2.input = 0 then .decode else .prefill }
    let s := s.putReel m.idx {
      typ := rtToken
      flags := tokenFlags st (decide (smpTemp x.par = 0)) x2.full
      lp := v.lp.toNat
      token := v.token
      length := l
      step := b.step
      handle := s.handleOf m.idx }
    let s :=
      if endReason st ≠ 0 then (s.settle m.idx .ended).record m.idx rtEnd 0 b.step (endReason st)
      else if st.tokWait || st.seqWait then s.settle m.idx .waiting
      else s
    s.oweNotice b m v.token

/-- A step whose input holds a token ID at or above VOCAB, where the context's GATHER runs on members: they find it, and R177 has the step
faulted with FAULT 2h; Table 16.5 has no item for it, so that the head answers from the IDs that it sent (DESIGN CHOICE, log entry 46). -/
def badInput (s : State) (c : Nat) (m : Member) : Bool :=
  !(s.progOf c).any (fun o => decide (opCode o = cGather)) && decide (1 < s.jobSize) && m.toks.any (fun t => decide (s.vocabOf c ≤ t))

/-- R227: one member at its commit point. -/
def commitOne (b : Batch) (r : State × Nat × Nat) (m : Member) : State × Nat × Nat :=
  let s := r.1
  let k := r.2.1
  let tauL := r.2.2
  let e := s.entry m.idx
  let s := s.restartRec b m
  let n := m.toks.length
  let back (s : State) : State := (s.returnRows m.idx b.ctx e.length.toNat n).modEntry m.idx (fun e => { e with inFlight := false })
  let t := s.sampled.find? (fun v => v.step = b.step && v.idx = m.idx)
  let (s, out) : State × Nat :=
    if e.cancelPend then (((back s).toCancelled m.idx b.step).cancelsQueue m.idx, 1)
    else if e.stepFault ≠ 0 ∨ s.badInput b.ctx m then ((back s).toFaulted m.idx b.step (if e.stepFault ≠ 0 then e.stepFault else 2), 2)
    else if s.deadlinePassed e then ((back s).toExpired m.idx b.step, 3)
    else if m.samples && t.isNone then ((back s).toFaulted m.idx b.step 4, 2)
    else (s.commitStep b m (if m.samples then t else none), 0)
  let tok := if out = 0 && m.samples then (t.map (·.token)).getD 0 else 0
  let lp := if out = 0 && m.samples then (t.map (·.lp.toNat)).getD 0 else 0
  let s := s.oweStep b m k (if m.samples then tauL else 0) e.length.toNat out tok lp
  let s := s.park m.idx
  (s, k + 1, tauL + m.samples.toNat)

/-- The COMMIT items of a batch (R239). -/
def commitItems (s : State) (b : Batch) (before : List Nat) : List (List Byte) :=
  b.members.mapIdx (fun k m =>
    let e := s.entry m.idx
    let len := before.getD k 0
    let ok := decide (e.length.toNat = len + m.toks.length)
    let out := if ok then 0 else if e.st = .cancelled then 1 else if e.st = .faulted then 2 else 3
    itemBytes kCommit out m.toks.length (s.handleOf m.idx) e.length.toNat 0 0 0)

/-- Event e is raised on every firmware spindle that runs (Table 12.3). -/
def raiseSpindles (s : State) (m e : Nat) : State :=
  if (s.spn m).fwLive = 0 then s else (upTo (128 - s.opCount m)).foldl (fun s i => s.event m i e) s

/-- The commit sweep (R226): the batch of a context that the sampler has delivered is taken member by member. `written` is how many of
the completions that it queues the host takes (R467). -/
def commitSweep (s : State) (c written : Nat) : State :=
  match s.batches.find? (fun b => b.ctx = c && b.sampledAll && !b.swept && !b.replay) with
  | none => s
  | some b =>
    let before := b.members.map (fun m => (s.entry m.idx).length.toNat)
    let idle := s.seq.held.isEmpty
    let s := (b.members.foldl (commitOne b) (s, 0, 0)).1
    let s := if idle then s.cplRetry written s.seq.held.length else s
    let s := { s with
      sampled := s.sampled.filter (fun v => v.step ≠ b.step)
      batches := s.batches.map (fun (x : Batch) => if x.step = b.step ∧ x.ctx = c ∧ !x.replay then { x with swept := true } else x) }
    let s := s.sendMembers b.step (s.commitItems b before)
    (upTo 4).foldl (fun s m => s.raiseSpindles m 1) s

/-! Formation. -/

/-- The runnable sequences of a context in the order of R222. -/
def candidates (s : State) (c : Nat) : List Nat :=
  (((tabKeys s.entries (fun i e => decide (e.ctx.toNat = c) && s.runnable i)).map (fun i => (i, selKey i (s.entry i)))).foldl
    (fun l x => insertKey x l) []).map (·.1)

/-- Token vectors a candidate's step can at most take. -/
def wantOf (s : State) (i : Nat) : Nat := if (s.entry i).st = .decode then 1 else min (s.entry i).input.toNat s.chunkMax

/-- R253, R222: the candidates in their order, each topped up before it counts as runnable; those whose rows are there are selected, up
to `n`, and passed over beyond. `used` counts the store blocks that the selected ones will take. -/
def pick (s : State) (c : Nat) : Nat → Nat → List Nat → State × List Nat × List Nat
  | _, _, [] => (s, [], [])
  | n, used, i :: t =>
    let len := (s.entry i).length.toNat
    let want := s.wantOf i
    if s.rowsReady i c len want used then
      let short := s.stepRows i c len want - (s.tbl i).resRows.toNat
      let s := if short = 0 then s else s.addRows i (s.topUpRows c short)
      if n = 0 then
        let r := s.pick c 0 used t
        (r.1, r.2.1, i :: r.2.2)
      else
        let r := s.pick c (n - 1) (used + s.stepBlocks i c len want) t
        (r.1, i :: r.2.1, r.2.2)
    else s.starve.pick c n used t

/-- R223: the token vectors of each selected sequence; 0 for one that finds none left (reload mode). -/
def shares (s : State) (c : Nat) (sel : List Nat) : List Nat :=
  let isD (i : Nat) : Bool := (s.entry i).st = .decode
  let want (i : Nat) : Nat := if isD i then 1 else min 8 (s.entry i).input.toNat
  let cap (i : Nat) : Nat := if isD i then 1 else min (s.entry i).input.toNat s.chunkMax
  if s.isReload c then
    let first := firstShares 1024 (sel.map want)
    shareRest (1024 - first.foldl (· + ·) 0) ((first.zip sel).map (fun x => (x.1, if x.1 = 0 then 0 else cap x.2)))
  else
    let used := ((sel.filter (fun i => !isD i)).map want).foldl (· + ·) 0
    shareRest (8192 - used) (sel.map (fun i => (want i, cap i)))

/-- R224: SKIP of a runnable sequence that is passed over, and its promotion at AGE_LIMIT. Those promoted at one formation share their
place in the order of promotion, and go by index (R222). What SKIP holds after an advance past its ten bits is a free value (log entry
95). -/
def passOver (s : State) (i : Nat) : State :=
  let e := s.entry i
  let r := s.free
  let (s, k) : State × BitVec 10 := if e.skip = 1023 then (r.2, BitVec.ofNat 10 r.1) else (s, e.skip + 1)
  if !e.promoted && decide (s.ageLimit ≤ e.skip.toNat + 1) then
    { s.setEntry i { e with skip := k, promoted := true, promoOrder := s.seq.promoNext } with
      seq := { s.seq with promoted := satAdd s.seq.promoted 1 } }
  else s.setEntry i { e with skip := k }

/-- A selected sequence enters a step of t token vectors: rows, snapshot, IN_FLIGHT (R222, R253, R261). -/
def enroll (s : State) (c i t : Nat) : State × Member :=
  let e := s.entry i
  let inp := s.input i
  let decode := decide (e.st = .decode)
  let m : Member :=
    { idx := i
      base := e.length.toNat
      toks := if decode then [e.next.toNat] else inp.toks.take t
      prefill := !decode
      samples := decode || decide (e.input.toNat ≤ t)
      pages := s.snapshot i c e.length.toNat
      ranges := (s.xr i).ranges
      p0 := (s.xr i).p0
      nextFirst := !decode && inp.nextFirst }
  let s := s.formRows i c e.length.toNat t
  (s.setEntry i { e with inFlight := true, skip := 0, promoted := false }, m)

def enrollAll (s : State) (c : Nat) : List (Nat × Nat) → State × List Member
  | [] => (s, [])
  | (i, t) :: l =>
    let r := s.enroll c i t
    let q := r.1.enrollAll c l
    (q.1, r.2 :: q.2)

def trimGens (s : State) : List W32 := (upTo 4).map (fun m => (s.mast m).trimGen)

/-- The batch list, exclusion ranges and input tokens of a step go to the members (R238, R370). -/
def sendBatch (s : State) (b : Batch) : State :=
  let items := b.members.mapIdx (fun k m =>
    itemBytes kBatch 0 m.toks.length (s.handleOf m.idx) m.base (b.taus.getD k 0) m.p0 m.samples.toNat)
  let set := b.members.filter (fun m => m.ranges.any (fun w => w.getLsbD 63))
  let ranges := set.flatMap (fun m => [0, 3, 6].map (fun f => rangeItem (s.handleOf m.idx) f m.ranges))
  (s.sendMembers b.step (items ++ ranges)).sendInputs b.step (b.members.flatMap (·.toks))

/-- The first layer of a group. -/
def firstLayer (s : State) (c g : Nat) : Nat := ((s.groupAt c g).map (·.first)).getD 0
def lastLayer (s : State) (c g : Nat) : Nat := ((s.groupAt c g).map (·.last)).getD 0

/-- The next step number (R242). -/
def nextStep (s : State) : Nat × State :=
  let n := s.seq.step + 1
  (n.toNat, { s with seq := { s.seq with step := n } })

/-- R222: form one batch of a context, if it has a runnable sequence. -/
def form (s : State) (c : Nat) : Option Batch × State :=
  let cands := s.candidates c
  let r := s.pick c 1024 0 cands
  let s := r.1
  let sh := r.2.1.zip (s.shares c r.2.1)
  let sel := sh.filter (fun x => x.2 ≠ 0)
  let left := (sh.filter (fun x => x.2 = 0)).map (·.1) ++ r.2.2
  let s := left.foldl passOver s
  let s := { s with seq := { s.seq with promoNext := s.seq.promoNext + 1 } }
  if sel.isEmpty then (none, s)
  else
    let q := s.enrollAll c sel
    let p := q.1.nextStep
    let b : Batch :=
      { step := p.1
        ctx := c
        group := 0
        layer := s.firstLayer c 0
        members := q.2
        trimGen := s.trimGens
        taus := tausFrom 0 q.2 }
    (some b, p.2.sendBatch b)

/-- R232: a rolled-back batch is formed again: same members, chunks and step number; rows and snapshot anew (R263). -/
def reform (s : State) (b : Batch) : Batch × State :=
  let r := b.members.foldl (fun (r : State × List Member) m =>
    let s := r.1
    let pages := s.snapshot m.idx b.ctx m.base
    let s := s.formRows m.idx b.ctx m.base m.toks.length
    (s, r.2 ++ [{ m with pages := pages, rerun := !b.replay }])) (s, [])
  let b' : Batch :=
    { b with
      group := 0
      layer := r.1.firstLayer b.ctx 0
      members := r.2
      finished := false
      doneMasts := []
      released := false
      sampledAll := false
      swept := false
      loading := false
      trimGen := r.1.trimGens }
  (b', if b.replay then r.1 else r.1.sendBatch b')

/-! Arrays at a boundary (R47, R185). -/

/-- A batch of a context is in flight, or rolled back. -/
def inFlightCtx (s : State) (c : Nat) : Bool := s.batches.any (fun b => b.ctx = c) || s.rolled.any (fun b => b.ctx = c)

/-- The array's slot is in use in the beats to come: the context is bound, and in reload mode the slot lies in the half that
computes, and the context holds the rotation or still has a batch in flight (R159). -/
def slotInUse (s : State) (m : Nat) (r : SlotRef) : Bool :=
  let x := s.ctx r.ctx
  x.bound && (!s.isReload r.ctx
    || (decide (s.halfSlots r.ctx m ≤ r.slot) == x.half && (!x.sliced || x.holder || s.inFlightCtx r.ctx)))

/-- An array that a commit released leaves ACTIVE, and firmware DISCARDs it: BLANK in the slot that it may have been given since, or
RETIRED while RETIRE_PEND is set (R47, R157, Table 2.11). -/
def leaveReleased (s : State) (m p : Nat) : State :=
  if (s.arr m p).retirePend then s.toRetired m p else s.modArr m p (fun a => { a with st := .blank, leaving := false })

/-- R47: an array enters or leaves ACTIVE at a boundary. -/
def enterActive (s : State) (m p : Nat) : State :=
  let a := s.arr m p
  if a.leaving then s.leaveReleased m p
  else
  match a.slot with
  | some r =>
    let x := s.spl m p
    let c := s.cal m p
    if a.st = .ready then
      if s.slotInUse m r && !a.retirePend && decide (c.cal = .valid) && decide (x.st = .valid) && decide (x.lmap = a.lmap)
          && !s.dieCal m (dieOf p) && a.write.isNone then
        s.setArr m p { a with st := .active }
      else s
    else if a.st = .active ∧ !s.slotInUse m r then
      if a.retirePend then s.leaveSlot m p else s.setArr m p { a with st := .ready }
    else s
  | none => if a.st = .active then s.leaveSlot m p else s

/-- The boundary for the arrays of a mast; firmware issues what had to wait for them to leave ACTIVE. -/
def boundaryArrays (s : State) (m : Nat) : State :=
  (s.arrsOf m (fun a => a.slot.isSome || decide (a.st = .active) || a.fw.isSome)).foldl (fun s p => (s.enterActive m p).fwNext m p) s

/-! Reload mode (R184 to R186). -/

/-- The layer after a layer of a context on this device; the first one after the last. -/
def nextLayer (s : State) (c l : Nat) : Nat :=
  let ls := s.layersOf c
  let i := ls.findIdx (· = l)
  ls.getD ((i + 1) % max 1 ls.length) 0

/-- The group of a layer. -/
def groupOfLayer (s : State) (c l : Nat) : Nat := (s.groupsOf c).findIdx (fun g => decide (g.first ≤ l) && decide (l ≤ g.last))

/-- The layer that a half holds. -/
def heldBy (s : State) (c : Nat) (h : Bool) : Option Nat := if h then (s.ctx c).held1 else (s.ctx c).held0

/-- The sequencer writes the arrays and splice regions of a layer into a half (R185); R186 counts the arrays. -/
def loadLayer (s : State) (c l : Nat) (h : Bool) : State :=
  let g := s.groupOfLayer c l
  let s := s.modCtx c (fun x => if h then { x with held1 := some l } else { x with held0 := some l })
  (s.groupMasts c g).foldl (fun s m =>
    let plies := s.layerPlies c g m l
    let uses := (s.usesOn c m).filter (fun u => plies.contains u.ply.index)
    let s := uses.foldl (fun s u =>
      match s.slotArr m c (u.slot + (if h then s.halfSlots c m else 0)) with
      | some p => s.firmwareWrite m p c u.slot (s.targetMap m p)
      | none => s) s
    s.modStream m (fun x => { x with reload := uses.length })) s

/-- Writes of a reload context's next layer still run. -/
def reloadBusy (s : State) (c : Nat) : Bool :=
  (upTo 4).any (fun m => !(s.arrsOf m (fun a => decide (a.slot.map (·.ctx) = some c) && (a.write.isSome || a.fw.isSome))).isEmpty
    || (s.arrsOf m (fun a => decide (a.slot.map (·.ctx) = some c))).any (fun p => (s.spl m p).busy))

/-- A reload batch's next beat: compute the layer in the other half where that half holds it, and write the next layer into
the half left; else spend a beat loading it (R185). -/
def reloadBeat (s : State) (b : Batch) : Batch × State :=
  let h := (s.ctx b.ctx).half
  if s.heldBy b.ctx (!h) = some b.layer then
    let s := s.modCtx b.ctx (fun x => { x with half := !h })
    let s := (upTo 4).foldl boundaryArrays s
    ({ b with loading := false, doneMasts := [] }, s.loadLayer b.ctx (s.nextLayer b.ctx b.layer) h)
  else ({ b with loading := true, doneMasts := s.groupMasts b.ctx b.group }, s.loadLayer b.ctx b.layer (!h))

/-! Streams of a beat. -/

/-- The stream of a mast begins a batch's pass over block `blk` (R162, R163, R167, R184), and its sequencer's doorbell is raised on the
mast's firmware spindles (Tables 12.3 and 12.5, log entry 131). -/
def startStream (s : State) (b : Batch) (blk m : Nat) : State :=
  let ops := streamOps (s.progOf b.ctx) b.group m
  let first := s.firstLayer b.ctx b.group
  let later_ := s.isReload b.ctx && decide (b.layer ≠ first)
  (s.raiseSpindles m 0).modStream m (fun x => { x with
    busy := true
    ctx := BitVec.ofNat 4 b.ctx
    group := BitVec.ofNat 4 b.group
    layer := BitVec.ofNat 10 (if later_ then b.layer else first)
    block := BitVec.ofNat 4 blk
    wait := 0
    step := b.step
    pos := if later_ then bodyStart ops else 0
    iter := if later_ then b.layer - first else 0
    started := false
    done := []
    since := s.now
    bars := 0
    jobs := []
    latest := 0 })

/-- A mast with an empty stream, or one that has nothing for the layer, does nothing for the group (R162, R184). -/
def idleStream (s : State) (b : Batch) (m : Nat) : Bool :=
  let ops := streamOps (s.progOf b.ctx) b.group m
  ops.isEmpty || (s.isReload b.ctx && decide (b.layer ≠ s.firstLayer b.ctx b.group) && (repeatAt ops).isNone)

/-- A batch begins its work of a beat on its group's masts. -/
def startBatch (s : State) (b : Batch) : Batch × State :=
  if b.loading then (b, s)
  else
    let ms := s.groupMasts b.ctx b.group
    let b := { b with doneMasts := ms.filter (fun m => s.idleStream b m) }
    (b, (ms.filter (fun m => !s.idleStream b m)).foldl (fun s m => s.startStream b 0 m) s)

/-- Put a batch that enters a beat in place: reload work, then its streams. -/
def beginBeat (s : State) (b : Batch) : Batch × State :=
  let (b, s) := if s.isReload b.ctx then s.reloadBeat b else (b, s)
  s.startBatch b

/-! The boundary. -/

/-- A batch works in the running beat and has completed its work: every stream done, and in the group that holds SAMPLE the
commit sweep run (R15, R16). -/
def beatDone (s : State) (b : Batch) : Bool :=
  b.finished ||
    ((s.groupMasts b.ctx b.group).all (fun m => b.doneMasts.contains m)
      && (b.swept || b.remote || b.loading || !s.samples b.ctx b.group || (s.isReload b.ctx && decide (b.layer ≠ s.lastLayer b.ctx b.group)))
      && !(s.isReload b.ctx && s.reloadBusy b.ctx))

/-- The batch of a mast in the running beat. -/
def batchOn (s : State) (m : Nat) : Option Batch :=
  s.batches.find? (fun b => !b.finished && (s.groupMasts b.ctx b.group).contains m)

/-- A mast's batch has done its work of the beat but for writes of its next layer (R186). -/
def reloadWait (s : State) (m : Nat) : Bool :=
  match s.batchOn m with
  | some b => s.isReload b.ctx && b.doneMasts.contains m && s.reloadBusy b.ctx
  | none => false

/-- R18: MAST_BEAT_STAT of a mast at the end of a beat. -/
def beatStat (s : State) (terms : List MastTerms) (m : Nat) : State :=
  let b := s.batchOn m
  let t := terms.find? (fun t => t.mast = m)
  let x := s.stream m
  let cause := match b, t with
    | some _, some t =>
      if t.short then 6
      else causeOf [arrayTerm x.slots (s.mast m).effInt, memoryTerm x.moved x.reload, t.attend, t.vector, t.recv]
    | some _, none => causeOf [arrayTerm x.slots (s.mast m).effInt, memoryTerm x.moved x.reload]
    | none, _ => 6
  let s := s.modMast m (fun x => { x with
    cause := BitVec.ofNat 4 cause
    tokens := BitVec.ofNat 14 ((b.map batchToks).getD 0)
    duration := satNat 32 (s.now - s.beatStart.toNat) })
  match b, t with
  | some b, some t => if s.isReload b.ctx then s.modStream m (fun x => { x with rlstall := x.rlstall + BitVec.ofNat 64 t.wait }) else s
  | _, _ => s

/-- A batch after the beat: it stays in its group for its next layer, or it has finished the group. -/
def afterBeat (s : State) (b : Batch) : Batch :=
  if b.finished then b
  else if s.isReload b.ctx && b.loading then { b with doneMasts := [] }
  else if s.isReload b.ctx && decide (b.layer ≠ s.lastLayer b.ctx b.group) then { b with layer := b.layer + 1, doneMasts := [] }
  else { b with finished := true }

/-- The batch has left its last group: a head's once it is swept, a member's once its steps are committed. -/
def gone (s : State) (b : Batch) : Bool :=
  b.finished && decide ((s.groupsOf b.ctx).length ≤ b.group + 1) && (b.swept || !b.remote)

/-- The masts claimed so far at this boundary, the batches placed, and the state. -/
structure Claims where
  masts : List Nat
  placed : List Batch

def freeFor (s : State) (k : Claims) (c g : Nat) : Bool :=
  !((s.groupMasts c g).any (fun m => k.masts.contains m)) && !k.placed.any (fun b => b.ctx = c && b.group = g)

/-- Place a batch into a group: it claims the group's masts and begins its beat. -/
def place (r : State × Claims) (b : Batch) : State × Claims :=
  let (b, s) := { r.1 with batches := r.1.batches ++ [b] }.beginBeat b
  (s, ⟨r.2.masts ++ s.groupMasts b.ctx b.group, r.2.placed ++ [b]⟩)

/-- R469, rule 2 and 3: a finished batch moves into its next group or keeps its place. -/
def moveOn (r : State × Claims) (b : Batch) : State × Claims :=
  let g := b.group + 1
  if g < (r.1.groupsOf b.ctx).length ∧ r.1.freeFor r.2 b.ctx g then
    place r { b with group := g, layer := r.1.firstLayer b.ctx g, finished := false, doneMasts := [] }
  else (r.1, { r.2 with placed := r.2.placed ++ [b] })

/-- R238: a batch whose list a member has received enters the first group; the member takes rows and snapshots by the head's
list (R270). -/
def takeRemote (r : State × Claims) (b : Batch) : State × Claims :=
  let s := r.1
  if (s.ctx b.ctx).bound && s.freeFor r.2 b.ctx 0 && !(s.isReload b.ctx && r.2.placed.any (fun x => x.ctx = b.ctx)) then
    let q := b.members.foldl (fun (q : State × List Member) m =>
      let pages := q.1.snapshot m.idx b.ctx m.base
      (q.1.formRows m.idx b.ctx m.base m.toks.length, q.2 ++ [{ m with pages := pages }])) (s, [])
    let s := { q.1 with remoteWait := q.1.remoteWait.filter (fun x => !(x.step = b.step && x.ctx = b.ctx)) }
    place (s, r.2) { b with members := q.2, layer := s.firstLayer b.ctx 0, trimGen := s.trimGens }
  else r

/-- R232: rolled-back batches are formed again first, each when its first group is free. -/
def takeRolled (r : State × Claims) (b : Batch) : State × Claims :=
  let s := r.1
  if s.freeFor r.2 b.ctx 0 && !(s.isReload b.ctx && r.2.placed.any (fun x => x.ctx = b.ctx)) then
    let (b', s) := s.reform b
    place ({ s with rolled := s.rolled.filter (fun x => !(x.step = b.step && x.ctx = b.ctx && x.replay = b.replay)) }, r.2) b'
  else r

/-- R354: the next replay batch of a context, where one may be formed in place of a new batch. -/
def replayBatch (s : State) (c : Nat) : Option (Batch × State) :=
  match s.rpl.job with
  | none => none
  | some j =>
    match j.steps with
    | [] => none
    | x :: _ =>
      if j.ctx ≠ c ∨ j.flight ∨ j.abort ∨ j.gap < max 1 s.rpl.gap.toNat ∨ s.rpl.reading ∨ s.seq.linkStop then none
      else
        let m : Member :=
          { idx := rplKey
            base := x.base
            toks := x.toks
            prefill := decide (1 < x.toks.length)
            samples := x.sampled
            pages := s.snapshot rplKey c x.base
            ranges := x.ranges
            p0 := j.p0 }
        let s := s.formRows rplKey c x.base x.toks.length
        let b : Batch :=
          { step := x.step
            ctx := c
            group := 0
            layer := s.firstLayer c 0
            members := [m]
            replay := true
            taus := [x.tau]
            tauL := x.tauL
            trimGen := s.trimGens }
        some (b, { s with rpl := { s.rpl with job := some { j with flight := true, gap := 0 } } })

/-- Ordinary formations of a context between replay batches are counted (R354). -/
def countGap (s : State) (c : Nat) : State :=
  { s with rpl := { s.rpl with job := s.rpl.job.map (fun j => if j.ctx = c then { j with gap := j.gap + 1 } else j) } }

/-- The masts that a context's layer groups use. -/
def ctxMasts (s : State) (c : Nat) : List Nat := (upTo 4).filter (fun m => (s.groupsOf c).any (fun g => decide ((g.mask >>> m) % 2 = 1)))

/-- A new batch of a context may be formed: the context runs, holds the rotation where there is one, is headed here, its
slice has time left (R159), its first group is free (R469), and none of its masts sleeps (R405). -/
def mayForm (s : State) (k : Claims) (c : Nat) : Bool :=
  let x := s.ctx c
  decide (x.st = .running) && s.isHead c && (!x.sliced || (x.holder && x.given && !x.sliceOver)) && s.freeFor k c 0
    && !(s.isReload c && k.placed.any (fun b => b.ctx = c)) && decide (0 < (s.groupsOf c).length) && (s.ctxMasts c).all s.mastRuns

/-- The holder's slice begins with the first batch that enters its first layer group (R159). -/
def beginSlice (s : State) (c : Nat) : State :=
  if (s.ctx c).sliced && !(s.ctx c).sliceOn then
    s.modCtx c (fun x => { x with sliceOn := true, sliceStart := s.now, sliceOver := false })
  else s

/-- R222: one context's turn in the formation. -/
def formTurn (r : State × Claims) (c : Nat) : State × Claims :=
  if !r.1.mayForm r.2 c then r
  else
    match r.1.replayBatch c with
    | some (b, s) => place (s.beginSlice c, r.2) b
    | none =>
      match r.1.form c with
      | (none, s) => (s, r.2)
      | (some b, s) =>
        let s := { (s.countGap c) with seq := { s.seq with lastServed := c } }
        place (s.beginSlice c, r.2) b

/-- A context has a runnable sequence, the rotation apart. -/
def hasWork (s : State) (c : Nat) : Bool :=
  s.entries.any (fun ie => decide (ie.2.ctx.toNat = c) && (decide (ie.2.st = .prefill) || decide (ie.2.st = .decode)) && !ie.2.inFlight
    && !s.pagesAbsent ie.1 && decide (2 ≤ reelRoom (s.reel ie.1)) && (s.reel ie.1).held.isEmpty && decide ((s.reel ie.1).heldQ = 0) && (s.smpOf ie.1).due.isNone)
    && decide ((s.ctx c).st = .running)

/-- The arrays of a context leave their slots. -/
def dropSlots (s : State) (c : Nat) : State :=
  (upTo 4).foldl (fun s m =>
    (s.arrsOf m (fun a => decide (a.slot.map (·.ctx) = some c))).foldl (fun s p =>
      if (s.arr m p).st = .active then s.leaveSlot m p else s.modArr m p (fun a => { a with slot := none })) s) s

/-- An array that a slot can take: READY or BLANK, or about to be, released by a commit (log entry 121); in no slot, with no RETIRE_PEND
and no write (R157). -/
def slottable (a : Arr) : Bool :=
  (decide (a.st = .ready) || decide (a.st = .blank) || (a.leaving && !a.retirePend)) && a.slot.isNone && a.write.isNone

/-- A spare group keeps at least one of its arrays that are not RETIRED out of ply slots, and has at most 16 in them (R21, R155). -/
def groupRoom (s : State) (m g : Nat) : Bool :=
  let l := (groupArrays g).filter (fun p => (s.arr m p).st ≠ .retired)
  decide ((l.filter (fun p => (s.arr m p).slot.isSome)).length < min 16 (l.length - 1))

/-- Slots of a context on a mast that no array serves, ascending. -/
def emptySlots (s : State) (c m : Nat) : List Nat :=
  let n := ((s.ctx c).sect.map (fun x => x.panel.slots.getD m 0)).getD 0
  let held := (s.arrsOf m (fun a => decide (a.slot.map (·.ctx) = some c))).map (fun p => ((s.arr m p).slot.map (·.slot)).getD 0)
  (upTo n).filter (fun x => !held.contains x)

/-- A slot takes an array, and firmware writes it where the image bound, or being bound, has its derived image built. -/
def giveSlot (s : State) (c m x p : Nat) : State :=
  let s := s.modArr m p (fun a => { a with slot := some ⟨c, x⟩ })
  if s.isReload c ∨ (s.builtImage c m x).isNone then s else s.firmwareWrite m p c x (s.targetMap m p)

/-- Slots take the arrays given in turn, each where its spare group has room. -/
def giveSlots (s : State) (c m : Nat) : List Nat → List Nat → State
  | _, [] => s
  | [], _ => s
  | x :: xs, p :: ps =>
    if !s.isStandby m p && s.groupRoom m (groupOf p) then (s.giveSlot c m x p).giveSlots c m xs ps
    else s.giveSlots c m (x :: xs) ps

/-- The empty slots of a context on each mast, in ascending order, take in turn the lowest-numbered arrays that can be taken and are no
standby (R157). -/
def assignSlots (s : State) (c : Nat) : State :=
  let s := (upTo 4).foldl (fun s m => s.giveSlots c m (s.emptySlots c m) (s.arrsOf m slottable)) s
  s.modCtx c (fun x => { x with given := (upTo 4).all (fun m => (s.emptySlots c m).isEmpty) })

/-- A context of the rotation that is not its holder still holds arrays. -/
def holdsSlots (s : State) (c : Nat) : Bool :=
  (upTo 4).any (fun m => !(s.arrsOf m (fun a => decide (a.slot.map (·.ctx) = some c))).isEmpty)

/-- Contexts of the rotation that still have to give their arrays to the pool. -/
def outgoing (s : State) : List Nat := (upTo 16).filter (fun c => (s.ctx c).sliced && !(s.ctx c).holder && s.holdsSlots c)

/-- At a boundary, contexts of the rotation that are not its holder, and have no batch in flight, give up their arrays; then contexts
whose slots have not all had an array take what the pools hold, until nothing more is to come (R159, log entry 121). -/
def settleSlots (s : State) : State :=
  let s := (s.outgoing.filter (fun c => !s.inFlightCtx c)).foldl dropSlots s
  let last := s.outgoing.isEmpty
  (upTo 16).foldl (fun s c =>
    let x := s.ctx c
    if x.given || x.sect.isNone || (x.sliced && !x.holder) then s
    else
      let s := s.assignSlots c
      if last then s.modCtx c (fun x => { x with given := true }) else s) s

/-- A context becomes the holder of the rotation (R159). -/
def makeHolder (s : State) (c : Nat) : State := s.modCtx c (fun x => { x with
  holder := true
  given := false
  sliceOn := false
  sliceOver := false
  held0 := none
  held1 := none })

/-- The contexts of the rotation. -/
def ring (s : State) : List Nat := (upTo 16).filter (fun c => (s.ctx c).sliced)

/-- R159: the slice of the holder ends, and the next context with work takes the pools. -/
def rotate (s : State) : State :=
  match s.ring.find? (fun c => (s.ctx c).holder) with
  | none => s
  | some c =>
    if s.inFlightCtx c || !((s.ctx c).sliceOver || !s.hasWork c) then s
    else
      match (((upTo 16).map (fun k => (c + 1 + k) % 16)).filter (fun x => s.ring.contains x && x ≠ c)).find? s.hasWork with
      | some n => (s.modCtx c (fun x => { x with holder := false, sliceOn := false, sliceOver := false })).makeHolder n
      | none => s.modCtx c (fun x => { x with sliceOn := false, sliceOver := false })

/-- A digest round is due when the step counter has reached a multiple of 2^LOG2 (R325). -/
def roundDueAt (s : State) (before after : Nat) : State :=
  let n := 2 ^ (max 10 (min 40 s.integ.digLog2.toNat))
  if s.integ.digEn && decide (before / n < after / n) then { s with integ := { s.integ with roundDue := true } } else s

/-- A digest round that is due begins once none runs (R325). -/
def startRound (s : State) : State :=
  if s.integ.roundDue && s.integ.digEn && s.integ.round.isNone then
    let first (m : Nat) : Option Nat :=
      let n := (s.mast m).slotNo
      if n = 0 ∨ 512 ≤ n then some 0 else none
    { s with integ := { s.integ with round := some { step := s.seqStep, cycles := (upTo 4).map first }, digBusy := true, roundDue := false } }
  else s

/-- BEAT_BOUNDARY (R15, R469): nothing happens until every batch has completed its work of the beat. -/
def beatBoundary (s : State) (terms : List MastTerms) : State :=
  if s.beatOn && !s.batches.all (fun b => s.beatDone b) then s
  else if s.integ.phase ≠ 0 ∨ s.devFatal then s
  else
    let s := if s.beatOn then (upTo 4).foldl (fun s m => s.beatStat terms m) s else s
    let s := { s with batches := (s.batches.map s.afterBeat).filter (fun b => !s.gone b) }
    let s := { s with streams := tabMapAll {} (fun _ x => { x with busy := false, slots := [], moved := 0, reload := 0 }) s.streams }
    let s := (upTo 4).foldl boundaryTrim s
    let s := (upTo 4).foldl boundaryArrays s
    let s := s.rotate.settleSlots
    let before := s.seqStep
    let old := s.batches
    let r := (old.filter (fun b => !b.finished)).foldl place (s, ⟨[], []⟩)
    let r := ((old.filter (·.finished)).foldl (fun l b => insertStep b l) []).foldl moveOn r
    let r := s.remoteWait.foldl takeRemote r
    let r := s.rolled.foldl takeRolled r
    let r :=
      if r.1.rolled.isEmpty then
        ((upTo 16).map (fun k => (r.1.seq.lastServed + 1 + k) % 16)).foldl formTurn r
      else r
    let s := { r.1 with batches := r.2.placed }
    let on := s.batches.any (fun b => !b.finished)
    let s := { s with beatOn := on, beatStart := s.time }
    let s := (s.roundDueAt before s.seqStep).startRound
    (upTo 4).foldl (fun s m => s.raiseSpindles m 2) s

/-- SLICE_EXPIRED (R159): the holder's SLICE, in milliseconds, has elapsed. -/
def sliceExpired (s : State) : State :=
  match (upTo 16).find? (fun c => (s.ctx c).sliced && (s.ctx c).holder) with
  | none => s
  | some c =>
    let x := s.ctx c
    let slice := (x.sect.map (·.panel.slice)).getD 0
    if x.sliceOn ∧ x.sliceStart + 100000 * slice ≤ s.now then s.modCtx c (fun x => { x with sliceOver := true }) else s

end State

end Sys2Proof.Machine
end

