-- ==== Sys2Proof/Machine/Ply.lean ====
section
/-! DEFINITION. Plies (chapters 4, 5, 8 and 14): rows of the activation store, the terms of a token, the running sum and the
fused output, the checks on a token, reference mode, the binding of a ply and its tiles. -/

namespace Sys2Proof.Machine

/-- The bytes that encoded elements take. -/
def packElems (fmt : Nat) (l : List Nat) : List Byte := l.flatMap (leBytes (fmtBytes fmt))

/-- Elements of a row of bytes. -/
def unpackElems (fmt n : Nat) (b : List Byte) : List Nat := (upTo n).map (fun i => leAt b (i * fmtBytes fmt) (fmtBytes fmt))

/-- RL: lines of a row (R164). -/
def rowLines (width fmt : Nat) : Nat := ceilDiv (width * fmtBytes fmt) 4096

/-- Put bytes into a row at an offset; the row ends after `len` bytes and the rest of its lines is zero (R164). -/
def spliceBytes (old : List Byte) (off len : Nat) (b : List Byte) : List Byte :=
  slice ((slice old 0 off ++ b ++ old.drop (off + b.length)).take len) 0 old.length

/-- The line tag of a partial tile (Table 8.13). -/
def ptagOf (idx mast rank : Nat) (nonfin void : Bool) (terms : Nat) : W64 :=
  BitVec.ofNat 64 ((idx % 1024) <<< 26 ||| (mast % 4) <<< 24 ||| (rank % 4096) <<< 12 ||| 1 <<< 11
    ||| bit_ nonfin 10 ||| bit_ void 9 ||| min terms 511)

/-- The unit in the last place of a binary32 value. -/
def ulp32 (w : W32) : Rat :=
  let v := absQ (f32 w).toRat
  pow2 (max (if v = 0 then -126 else ilog2 v) (-126) - 23)

/-- The running sum over the terms of one column (R99 to R101). -/
def runSum (seed : W64) (step tau j : Nat) : Nat → W32 → List W32 → W32
  | _, a, [] => a
  | t, a, x :: l =>
    let d := (tau % 16384) * 262144 + j * 256 + t % 256
    runSum seed step tau j (t + 1) (stochAdd a x ((twist seed (BitVec.ofNat 48 step) (BitVec.ofNat 64 d)).toNat % 65536)) l

def sumTerms (seed : W64) (step tau j : Nat) : List W32 → W32
  | [] => 0
  | x :: l => runSum seed step tau j 1 x l

/-- The fused stage (R105 to R107): the output of one sum. -/
def fused (p : PlyPanel) (c b sum : W32) : Conv :=
  if p.outFmt = 5 then convTo 5 sum
  else
    let x := f32 sum
    let y :=
      if p.scaleEn && p.biasEn then rne32 (Ext.add (Ext.mul x (f32 c)) (f32 b))
      else if p.scaleEn then rne32 (Ext.mul x (f32 c))
      else if p.biasEn then rne32 (Ext.add x (f32 b))
      else if x.isNan then qNaN else sum
    convTo p.outFmt (actFn p.act y)

/-- What one token's pass through a ply gives. -/
structure PlyOut where
  stage : Stage
  sums : List W32
  outs : List Conv
  /-- n: the terms of each output. -/
  terms : Nat
  void : Bool
  nonfin : Bool
  /-- A partial input's tag differs from its PIN entry. -/
  mismatch : Bool
  deriving DecidableEq, Repr

namespace State

/-! Rows of the activation store (R164). -/

def rowBytes (s : State) (m a rl t : Nat) : List Byte := (upTo rl).flatMap (fun i => slice (s.line m (a + t * rl + i)).bytes 0 4096)

def readRow (s : State) (m a width fmt t : Nat) : List Nat := unpackElems fmt width (s.rowBytes m a (rowLines width fmt) t)

def readVals (s : State) (m a width fmt t : Nat) : List Ext := (s.readRow m a width fmt t).map (elemValue fmt)

/-- Write the lines of a row with one tag. -/
def putLines (s : State) (m a rl t : Nat) (b : List Byte) (tag : W64) : State :=
  (upTo rl).foldl (fun s i => s.setLine m (a + t * rl + i) { bytes := slice b (4096 * i) 4096, tag := tag }) s

def writeRow (s : State) (m a width fmt t : Nat) (l : List Nat) : State :=
  s.putLines m a (rowLines width fmt) t (packElems fmt (l.take width)) 0

/-- Write channels from `c0` on into a row of `width` elements. -/
def writePart (s : State) (m a width fmt t c0 : Nat) (l : List Nat) : State :=
  let rl := rowLines width fmt
  let n := fmtBytes fmt
  s.putLines m a rl t (spliceBytes (s.rowBytes m a rl t) (c0 * n) (width * n) (packElems fmt (l.take (width - c0)))) 0

/-! The operation a stream is at. -/

/-- The running batch of a mast's stream. -/
def streamBatch (s : State) (m : Nat) : Option Batch :=
  let x := s.stream m
  if x.busy then s.batches.find? (fun b => b.step = x.step && b.ctx = x.ctx.toNat && !b.finished) else none

def opsOf (s : State) (b : Batch) (m : Nat) : List (Nat × Nat) := streamOps (s.progOf b.ctx) b.group m

/-- Where a stream stands: its batch, its operations, the operation and its number. -/
structure At where
  b : Batch
  ops : List (Nat × Nat)
  num : Nat
  op : Nat
  pos : Nat
  iter : Nat
  blk : Nat
  layer : Nat
  deriving DecidableEq, Repr

/-- The stream's next operation, if it has the code named and the device is not halted. -/
def atOp (s : State) (m code : Nat) : Option At :=
  match s.streamBatch m with
  | none => none
  | some b =>
    let x := s.stream m
    let ops := s.opsOf b m
    match ops[x.pos]? with
    | none => none
    | some (num, o) =>
      let first := s.firstLayer b.ctx b.group
      let layer :=
        match repeatAt ops with
        | none => first
        | some r => if x.pos < bodyStart ops then first else if x.pos ≤ r then first + x.iter else s.lastLayer b.ctx b.group
      if opCode o = code ∧ s.integ.phase = 0 ∧ !s.devFatal then some ⟨b, ops, num, o, x.pos, x.iter, x.block.toNat, layer⟩ else none

/-- PLY and TENSOR fields with the strides added (R167). -/
def At.ply (a : At) (f : Nat) : Nat := f + plyAdd a.ops a.pos a.iter a.op
def At.tensor (a : At) (f : Nat) : Nat := f + tensorAdd a.ops a.pos a.iter a.op

/-- The operation is issued: MAST_LSQ_STAT shows it. -/
def issue (s : State) (m : Nat) (a : At) : State :=
  s.modStream m (fun x => { x with
    op := BitVec.ofNat 16 a.num
    layer := BitVec.ofNat 10 a.layer
    started := true
    wait := 0
    since := if x.started then x.since else s.now })

/-- The stream waits, with its cause (Table 8.10). -/
def waits (s : State) (m : Nat) (w : BitVec 4) : State := s.modStream m (fun x => { x with wait := w })

/-- Token vectors of a batch: member and place in the member's chunk, in batch order (R163). -/
def tokensOf (b : Batch) : List (Nat × Nat) :=
  (b.members.mapIdx (fun k m => (upTo m.toks.length).map (fun j => (k, j)))).flatten

/-- The token vectors of a block. -/
def blockToks (b : Batch) (blk : Nat) : List (Nat × Nat) := ((tokensOf b).drop (1024 * blk)).take 1024

def memberOf (b : Batch) (k : Nat) : Member := b.members.getD k { idx := 0, base := 0, toks := [], prefill := false, samples := false }

/-- Position of a token vector in its sequence. -/
def posOf (b : Batch) (kj : Nat × Nat) : Nat := (memberOf b kj.1).base + kj.2

/-- τ of a token vector (R101). -/
def tauOf (b : Batch) (kj : Nat × Nat) : Nat := b.taus.getD kj.1 0 + kj.2

/-- The token vector is its member's sampling vector, and τ of it among the sampling vectors of the batch (R178). -/
def isSampling (b : Batch) (kj : Nat × Nat) : Bool := (memberOf b kj.1).samples && decide (kj.2 + 1 = (memberOf b kj.1).toks.length)
def vecOf (b : Batch) (k : Nat) : Nat := ((b.members.take k).filter (·.samples)).length
def tauL (b : Batch) (k : Nat) : Nat := if b.replay then b.tauL else vecOf b k

/-! Reading failures (R182, R317). -/

/-- Integrity counters. -/
def countData (s : State) : State := { s with integ := { s.integ with data := s.integ.data + 1 } }

/-- A bad block of the master copy: the context is stopped and its image unbound (Table 14.2). -/
def masterBad (s : State) (c : Nat) (i : RecInfo) : State :=
  (s.log .ctxFatal { i with ctx := some c }).modCtx c (fun x => { x with bound := false })

/-- A block that an operation reads fails its check value, and is read again once: class of Table 14.2 (2 for a line or an inbox
row, 4 for the master copy), its place, and whether the second read fails too. -/
def readCheck (s : State) (m c : Nat) (bad : Option BlkFail) : State :=
  match bad with
  | none => s
  | some f =>
    let i : RecInfo :=
      if f.kind = 0 then { typ := tBlockCheck, source := m, detail := (2 <<< 60) + ((8 + m) <<< 56) + f.addr }
      else { blockInfoAt (if f.kind = 1 then 2 else 4) f.addr with source := m }
    if !f.again then s.transient { i with ctx := some c }
    else if f.kind = 2 then s.masterBad c i
    else s.log .jobFatal { i with ctx := some c }

/-! A token through a ply. -/

/-- The tensor of a panel as a ply tensor. -/
def plyTensor (s : State) (c : Nat) (p : PlyPanel) : PlyTensor :=
  match s.tensorOf c p.tensor with
  | some t => ⟨t.fmt, s.tensorBytes c t⟩
  | none => ⟨0, []⟩

/-- Activations of slot k. -/
def slotActs (st : Stage) (k : Nat) : List Int := (st.acts.drop (1024 * k)).take 1024

/-- A_j of a slot: that of the ply for slot 0, else +0 (R85). -/
def aTerm (s : State) (c : Nat) (p : PlyPanel) (x : List Ext) (k j : Nat) : Ext :=
  if k = 0 ∧ !p.dch.isEmpty then
    designated (s.outlier p.mast (s.plyIndex c p)) ((s.tensorOf c p.tensor).map (·.fmt) |>.getD 0) p.dch x j
  else Ext.zero

/-- The reference term of R350 for column j of slot k. -/
def refTerm (t : PlyTensor) (st : Stage) (k j : Nat) (a : Ext) : W32 :=
  if st.nonfinite then qNaN
  else if st.zeroScale then rne32 a
  else
    let acts := slotActs st k
    let dot := ((upTo 1024).map (fun i => (acts.getD i 0 : Rat) * (masterValue t.fmt (t.code k i j)).toRat)).foldl (· + ·) 0
    rne32 (Ext.add (Ext.mul (Ext.mul (Ext.ofRat (pow2 st.e)) (f32 (t.t j))) (Ext.ofRat dot)) a)

/-- The raw codes of a logical column of an array in one step, four phases. -/
def rawOf (s : State) (m p j : Nat) (a : List Int) (listed : List RawCode) : List Int :=
  (upTo 4).map (fun k => s.rawCode m p (s.physOf m p j) a k listed)

/-- One array's own corrected output (R75). -/
def arrayTerm (s : State) (m p : Nat) (st : Stage) (k j : Nat) (a : Ext) (listed : List RawCode) : W32 :=
  let acts := slotActs st k
  let r := s.region m p
  colOut st (regScale r j) (s.arrayPartial m p j (s.rawOf m p j acts listed)) (residual r acts j) a

/-- O_j of slot k from the arrays that serve it (R75, R87). -/
def slotTerm (s : State) (m : Nat) (ps : List Nat) (st : Stage) (k j : Nat) (a : Ext) (listed : List RawCode) : W32 :=
  match ps with
  | [] => 0
  | [p] => s.arrayTerm m p st k j a listed
  | p :: q :: _ =>
    let acts := slotActs st k
    let rp := s.region m p
    let rq := s.region m q
    colOut2 st (regScale rp j) (s.arrayPartial m p j (s.rawOf m p j acts listed)) (residual rp acts j)
      (regScale rq j) (s.arrayPartial m q j (s.rawOf m q j acts listed)) (residual rq acts j) a

/-- The partial inputs of a home ply for a token of the block: tag and sums, in PIN order (R170). -/
def partialInputs (s : State) (m srcB n t : Nat) : List (W64 × List W32) :=
  (upTo n).map (fun i =>
    let l := s.line m (srcB + 1024 * i + t)
    (l.tag, (upTo 1024).map (fun j => BitVec.ofNat 32 (leAt l.bytes (4 * j) 4))))

/-- The tag names the feeder of a PIN entry (R170). -/
def tagFits (tag : W64) (p : Pin) : Bool :=
  decide (bitsOf tag.toNat 26 10 = p.index) && decide (bitsOf tag.toNat 24 2 = p.mast) && decide (bitsOf tag.toNat 12 12 = p.rank)
    && decide (bitsOf tag.toNat 11 1 = 1) && decide (bitsOf tag.toNat 36 28 = 0)

/-- A token's result, from the terms of its slots (R99 to R107). R99 counts a partial input's TERMS in n but adds the input once, and does
not say which t that addition has in the draw index of R101; the model numbers partial input i as t = S + i, one index for each input
(DESIGN CHOICE, log entry 119). -/
def plyOut (s : State) (c : Nat) (p : PlyPanel) (st : Stage) (step tau : Nat) (term : Nat → Nat → W32) (pins : List (W64 × List W32))
    (void0 : Bool) : PlyOut :=
  let f := s.fuse p.mast (s.plyIndex c p)
  let col (j : Nat) : W32 := sumTerms p.seed step tau j ((upTo p.slots.length).map (fun k => term k j) ++ pins.map (fun q => q.2.getD j 0))
  let sums := (upTo 1024).map col
  let outs := sums.mapIdx (fun j x => fused p (BitVec.ofNat 32 (leAt f (4 * j) 4)) (BitVec.ofNat 32 (leAt f (4096 + 4 * j) 4)) x)
  let n := p.slots.length + (pins.map (fun q => bitsOf q.1.toNat 0 9)).foldl (· + ·) 0
  { stage := st
    sums := sums
    outs := outs
    terms := n
    void := void0 || decide (256 < n) || pins.any (fun q => bitsOf q.1.toNat 9 1 = 1)
    nonfin := sums.any (fun x => !(f32 x).isFinite) || pins.any (fun q => bitsOf q.1.toNat 10 1 = 1)
    mismatch := (pins.zip p.pins).any (fun q => !tagFits q.1.1 q.2) }

/-- The input stage of a ply for a token (R77 to R79). -/
def plyStage (p : PlyPanel) (x : List Ext) : Stage := inputStage x p.k p.slots.length p.dch

/-- A token in reference mode (R350). -/
def refToken (s : State) (c : Nat) (p : PlyPanel) (x : List Ext) (step tau : Nat) (pins : List (W64 × List W32)) : PlyOut :=
  let st := plyStage p x
  let t := s.plyTensor c p
  s.plyOut c p st step tau (fun k j => refTerm t st k j (s.aTerm c p x k j)) pins false

/-- ZERO_SCALE and non-finite tokens are counted (R78, R79). -/
def countStage (s : State) (m : Nat) (st : Stage) : State :=
  s.modMast m (fun x => { x with
    splZero := if st.zeroScale then satAdd x.splZero 1 else x.splZero
    splNonfin := if st.nonfinite then satAdd x.splNonfin 1 else x.splNonfin })

/-- MAST_ACC_NONFIN and MAST_ACC_SAT (R102, R107). -/
def countOuts (s : State) (m : Nat) (outs : List Conv) : State :=
  s.modMast m (fun x => { x with
    accNonfin := satAdd x.accNonfin (outs.filter (·.nonfin)).length
    accSat := satAdd x.accSat (outs.filter (·.sat)).length })

/-- BOUND_VOID tiles are counted (R103, R133). -/
def countVoid (s : State) (m n : Nat) : State := s.modMast m (fun x => { x with kover := satAdd x.kover n })

/-! Where a ply's outputs go (R169, R170, R178). -/

/-- One token's outputs of ply `i` of an operation, written where the operation says. -/
def deliver (s : State) (m : Nat) (a : At) (p : PlyPanel) (i t : Nat) (kj : Nat × Nat) (outs : List Nat) (nonfin void : Bool) (terms : Nat) :
    State :=
  if opCode a.op = cLogits then
    let base := opA10 a.op + i
    let tau := tauL a.b kj.1
    let n := min 1024 (s.vocabOf a.b.ctx - 1024 * base)
    let ws := (outs.take n).map (BitVec.ofNat 32)
    if s.isHead a.b.ctx then
      (ws.mapIdx (fun j w => (j, w))).foldl (fun s jw => s.setLogit a.b.ctx (vecOf a.b kj.1) (1024 * base + jw.1) jw.2) s
    else if n = 0 then s
    else
      let pay := ws.flatMap (fun w => leBytes 4 w.toNat)
      s.sendData (s.tbl (memberOf a.b kj.1).idx).headRank 2 pkLogit
        (s.descHead pay a.b.step base ++ leBytes 2 n ++ [0] ++ leBytes 1 m ++ leBytes 2 tau) pay
  else if p.outFmt = 5 then
    s.putLines m (opDst a.op) 1 t (packElems 0 outs) (ptagOf p.index m s.jobRank nonfin void terms)
  else s.writePart m (opDst a.op) (opWidth a.op) (opFmtD a.op) t (1024 * (opB14 a.op + i)) outs

/-- The plies of an operation, context-relative (R169, R178). -/
def plyFirst (a : At) : Nat := a.ply (opA12 a.op)
def plyCount (a : At) : Nat := if opCode a.op = cLogits then opA14 a.op else opB15 a.op

/-- SRC_B of a PLY_MVM or SPLICE. -/
def srcB (a : At) : Nat := if opCode a.op = cLogits then 0 else opA10 a.op

/-- Token vectors that an operation's plies run on: place in the ply's token stream, token of the block. -/
def plyToks (a : At) : List (Nat × Nat) :=
  let l := (blockToks a.b a.blk).mapIdx (fun t kj => (t, kj))
  if opCode a.op = cLogits then (l.filter (fun x => isSampling a.b x.2)).map (fun x => (tauL a.b x.2.1, x.1))
  else l.map (fun x => (tauOf a.b x.2, x.1))

/-- The input of a token of the block, and its partial inputs. -/
def plyInput (s : State) (m : Nat) (a : At) (p : PlyPanel) (t : Nat) : List Ext := s.readVals m (opSrcA a.op) p.k (opFmtS a.op) t
def plyPins (s : State) (m : Nat) (a : At) (p : PlyPanel) (t : Nat) : List (W64 × List W32) :=
  if opCode a.op = cLogits then [] else s.partialInputs m (srcB a) p.pins.length t

/-- A list in pieces of eight; `n` is at least its length. -/
def eights {α : Type} : Nat → List α → List (List α)
  | 0, _ => []
  | _, [] => []
  | n + 1, l => l.take 8 :: eights n (l.drop 8)

/-- One tile of a ply run in reference mode (R172): its tokens are counted, and every line carries the tile's flags, as PLY_MVM writes
them (R98, R102, R103). -/
def spliceTile (m : Nat) (a : At) (p : PlyPanel) (i : Nat) (s : State) (toks : List (Nat × Nat)) : State :=
  let outs := toks.map (fun x => (x, s.refToken a.b.ctx p (s.plyInput m a p x.2) a.b.step x.1 (s.plyPins m a p x.2)))
  let void := outs.any (fun x => x.2.void)
  let nonfin := outs.any (fun x => x.2.nonfin)
  let s := if void then s.countVoid m 1 else s
  outs.foldl (fun s x =>
    let kj := (blockToks a.b a.blk).getD x.1.2 (0, 0)
    ((s.countStage m x.2.stage).countOuts m x.2.outs).deliver m a p i x.1.2 kj (x.2.outs.map (·.bits)) nonfin void x.2.terms) s

/-- PARTIAL_MISMATCH of a ply run in reference mode: read again, the tags differ again (R182, R329). -/
def pinMismatch (s : State) (m : Nat) (a : At) : State :=
  let s := s.modStream m (fun x => { x with errCause := 3, errOp := BitVec.ofNat 16 a.num })
  s.log .jobFatal { typ := tSequencer, source := m, step := some a.b.step, ctx := some a.b.ctx, detail := (3 <<< 28) + a.num }

/-! The attention engines (R282, R283). -/

/-- An engine put among others by the time at which it becomes free, lowest number first on ties; a list in number order goes in turn. -/
def insertFree (x : Nat × Nat) : List (Nat × Nat) → List (Nat × Nat)
  | [] => [x]
  | y :: t => if x.1 < y.1 then x :: y :: t else y :: insertFree x t

/-- The 64 engines of a mast in the order in which they become free, each with the time; one that is free now counts from now. -/
def freeOrder (s : State) (m : Nat) : List (Nat × Nat) :=
  ((upTo 64).map (fun e => (max s.now (tabGet 0 (s.stream m).engines e), e))).foldl (fun l x => insertFree x l) []

/-- Ticks of LOCAL_TIME that cycles of CLK_VEC take, at 2.4 GHz or, by DIV_VEC, 1.2 GHz. -/
def vecTicks (s : State) (c : Nat) : Nat := ceilDiv c (if (s.sail.device.map (·.divVec)).getD 0 = 1 then 12 else 24)

/-- An engine is busy for some cycles from a time on. -/
def busyEngine (s : State) (m e t c : Nat) : State :=
  s.modStream m (fun x => { x with engines := tabSet 0 x.engines e (t + s.vecTicks c) })

/-- A one-token SPLICE job: it takes the engine that becomes free first, for 32 × S cycles (R282, Table 8.4). -/
def spliceJob (s : State) (m slots : Nat) : State :=
  match s.freeOrder m with
  | [] => s
  | (t, e) :: _ =>
    let s := s.busyEngine m e t (32 * slots)
    if s.now < t then s.modStream m (fun x => { x with splices := x.splices.filter (s.now < ·) ++ [t] }) else s

/-- Engines occupied, and jobs that wait for engines (Table 12.10). -/
def attBusy (s : State) (m : Nat) : Nat := (tabKeys (s.stream m).engines (fun _ t => decide (s.now < t))).length
def attWaiting (s : State) (m : Nat) : Nat := (s.stream m).jobs.length + ((s.stream m).splices.filter (s.now < ·)).length

/-- A ply run in reference mode over the block, PARTIAL_MISMATCH apart: its tokens are one-token jobs of the attention engines. -/
def splicePly (s : State) (m : Nat) (a : At) (p : PlyPanel) (i : Nat) : State :=
  let toks := plyToks a
  let bad := toks.any (fun x => ((s.plyPins m a p x.2).zip p.pins).any (fun q => !tagFits q.1.1 q.2))
  if bad then s.pinMismatch m a
  else
    let s := toks.foldl (fun s _ => s.spliceJob m p.slots.length) s
    (eights toks.length toks).foldl (spliceTile m a p i) s

/-! Binding (R108, R171, R133). -/

/-- The ACTIVE arrays of each K slot of a panel. -/
def boundArrays (s : State) (c : Nat) (p : PlyPanel) : List (List Nat) :=
  p.slots.map (fun e => ((if e.1 then [e.2, e.2 + 1] else [e.2]).filterMap (fun x => s.slotArray c p.mast x)).filter
    (fun q => decide ((s.arr p.mast q).st = .active)))

/-- The context-relative slot of a slot entry: in reload mode that of the half that computes (R185). -/
def slotNow (s : State) (c m x : Nat) : Nat := x + (if s.isReload c && (s.ctx c).half then s.halfSlots c m else 0)

/-- The array that last served a slot, 7FFFh for none since the section took effect (R171). -/
def lastArray (s : State) (c m x : Nat) : Nat :=
  let x' := s.slotNow c m x
  match s.slotArr m c x' with
  | some p => p
  | none => (((s.ctx c).served.find? (fun y => y.1 = m && y.2.1 = x')).map (·.2.2)).getD 0x7FFF

/-- An ARRAY record of cause 6 or 7, once for each ply under one CTX_GEN (R87, R171). -/
def logBinding (s : State) (c : Nat) (p : PlyPanel) (slot arr cause : Nat) : State :=
  let k := (p.mast, p.index, cause)
  if (s.ctx c).logged.contains k then s
  else
    (s.modCtx c (fun x => { x with logged := x.logged ++ [k] })).log .degraded
      { typ := tArray, source := p.mast, ctx := some c, detail := arrDetail p.mast arr slot cause }

/-- A ply that is bound with a slot of no ACTIVE array runs as SPLICE (R171). -/
def substitute (s : State) (m : Nat) (a : At) (p : PlyPanel) (i : Nat) (arrays : List (List Nat)) : State :=
  let k := arrays.findIdx (·.isEmpty)
  let slot := (p.slots.getD k (false, 0)).2
  let s := s.modStream m (fun x => { x with subst := satAdd x.subst 1 })
  (s.logBinding a.b.ctx p (s.slotNow a.b.ctx m slot) (s.lastArray a.b.ctx m slot) 6).splicePly m a p i

/-- The lowest-numbered free accumulator. -/
def freeAcc (s : State) (m : Nat) : Option Nat := (upTo 256).find? (fun n => !(s.acc m n).bound)

/-- A ply binds an accumulator (R108); R133 is evaluated. -/
def bindAcc (s : State) (m n : Nat) (a : At) (p : PlyPanel) (arrays : List (List Nat)) : State :=
  let fails := arrays.any (fun l => l.any (fun q => !s.boundHolds m q))
  let s := (p.slots.zip arrays).foldl (fun s e =>
    if e.1.1 && e.2.length = 1 then s.logBinding a.b.ctx p (s.slotNow a.b.ctx m e.1.2) (e.2.headD 0) 7 else s) s
  s.setAcc m n {
    bound := true
    void := fails
    trimVoid := fails
    outFmt := BitVec.ofNat 3 p.outFmt
    act := BitVec.ofNat 2 p.act
    terms := BitVec.ofNat 9 p.slots.length
    ply := BitVec.ofNat 10 (s.plyIndex a.b.ctx p)
    seed := p.seed
    tiles := (s.acc m n).tiles
    ctx := a.b.ctx
    step := a.b.step
    op := a.num
    todo := plyToks a
    arrays := arrays }

/-- Plies of the operation still to start: each binds, runs as SPLICE, or waits for an accumulator. -/
def startPlies (s : State) (m : Nat) (a : At) (splice : Bool) : List Nat → State × List Nat
  | [] => (s, [])
  | i :: t =>
    match s.plyOf a.b.ctx m (plyFirst a + i) with
    | none => s.startPlies m a splice t
    | some p =>
      let arrays := s.boundArrays a.b.ctx p
      if splice || a.b.replay then (s.splicePly m a p i).startPlies m a splice t
      else if arrays.any (·.isEmpty) then (s.substitute m a p i arrays).startPlies m a splice t
      else if (plyToks a).isEmpty then s.startPlies m a splice t
      else
        match s.freeAcc m with
        | some n => (s.bindAcc m n a p arrays).startPlies m a splice t
        | none => (s, i :: t)

/-- The accumulators of the running operation. -/
def accsOf (s : State) (m : Nat) (a : At) : List Nat :=
  (tabKeys s.accs (fun k x => decide (k / 256 = m) && x.bound && decide (x.op = a.num) && decide (x.step = a.b.step) && decide (x.ctx = a.b.ctx))).map
    (· % 256)

/-- A pass has ended: the next block's begins, or the mast has completed its batch's work (R163, R15). -/
def endPass (s : State) (m : Nat) (b : Batch) : State :=
  let x := s.stream m
  let n := ceilDiv (batchToks b) 1024
  if x.block.toNat + 1 < n then s.startStream b (x.block.toNat + 1) m
  else
    let s := s.modStream m (fun x => { x with busy := false, wait := 0 })
    { s with batches := s.batches.map (fun (y : Batch) =>
        if y.step = b.step ∧ y.ctx = b.ctx ∧ !y.finished then { y with doneMasts := y.doneMasts ++ [m] } else y) }

/-- The stream goes on to the operation at `pos` of an iteration, or its pass ends there. -/
def goTo (s : State) (m : Nat) (a : At) (pos iter : Nat) : State :=
  if pos < a.ops.length then
    s.modStream m (fun x => { x with pos := pos, iter := iter, started := false, wait := 0, done := [], left := [], since := s.now })
  else s.endPass m a.b

/-- The running operation completes. -/
def complete_ (s : State) (m : Nat) (a : At) : State := s.goTo m a (a.pos + 1) a.iter

/-- An operation whose plies have all run and drained completes; if the job has halted, nothing goes on. -/
def pliesDone (s : State) (m : Nat) (a : At) : State :=
  if s.integ.phase ≠ 0 then s
  else if (s.stream m).left.isEmpty ∧ (s.accsOf m a).isEmpty then s.complete_ m a
  else s

/-- PLY_MVM, SPLICE and LOGITS: the plies start; those that find no accumulator wait for the next issue (R108). -/
def runPlies (s : State) (m code : Nat) (bad : Option BlkFail) : State :=
  match s.atOp m code with
  | none => s
  | some a =>
    let first := !(s.stream m).started
    let s := if first then s.readCheck m a.b.ctx bad else s
    if s.integ.phase ≠ 0 then s
    else
      let s := s.issue m a
      let todo := if first then upTo (plyCount a) else (s.stream m).left
      let r := s.startPlies m a (decide (code = cSplice)) todo
      let s := r.1.modStream m (fun x => { x with left := r.2, wait := if r.2.isEmpty then 0 else 2 })
      s.pliesDone m a

/-! Token steps, checks, repeats (R320 to R322, R328 to R332). -/

/-- The operation that an accumulator works for. -/
def accOp (s : State) (m n : Nat) : Option At :=
  let x := s.acc m n
  if !x.bound then none
  else (([cPlyMvm, cLogits].filterMap (fun c => s.atOp m c)).find? (fun a => a.num = x.op && a.b.step = x.step && a.b.ctx = x.ctx))

/-- The panel of an accumulator's ply. -/
def accPanel (s : State) (m n : Nat) : Option PlyPanel :=
  let x := s.acc m n
  s.plyOf x.ctx m (x.ply.toNat - (s.ctx x.ctx).plyBase.getD m 0)

/-- R320: the deviation of a reference column, its limit, of one array in a step; REF_MULT 00h acts as 01h (Table 14.12). -/
def refDev (s : State) (m p r : Nat) (acts : List Int) (listed : List RawCode) : Rat × Rat :=
  let l := (s.arr m p).lmap
  let v (i : Nat) : Int := mapM l * refLevel l (decide (r = 1025)) i
  let rows := upTo 1024
  let x : Int := (rows.map (fun i => acts.getD i 0 * v i)).foldl (· + ·) 0
  let u (i : Nat) : Int := acts.getD i 0 + 128
  let uu : Int := (rows.map (fun i => u i * ((v i).natAbs : Int))).foldl (· + ·) 0
  let vv : Int := (rows.map u).foldl (· + ·) 0
  let y := s.arrayPartial m p r (s.rawOf m p r acts listed)
  let t := s.errUnits m p (s.colWord m p r).val.cg uu vv
  let k : Rat := if s.boundHolds m p then 1 else 2
  (absQ (y - (x : Rat)), (max 1 s.integ.refMult.toNat : Rat) / 4 * t * k)

/-- Feed RCERR (Table 6.2). -/
def feedRef (s : State) (m p : Nat) (d : Rat) : State :=
  let e := (floorInt (d * 256 / ((2 ^ (s.arr m p).span.toNat : Nat) : Rat))).toNat
  s.modAtrim m p (fun x => { x with refSum := x.refSum + e, refCnt := x.refCnt + 1 })

/-- The reference-column findings of one array in a step, with RCERR and the clip count fed. -/
def refCheck (s : State) (m p : Nat) (acts : List Int) (listed : List RawCode) : State × List Find :=
  let da := s.refDev m p 1024 acts listed
  let db := s.refDev m p 1025 acts listed
  let clip := ((upTo 1024).map (fun j => saturatedCodes (s.rawOf m p j acts listed))).foldl (· + ·) 0
  let s := ((s.feedRef m p da.1).feedRef m p db.1).modArr m p (fun a => { a with clip := satAdd a.clip clip })
  let rec_ (b : Bool) (d : Rat) : Find :=
    ⟨tRefColumn, BitVec.ofNat 64 ((m <<< 62) + (p <<< 47) + bit_ b 46 + min (floorInt d).toNat 0xFFFFFFFF), [p]⟩
  (s, (if da.2 < da.1 then [rec_ false da.1] else []) ++ (if db.2 < db.1 then [rec_ true db.1] else []))

/-- Columns whose σ fails plausibility, with σ (R322). -/
def implausible (s : State) (m x : Nat) (sums : List W32) : List (Nat × W32) :=
  let bd := (s.band m x).band
  (sums.mapIdx (fun j w => (j, w))).filter (fun jw =>
    match f32 jw.2 with
    | .num q _ =>
      match bd[jw.1]? with
      | some (lo, hi) => decide (lo ≤ hi) && (decide (q < lo) || decide (hi < q))
      | none => false
    | _ => true)

/-- R321: least and greatest finite σ of each column. -/
def noteBand (s : State) (m x : Nat) (sums : List W32) : State :=
  let b := s.band m x
  let cur := sums.mapIdx (fun j w =>
    match f32 w with
    | .num q _ => match b.cur[j]? with | some (lo, hi) => if hi < lo then (q, q) else (min lo q, max hi q) | none => (q, q)
    | _ => b.cur.getD j (1, 0))
  s.setBand m x { b with toks := b.toks + 1, cur := cur }

/-- The E_k of an array's column (R131). -/
def eK (s : State) (m p j : Nat) (st : Stage) (k : Nat) (o : W32) : Rat :=
  let acts := slotActs st k
  let l := (s.arr m p).lmap
  let c := s.physOf m p j
  let w (i : Nat) : Int := cellValue l ((s.row m p i).getD c 0)
  let u (i : Nat) : Int := acts.getD i 0 + 128
  let uu : Int := ((upTo 1024).map (fun i => u i * ((w i).natAbs : Int))).foldl (· + ·) 0
  let vv : Int := ((upTo 1024).map u).foldl (· + ·) 0
  let sj := (f32 (regScale (s.region m p) j)).toRat
  let d : Rat := if s.boundHolds m p then 1 else 2
  d * (pow2 st.e * sj * s.errUnits m p (s.colWord m p j).val.cg uu vv + ulp32 o / 2)

/-- R330: the arrays whose own term lies outside its bound of the reference term in some column. -/
def outsideArrays (s : State) (m : Nat) (p : PlyPanel) (c : Nat) (arrays : List (List Nat)) (x : List Ext) (st : Stage)
    (listed : List RawCode) : List Nat :=
  let t := s.plyTensor c p
  (arrays.mapIdx (fun k ps => ps.filter (fun q =>
    (upTo 1024).any (fun j =>
      let a := s.aTerm c p x k j
      let o := s.arrayTerm m q st k j a listed
      let r := refTerm t st k j a
      match f32 o, f32 r with
      | .num vo _, .num vr _ => decide (s.eK m q j st k o < absQ (vo - vr))
      | xo, xr => decide (xo ≠ xr))))).flatten

/-- What a token's step through its ply finds: the result, the findings of the path checks, the implausible columns. -/
structure Verdict where
  out : PlyOut
  finds : List Find
  wide : List (Nat × W32)
  x : List Ext

/-- What a token's path meets as its words arrive (R328): a word that passes when it is sent or read again, and a bit that ECC corrects,
are transient; the others are findings. A double-bit error stays in its word, and shows in wordFinds. -/
def pathFind (m x : Nat) (r : State × List Find) (f : PathFault) : State × List Find :=
  match f with
  | .bond p again =>
    let hop := 256 * m + dieOf p
    if again then (r.1, r.2 ++ [⟨tHopParity, BitVec.ofNat 64 hop, [p]⟩])
    else (r.1.transient { typ := tHopParity, source := m, detail := hop }, r.2)
  | .splice p addr double => if double then (r.1.splDouble ⟨false, m, p, addr⟩, r.2) else (r.1.splSingle m 2 addr, r.2)
  | .outlier addr double => if double then (r.1.splDouble ⟨true, m, x, addr⟩, r.2) else (r.1.splSingle m 3 addr, r.2)
  | .partialIn line again =>
    let d := (2 <<< 60) + ((8 + m) <<< 56) + line
    if again then (r.1, r.2 ++ [⟨tBlockCheck, BitVec.ofNat 64 d, []⟩])
    else (r.1.transient { typ := tBlockCheck, source := m, detail := d }, r.2)

/-- The words with a double-bit error that a step of a ply meets, each an array-wide fault: of the array whose region it is in, or of the
arrays of K slot 0 for the ply's outlier table (R93). -/
def wordFinds (s : State) (m x : Nat) (arrays : List (List Nat)) (dch : Bool) : List Find :=
  s.integ.badWords.filterMap (fun w =>
    let d : W64 := BitVec.ofNat 64 (((if w.outlier then 3 else 2) <<< 60) + w.addr)
    if w.mast ≠ m then none
    else if w.outlier then (if w.owner = x && dch then some ⟨tMemoryEcc, d, arrays.headD []⟩ else none)
    else if arrays.any (·.contains w.owner) then some ⟨tMemoryEcc, d, [w.owner]⟩
    else none)

/-- One array step of a token with its checks (R328); a feeder ply has no plausibility check (Table 14.1). `codes` lists converter codes
that differ from the nominal ones, `faults` what the token's path meets. -/
def tokenVerdict (s : State) (m n : Nat) (a : At) (p : PlyPanel) (tau t : Nat) (codes : List RawCode)
    (faults : List PathFault) : State × Verdict :=
  let acc := s.acc m n
  let s := (codes.filter (fun c => acc.arrays.any (·.contains c.p))).foldl (fun s c => s.noteCode m c.col c) s
  let f := faults.foldl (pathFind m acc.ply.toNat) (s, [])
  let s := f.1
  let x := s.plyInput m a p t
  let st := plyStage p x
  let term (k j : Nat) : W32 := s.slotTerm m (acc.arrays.getD k []) st k j (s.aTerm a.b.ctx p x k j) codes
  let o := s.plyOut a.b.ctx p st a.b.step tau term (s.plyPins m a p t) acc.void
  let r := (acc.arrays.mapIdx (fun k ps => ps.map (fun q => (k, q)))).flatten.foldl
    (fun (r : State × List Find) kq =>
      let z := r.1.refCheck m kq.2 (slotActs st kq.1) codes
      (z.1, r.2 ++ z.2)) (s, [])
  let s := r.1
  let mis : List Find := if o.mismatch then [⟨tSequencer, BitVec.ofNat 64 ((3 <<< 28) + a.num), []⟩] else []
  let wide := if st.nonfinite || decide (p.outFmt = 5) then [] else s.implausible m acc.ply.toNat o.sums
  let s := s.noteBand m acc.ply.toNat o.sums
  let s := if o.mismatch then s.modStream m (fun z => { z with errCause := 3, errOp := BitVec.ofNat 16 a.num }) else s
  (s, { out := o
        finds := f.2 ++ s.wordFinds m acc.ply.toNat acc.arrays (!p.dch.isEmpty) ++ r.2 ++ mis
        wide := wide
        x := x })

/-- PLAUSIBILITY's DETAIL (Table 14.7), naming the lowest failing column. -/
def plausDetail (m ply : Nat) (w : List (Nat × W32)) : W64 :=
  let j := w.headD (0, 0)
  BitVec.ofNat 64 ((m <<< 62) + (ply <<< 48) + (j.1 <<< 32) + j.2.toNat)

/-- The token's outputs as a tile holds them. -/
def tileTok (tau t : Nat) (ok : Bool) (o : PlyOut) : TileTok :=
  { tau := tau
    tok := t
    ok := ok
    vals := o.outs.map (·.bits)
    sums := o.sums
    void := o.void
    nonfin := o.nonfin
    nonfins := (o.outs.filter (·.nonfin)).length
    sats := (o.outs.filter (·.sat)).length }

/-- A tile's flags are those of its tokens (R102, R103). -/
def tileOf (st : TileState) (l : List TileTok) : Tile := { st := st, toks := l, void := l.any (·.void), nonfin := l.any (·.nonfin) }

/-- The output values of a token that has passed are counted, those of its last pass (R102, R107). -/
def countTok (s : State) (m : Nat) (k : TileTok) : State :=
  s.modMast m (fun x => { x with
    accNonfin := satAdd x.accNonfin k.nonfins
    accSat := satAdd x.accSat k.sats })

/-- Put a token into the filling tile; the tile closes with 8 tokens or with the operation's last one (R109). -/
def fillTile (x : Acc) (k : TileTok) (o : PlyOut) (last : Bool) : Acc :=
  let put (t : Tile) : Tile :=
    let toks := t.toks ++ [k]
    tileOf (if toks.length = 8 || last then .closed else .filling) toks
  let y : Acc := if x.fill = 0 then { x with t0 := put x.t0 } else { x with t1 := put x.t1 }
  let closed := (if x.fill = 0 then y.t0 else y.t1).st = .closed
  { y with
    fill := if closed then 1 - x.fill else x.fill
    terms := BitVec.ofNat 9 (min o.terms 511)
    void := x.void || decide (256 < o.terms) }

/-- PLY_TOKEN_STEP (R28, R109 to R111, R328): the next token of accumulator n passes; with no tile free the arrays step idle. A tile with
BOUND_VOID is counted as it closes; R103 does not say when, and one that a halt discards later stays counted (DESIGN CHOICE, log entry
120). -/
def tokenStep (s : State) (m n : Nat) (codes : List RawCode) (faults : List PathFault) : State :=
  match s.accOp m n, s.accPanel m n with
  | some a, some p =>
    let x := s.acc m n
    match x.todo with
    | [] => s
    | (tau, t) :: rest =>
      let cur := if x.fill = 0 then x.t0 else x.t1
      if cur.st = .closed ∨ cur.st = .draining then s.modMast m (fun z => { z with accStall := z.accStall + 1 })
      else
        let (s, v) := (s.slotSpent m x.ply.toNat).tokenVerdict m n a p tau t codes faults
        let s := s.countStage m v.out.stage
        let pl : List Find := if v.wide.isEmpty then [] else [⟨tPlausibility, plausDetail m x.ply.toNat v.wide, []⟩]
        let ok := v.finds.isEmpty && v.wide.isEmpty
        let y := fillTile { x with todo := rest } (tileTok tau t ok v.out) v.out rest.isEmpty
        let closedVoid := (if x.fill = 0 then decide (y.t0.st = .closed) && y.t0.void else decide (y.t1.st = .closed) && y.t1.void)
        let s := s.setAcc m n y
        let s := if closedVoid then s.countVoid m 1 else s
        let s := if closedVoid && x.trimVoid then { s with trim := { s.trim with voidCnt := satAdd s.trim.voidCnt 1 } } else s
        if ok then s.countTok m (tileTok tau t ok v.out)
        else
          let r : Repeat :=
            { mast := m
              acc := n
              tau := tau
              finds := v.finds ++ pl
              time := s.time
              nested := s.handling
              arbitrating := false
              outside := []
              wide := [] }
          { s with integ := { s.integ with repeats := s.integ.repeats ++ [r] } }
  | _, _ => s

/-- Replace a token's place in the tiles of an accumulator. -/
def replaceTok (x : Acc) (tau : Nat) (k : TileTok) : Acc :=
  let put (t : Tile) : Tile := tileOf t.st (t.toks.map (fun y => if y.tau = tau then k else y))
  { x with t0 := put x.t0, t1 := put x.t1 }

/-- A token of the tiles. -/
def tokOf (x : Acc) (tau : Nat) : Option TileTok := (x.t0.toks ++ x.t1.toks).find? (fun y => y.tau = tau)

def dropRepeat (s : State) (m n tau : Nat) : State :=
  { s with integ := { s.integ with repeats := s.integ.repeats.filter (fun r => !(r.mast = m && r.acc = n && r.tau = tau)) } }

/-- The repeat whose turn it is: errors are handled in the order of their detection (R338). -/
def repeatNow (s : State) (m n tau : Nat) : Option Repeat :=
  (s.integ.repeats.head?).filter (fun r => r.mast = m && r.acc = n && r.tau = tau)

/-- A finding's record, with the time of its detection (R335). -/
def findInfo (m c step : Nat) (r : Repeat) (f : Find) : RecInfo :=
  { typ := f.typ, source := m, step := some step, ctx := some c, detail := f.detail.toNat, found := some (r.time, r.nested) }

/-- Findings of a token that its repeat did not confirm: each is logged CORRECTED (R328, R329). -/
def logPassed (s : State) (m c step : Nat) (r : Repeat) (l : List Find) : State :=
  l.foldl (fun s f => s.log .corrected (findInfo m c step r f)) s

/-- A permanent fault of a token (R329, R332): charged to the arrays its finding names, or to none, when the job halts at once. -/
def tokenFault (s : State) (m c step : Nat) (r : Repeat) (f : Find) : State :=
  match f.arrays with
  | [] => s.log .jobFatal (findInfo m c step r f)
  | ps => ps.foldl (fun s q => s.permanentFault m q (findInfo m c step r f)) s

/-- The findings of a first attempt that a failing repeat does not meet again. -/
def unconfirmed (first again : List Find) : List Find :=
  first.filter (fun f => !again.any (fun g => decide (g.typ = f.typ) && decide (g.arrays = f.arrays)))

/-- TOKEN_REPEAT (R329): the token of accumulator n with place `tau` is issued again. -/
def tokenRepeat (s : State) (m n tau : Nat) (codes : List RawCode) (faults : List PathFault) : State :=
  match s.accOp m n, s.accPanel m n, (s.repeatNow m n tau).filter (fun r => !r.arbitrating) with
  | some a, some p, some r =>
    let x := s.acc m n
    match tokOf x tau with
    | none => s
    | some k =>
      let (s, v) := (s.slotSpent m x.ply.toNat).tokenVerdict m n a p tau k.tok codes faults
      if !v.finds.isEmpty then
        let s := (s.dropRepeat m n tau).logPassed m a.b.ctx a.b.step r (unconfirmed r.finds v.finds)
        v.finds.foldl (fun s f => s.tokenFault m a.b.ctx a.b.step r f) s
      else if v.wide.isEmpty then
        let k' := tileTok tau k.tok true v.out
        let s := (s.setAcc m n (replaceTok (s.acc m n) tau k')).countTok m k'
        ((s.dropRepeat m n tau).logPassed m a.b.ctx a.b.step r r.finds).countCorrected
      else
        let out := s.outsideArrays m p a.b.ctx x.arrays v.x v.out.stage codes
        let s := s.setAcc m n (replaceTok (s.acc m n) tau (tileTok tau k.tok false v.out))
        let r' : Repeat :=
          { r with
            arbitrating := true
            finds := r.finds.filter (fun f => f.typ ≠ tPlausibility) ++ [⟨tPlausibility, plausDetail m x.ply.toNat v.wide, []⟩]
            outside := out
            wide := v.wide.map (fun jw => (jw.1, (f32 jw.2).toRat)) }
        { s with integ := { s.integ with repeats := s.integ.repeats.map (fun y => if y = r then r' else y) } }
  | _, _, _ => s

/-- PLAUSIBILITY_ARBITRATION (R330): the recomputation in reference mode has been compared. Findings of the path checks that the repeat
did not meet again are logged CORRECTED. -/
def arbitration (s : State) (m n tau : Nat) : State :=
  match (s.repeatNow m n tau).filter (·.arbitrating) with
  | none => s
  | some r =>
    let x := s.acc m n
    let f := r.finds.getLast?.getD ⟨tPlausibility, 0, []⟩
    let s := (s.dropRepeat m n tau).logPassed m x.ctx x.step r r.finds.dropLast
    if r.outside.isEmpty then
      let s := (s.log .corrected (findInfo m x.ctx x.step r { f with typ := tValueData })).countData
      let b := s.band m x.ply.toNat
      let s := s.setBand m x.ply.toNat { b with widen := b.widen ++ r.wide }
      let put (t : Tile) : Tile := { t with toks := t.toks.map (fun y => if y.tau = tau then { y with ok := true } else y) }
      let s := s.modAcc m n (fun x => { x with t0 := put x.t0, t1 := put x.t1 })
      match tokOf x tau with
      | some k => s.countTok m k
      | none => s
    else s.tokenFault m x.ctx x.step r { f with arrays := r.outside }

/-! Draining (R109). -/

def setTile (x : Acc) (t : Nat) (v : Tile) : Acc := if t = 0 then { x with t0 := v } else { x with t1 := v }
def getTile (x : Acc) (t : Nat) : Tile := if t = 0 then x.t0 else x.t1

/-- TILE_DRAIN_START: a CLOSED tile whose tokens have all passed begins to drain. -/
def drainStart (s : State) (m n t : Nat) : State :=
  let x := s.acc m n
  let k := getTile x t
  if k.st = .closed ∧ k.toks.all (·.ok) then s.setAcc m n (setTile x t { k with st := .draining }) else s

/-- The place of a ply among those of its operation. -/
def accPlace (a : At) (p : PlyPanel) : Nat := p.index - plyFirst a

/-- TILE_DRAINED: the tile's last byte has left; the accumulator is released after the operation's last tile (R108). -/
def tileDrained (s : State) (m n t : Nat) : State :=
  match s.accOp m n, s.accPanel m n with
  | some a, some p =>
    let x := s.acc m n
    let k := getTile x t
    if k.st ≠ .draining then s
    else
      let terms := x.terms.toNat
      let s := k.toks.foldl (fun s (y : TileTok) =>
        s.deliver m a p (accPlace a p) y.tok ((blockToks a.b a.blk).getD y.tok (0, 0)) y.vals k.nonfin k.void terms) s
      let x' := setTile { x with tiles := x.tiles + 1 } t {}
      let above := x'.todo.isEmpty && decide (x'.t0.st = .free) && decide (x'.t1.st = .free)
      let s := s.setAcc m n (if above then releaseAcc x' else x')
      s.pliesDone m a
  | _, _ => s

end State

end Sys2Proof.Machine
end

