-- ==== Sys2Proof/Machine/Layer.lean ====
section
/-! DEFINITION. The other operations of the layer program (chapter 8): vector operations (R174), movement (R175 to R177), CHECK,
SAMPLE, BARRIER, REPEAT (R167, R179, R180), EXPAND (R173). -/

namespace Sys2Proof.Machine

/-! Vector operations (R174). -/

/-- 1/√v of a rational v > 0, rounded to binary32. -/
def rsqrt32 (v : Rat) : W32 := roundReal (fun k => Iv.inv (sqrtRel k v)) precisions

/-- ρ of NORM from the sum of squares (R174). -/
def normRho (ss : Ext) (n eps : Nat) : W32 :=
  match ss with
  | .nan => qNaN
  | .inf _ => 0
  | .num q _ => rsqrt32 (q / (n : Rat) + pow2 (-(eps : Int)))

/-- NORM of a row: kind 0 RMS, 1 layer norm; g and β from tensors. -/
def normRow (kind eps : Nat) (x g beta : List Ext) : List W32 :=
  let n := x.length
  let sumOf (l : List Ext) : Ext := l.foldl Ext.add Ext.zero
  if kind = 0 then
    let rho := f32 (normRho (sumOf (x.map (fun v => Ext.mul v v))) n eps)
    x.mapIdx (fun c v => rne32 (Ext.mul (Ext.mul v (g.getD c Ext.zero)) rho))
  else
    let mu := f32 (rne32 (Ext.div (sumOf x) (Ext.ofRat (n : Rat))))
    let d := x.map (fun v => Ext.sub v mu)
    let rho := f32 (normRho (sumOf (d.map (fun v => Ext.mul v v))) n eps)
    d.mapIdx (fun c v => rne32 (Ext.add (Ext.mul (Ext.mul v (g.getD c Ext.zero)) rho) (beta.getD c Ext.zero)))

/-- The sign of cos θ or sin θ as an exact value, for products with zeros and infinities. -/
def trigSign (f : Nat → Rat → Iv) (th : Rat) : Ext := Ext.ofRat (if (f 128 th).hi < 0 then -1 else 1)

/-- a·cos θ + b·sin θ of exact values, rounded once to binary32. -/
def rotate1 (a b : Ext) (th : Rat) : W32 :=
  if th = 0 then rne32 (Ext.add a (Ext.mul b Ext.zero))
  else
    match a, b with
    | .num p _, .num q _ =>
      if p = 0 ∧ q = 0 then rne32 (Ext.add (Ext.mul a (trigSign cosIv th)) (Ext.mul b (trigSign sinIv th)))
      else roundReal (fun k => Iv.add (Iv.scale p (cosIv (k + 64) th)) (Iv.scale q (sinIv (k + 64) th))) precisions
    | _, _ => rne32 (Ext.add (Ext.mul a (trigSign cosIv th)) (Ext.mul b (trigSign sinIv th)))

/-- ROPE of a row: heads, first channel, pairs, frequencies, position (R174). -/
def ropeRow (heads first pairs pos : Nat) (f x : List Ext) : List W32 :=
  let hw := x.length / max 1 heads
  x.mapIdx (fun c v =>
    let r := c % max 1 hw
    if hw ≠ 0 ∧ c < hw * heads ∧ first ≤ r ∧ r < first + 2 * pairs then
      let p := (r - first) / 2
      let c0 := c - (r - first) % 2
      let x0 := x.getD c0 Ext.zero
      let x1 := x.getD (c0 + 1) Ext.zero
      match f.getD p Ext.zero with
      | .num q _ =>
        let th := (pos : Rat) * q
        if c = c0 then rotate1 x0 (Ext.neg x1) th else rotate1 x1 x0 th
      | _ => qNaN
    else rne32 v)

/-- f(x) × y, rounded once (R106, R174). -/
def actMul (func : Nat) (x y : Ext) : W32 :=
  match x with
  | .nan => qNaN
  | .inf neg =>
    let f : Ext :=
      if !neg then .inf false
      else if func = 0 then .inf true
      else if func = 1 then Ext.zero
      else .num 0 true
    rne32 (Ext.mul f y)
  | .num q nz =>
    if func = 0 then rne32 (Ext.mul x y)
    else if func = 1 then rne32 (Ext.mul (if 0 < q then x else Ext.zero) y)
    else if q = 0 then rne32 (Ext.mul (.num 0 nz) y)
    else
      match y with
      | .num v _ =>
        if v = 0 then rne32 (Ext.mul x y)
        else
          let r := roundReal (fun k => Iv.scale v (if func = 2 then siluIv q k else geluIv q k)) precisions
          if (f32 r).toRat = 0 ∧ (f32 r).isFinite then rne32 (.num 0 (decide (q < 0) != decide (v < 0))) else r
      | _ => rne32 (Ext.mul x y)

namespace State

/-- A row of a tensor that is a table or a vector: `n` elements from element `i`. -/
def tensorElems (s : State) (c t i n : Nat) : List Ext :=
  match s.tensorOf c t with
  | none => []
  | some x => (unpackElems x.fmt n (s.regionRead c x.stack (x.offset + i * fmtBytes x.fmt) (n * fmtBytes x.fmt))).map
      (elemValue x.fmt)

/-- A class V operation over the block: each token's row from a function of its source rows (R174). `slow` elements took the
slow path (R284). -/
def vectorOp (s : State) (m code : Nat) (bad : Option BlkFail) (slow : Nat) (f : State → At → Nat → (Nat × Nat) → List W32) : State :=
  match s.atOp m code with
  | none => s
  | some a =>
    let s := (s.issue m a).readCheck m a.b.ctx bad
    if s.integ.phase ≠ 0 then s
    else
      let w := opWidth a.op
      let fd := opFmtD a.op
      let s := ((blockToks a.b a.blk).mapIdx (fun t kj => (t, kj))).foldl (fun s x =>
        s.writeRow m (opDst a.op) w fd x.1 ((f s a x.1 x.2).map (fun v => (convTo fd v).bits))) s
      let s := s.modStream m (fun z => { z with vecSlow := satAdd z.vecSlow slow })
      s.complete_ m a

/-- The SRC_A and SRC_B rows of a token. -/
def srcA (s : State) (m : Nat) (a : At) (t : Nat) : List Ext := s.readVals m (opSrcA a.op) (opWidth a.op) (opFmtS a.op) t
def srcRowB (s : State) (m : Nat) (a : At) (t : Nat) : List Ext := s.readVals m (opA10 a.op) (opWidth a.op) (opFmtS a.op) t

/-- NORM. -/
def norm (s : State) (m : Nat) (bad : Option BlkFail) (slow : Nat) : State :=
  s.vectorOp m cNorm bad slow (fun s a t _ =>
    let w := opWidth a.op
    let ten := a.tensor (opA10 a.op)
    normRow (opB12 a.op) (opB13 a.op) (s.srcA m a t) (s.tensorElems a.b.ctx ten 0 w)
      (if opB12 a.op = 1 then s.tensorElems a.b.ctx (ten + 1) 0 w else []))

/-- ROPE. -/
def rope (s : State) (m : Nat) (bad : Option BlkFail) (slow : Nat) : State :=
  s.vectorOp m cRope bad slow (fun s a t kj =>
    ropeRow (opB15 a.op) (opA12 a.op) (opB14 a.op) (posOf a.b kj) (s.tensorElems a.b.ctx (a.tensor (opA10 a.op)) 0 (opB14 a.op))
      (s.srcA m a t))

/-- ACT. -/
def act (s : State) (m : Nat) (bad : Option BlkFail) (slow : Nat) : State :=
  s.vectorOp m cAct bad slow (fun s a t _ =>
    let x := s.srcA m a t
    if opA10 a.op = 0xFFFF then x.map (fun v => actMul (opB12 a.op) v (Ext.ofRat 1))
    else
      let y := s.srcRowB m a t
      x.mapIdx (fun c v => actMul (opB12 a.op) v (y.getD c Ext.zero)))

/-- ADD. -/
def addOp (s : State) (m : Nat) (bad : Option BlkFail) : State :=
  s.vectorOp m cAdd bad 0 (fun s a t _ =>
    let y := s.srcRowB m a t
    (s.srcA m a t).mapIdx (fun c v => rne32 (Ext.add v (y.getD c Ext.zero))))

/-- SCALE. -/
def scale (s : State) (m : Nat) (bad : Option BlkFail) : State :=
  s.vectorOp m cScale bad 0 (fun s a t _ =>
    let v := f32 (BitVec.ofNat 32 (bitsOf a.op 96 32))
    let g := if opA10 a.op = 0xFFFF then [] else s.tensorElems a.b.ctx (a.tensor (opA10 a.op)) 0 (opWidth a.op)
    (s.srcA m a t).mapIdx (fun c x => rne32 (Ext.mul (Ext.mul x v) (if opA10 a.op = 0xFFFF then Ext.ofRat 1 else g.getD c Ext.zero))))

/-- CHECK (R180, R331): every token with a failing element is logged as VALUE_DATA and counted; the values carry on. -/
def checkOp (s : State) (m : Nat) (bad : Option BlkFail) : State :=
  match s.atOp m cCheck with
  | none => s
  | some a =>
    let s := (s.issue m a).readCheck m a.b.ctx bad
    if s.integ.phase ≠ 0 then s
    else
      let lim := pow2 ((opA10 a.op % 256 : Nat) : Int)
      let fails (t : Nat) : Bool := (s.srcA m a t).any (fun v => !v.isFinite || decide (lim ≤ absQ v.toRat))
      let s := ((upTo (blockToks a.b a.blk).length).filter fails).foldl (fun s _ =>
        (s.log .corrected { typ := tValueData, source := m, step := some a.b.step, ctx := some a.b.ctx, detail := a.num }).countData) s
      s.complete_ m a

/-! EXPAND (R173). -/

/-- EXPAND: the tensor goes into the buffer that the latest EXPAND of the pass did not load. -/
def expand (s : State) (m : Nat) (bad : Option BlkFail) : State :=
  match s.atOp m cExpand with
  | none => s
  | some a =>
    let s := (s.issue m a).readCheck m a.b.ctx bad
    if s.integ.phase ≠ 0 then s
    else
      let t := a.tensor (opA10 a.op)
      let s := match s.tensorOf a.b.ctx t with
        | some x => s.hbmMoved x.stack x.size
        | none => s
      let s := s.modStream m (fun x => if x.latest = 0 then { x with buf1 := some t, latest := 1 } else { x with buf0 := some t, latest := 0 })
      s.complete_ m a

/-! SEND and RECV (R175, R176). -/

/-- Bytes that rows hold in an inbox of 512 MiB. -/
def inboxUsed (s : State) (m : Nat) : Nat := ((s.inboxOf m).map (fun r => 4096 * max 1 (rowLines r.width r.fmt))).foldl (· + ·) 0
def inboxRoom (s : State) (m width fmt : Nat) : Bool := decide (s.inboxUsed m + 4096 * max 1 (rowLines width fmt) ≤ 536870912)

/-- One row of a SEND: into an inbox of this device, or as ROW packets to another one; false while there is no room. -/
def sendRow (s : State) (m : Nat) (a : At) (t : Nat) : State × Bool :=
  let w := opWidth a.op
  let fmt := opFmtS a.op
  let rl := rowLines w fmt
  let rank := opA12 a.op
  let dm := opB14 a.op % 4
  let row := s.rowBytes m (opSrcA a.op) rl t
  let tag := (s.line m (opSrcA a.op + t * rl)).tag
  if rank = 0xFFFF ∨ rank = s.jobRank then
    if s.inboxRoom dm w fmt then
      let r : InRow :=
        { srcRank := s.jobRank
          srcMast := m
          tag := opA10 a.op
          width := w
          fmt := fmt
          step := a.b.step
          block := a.blk
          tok := t
          bytes := row
          parts := rl
          ptag := tag }
      (s.setInbox dm (s.inboxOf dm ++ [r]), true)
    else (s, false)
  else
    let pt := bitsOf tag.toNat 0 12 + (bitsOf tag.toNat 26 10 <<< 12)
    let s := (upTo rl).foldl (fun s i =>
      let pay := slice row (4096 * i) 4096
      s.sendData rank (opB15 a.op % 4) pkRow
        (s.descHead pay a.b.step (opA10 a.op) ++ leBytes 2 w ++ leBytes 1 fmt ++ leBytes 1 (dm + m * 4) ++ leBytes 2 t ++ leBytes 1 a.blk
          ++ leBytes 1 i ++ leBytes 4 (if bitsOf tag.toNat 11 1 = 1 then pt else 0)) pay) s
    (s, true)

/-- A ROW packet of mast m still waits in this device for a halyard's credit. -/
def rowsInside (s : State) (m : Nat) : Bool :=
  let mine (q : Pkt) : Bool := decide (q.typ = pkRow) && q.came.isNone && decide (bitsOf (leAt q.desc 19 1) 2 2 = m)
  s.rig.inq.any mine || (upTo 32).any (fun p => (s.port p).txq.any mine)

/-- Rows still to send, until one finds no room. A SEND to another device completes once its last packet has left this device; the
destination, whose inbox the rule speaks of, holds it back by credit alone (R175, R360, R369; DESIGN CHOICE, log entry 123). -/
def sendRows (s : State) (m : Nat) (a : At) : List Nat → State
  | [] => if s.rowsInside m then s.waits m 3 else s.complete_ m a
  | t :: l =>
    match s.sendRow m a t with
    | (s, true) => (s.modStream m (fun x => { x with done := x.done ++ [t] })).sendRows m a l
    | (s, false) => s.waits m 3

/-- Tokens of the block that the operation has not finished. -/
def leftToks (s : State) (m : Nat) (a : At) : List Nat :=
  (upTo (blockToks a.b a.blk).length).filter (fun t => !(s.stream m).done.contains t)

/-- SEND. -/
def send (s : State) (m : Nat) (bad : Option BlkFail) : State :=
  match s.atOp m cSend with
  | none => s
  | some a =>
    let s := (s.issue m a).readCheck m a.b.ctx bad
    if s.integ.phase ≠ 0 then s else s.sendRows m a (s.leftToks m a)

/-- The row of the inbox that a RECV takes for a token: the oldest one with its TAG, source, step and block. -/
def recvRow (s : State) (m : Nat) (a : At) (t : Nat) : Option InRow :=
  let src := if opA12 a.op = 0xFFFF then s.jobRank else opA12 a.op
  (s.inboxOf m).find? (fun r => decide (r.tag = opA10 a.op) && decide (r.srcRank = src) && decide (r.srcMast = opB14 a.op % 4)
    && decide (r.step = a.b.step) && decide (r.block = a.blk) && decide (r.tok = t))

/-- A RECV fails (R176): the cause is recorded and the job halts. -/
def recvFault (s : State) (m : Nat) (a : At) (cause : Nat) : State :=
  let s := s.modStream m (fun x => { x with errCause := BitVec.ofNat 4 cause, errOp := BitVec.ofNat 16 a.num })
  s.log .jobFatal { typ := tSequencer, source := m, step := some a.b.step, ctx := some a.b.ctx, detail := (cause <<< 28) + a.num }

/-- Rows that have arrived are written to DST, and their room is freed. -/
def recvRows (s : State) (m : Nat) (a : At) : List Nat → State
  | [] => s
  | t :: l =>
    match s.recvRow m a t with
    | none => s.recvRows m a l
    | some r =>
      if r.width ≠ opWidth a.op ∨ r.fmt ≠ opFmtD a.op then s.recvFault m a 2
      else if r.parts < rowLines r.width r.fmt then s.recvRows m a l
      else
        let s := s.putLines m (opDst a.op) (rowLines r.width r.fmt) t r.bytes r.ptag
        let s := (s.setInbox m ((s.inboxOf m).erase r)).hbmMoved (2 * m) (r.width * fmtBytes r.fmt)
        (s.modStream m (fun x => { x with done := x.done ++ [t] })).recvRows m a l

/-- RECV. -/
def recv (s : State) (m : Nat) (bad : Option BlkFail) : State :=
  match s.atOp m cRecv with
  | none => s
  | some a =>
    let s := (s.issue m a).readCheck m a.b.ctx bad
    if s.integ.phase ≠ 0 then s
    else
      let s := s.recvRows m a (s.leftToks m a)
      if s.integ.phase ≠ 0 then s
      else if (s.leftToks m a).isEmpty then s.complete_ m a
      else s.waits m 3

/-- RECV_TIMEOUT (R176): a RECV has waited longer than MAST_LSQ_TMO. -/
def recvTimeout (s : State) (m : Nat) : State :=
  match s.atOp m cRecv with
  | none => s
  | some a =>
    let x := s.stream m
    if x.started ∧ x.tmo ≠ 0 ∧ x.since + x.tmo.toNat < s.now then s.recvFault m a 1 else s

/-! GATHER (R177). -/

/-- A token ID at or above VOCAB: recorded, and the sequence's step is faulted. On a member that is the head's to do (badInput, log entry
46). -/
def badToken (s : State) (m : Nat) (a : At) (k : Nat) : State :=
  let s := s.modStream m (fun x => { x with errCause := 4, errOp := BitVec.ofNat 16 a.num })
  if a.b.remote || a.b.replay then s
  else s.modEntry (memberOf a.b k).idx (fun e => { e with stepFault := if e.stepFault = 0 then 2 else e.stepFault })

/-- GATHER. -/
def gather (s : State) (m : Nat) (bad : Option BlkFail) : State :=
  match s.atOp m cGather with
  | none => s
  | some a =>
    let s := (s.issue m a).readCheck m a.b.ctx bad
    if s.integ.phase ≠ 0 then s
    else
      let w := opWidth a.op
      let fd := opFmtD a.op
      let voc := s.vocabOf a.b.ctx
      let s := ((blockToks a.b a.blk).mapIdx (fun t kj => (t, kj))).foldl (fun s x =>
        let id := (memberOf a.b x.2.1).toks.getD x.2.2 0
        if voc ≤ id then (s.writeRow m (opDst a.op) w fd x.1 (List.replicate w 0)).badToken m a x.2.1
        else
          match s.tensorOf a.b.ctx (a.tensor (opA10 a.op)) with
          | none => s
          | some ten =>
            let b := s.regionRead a.b.ctx ten.stack (ten.offset + id * w * fmtBytes fd) (w * fmtBytes fd)
            (s.hbmMoved ten.stack (w * fmtBytes fd)).writeRow m (opDst a.op) w fd x.1 (unpackElems fd w b)) s
      s.complete_ m a

/-! SAMPLE, BARRIER, REPEAT (R167, R179, R180). -/

/-- SAMPLE: in a pass before the last it does nothing; in the last it waits for every logit, then releases the batch. -/
def sampleOp (s : State) (m : Nat) : State :=
  match s.atOp m cSample with
  | none => s
  | some a =>
    let s := s.issue m a
    if a.blk + 1 < ceilDiv (batchToks a.b) 1024 then s.complete_ m a
    else if a.b.swept then s.complete_ m a
    else if s.logitsPresent a.b then
      let s := { s with batches := s.batches.map (fun (y : Batch) => if y = a.b then { y with released := true } else y) }
      s.waits m 6
    else s.waits m 6

/-- SAMPLE completes on every mast whose stream waits at it, its batch's steps being resolved (R179). -/
def samplesDone (s : State) : State :=
  (upTo 4).foldl (fun s m =>
    match s.atOp m cSample with
    | some a => if a.b.swept && (s.stream m).started then s.complete_ m a else s
    | none => s) s

/-- COMMIT_SWEEP (R226). -/
def sweep (s : State) (c written : Nat) : State := (s.commitSweep c written).samplesDone

/-- The k-th BARRIER of a pass has been reached by mast j (R180). -/
def reached (s : State) (a : At) (j k : Nat) : Bool :=
  let x := s.stream j
  !x.busy || decide (x.step ≠ a.b.step) || decide (x.ctx.toNat ≠ a.b.ctx) || decide (a.blk < x.block.toNat)
    || (decide (x.block.toNat = a.blk) && decide (k ≤ x.bars))

/-- BARRIER. -/
def barrier (s : State) (m : Nat) : State :=
  match s.atOp m cBarrier with
  | none => s
  | some a =>
    let first := !(s.stream m).started
    let s := (s.issue m a).modStream m (fun x => { x with bars := if first then x.bars + 1 else x.bars })
    let k := (s.stream m).bars
    let masts := (upTo 4).filter (fun j => (opA10 a.op >>> j) % 2 = 1)
    if masts.all (fun j => s.reached a j k) then s.complete_ m a else s.waits m 5

/-- REPEAT: back to the body for the next layer, or on to the epilogue; in reload mode one layer runs in a pass (R184). -/
def repeatOp (s : State) (m : Nat) : State :=
  match s.atOp m cRepeat with
  | none => s
  | some a =>
    let s := s.issue m a
    let first := s.firstLayer a.b.ctx a.b.group
    let last := s.lastLayer a.b.ctx a.b.group
    if s.isReload a.b.ctx then
      if first + a.iter = last then s.goTo m a (a.pos + 1) a.iter else s.endPass m a.b
    else if first + a.iter < last then s.goTo m a (bodyStart a.ops) (a.iter + 1)
    else s.goTo m a (a.pos + 1) a.iter

end State

end Sys2Proof.Machine
end

