-- ==== Sys2Proof/Machine/Attend.lean ====
section
/-! DEFINITION. ATTEND (R173, R274 to R282): masks, the folded query, scores, the tiles of the softmax, rovings in pages, jobs. -/

namespace Sys2Proof.Machine

/-- The smallest e with m ≤ 448 × 2^e, for m > 0 (R276). -/
def narrowExp (m : Rat) : Int :=
  let e0 := ilog2 (m / 448)
  if m ≤ 448 * pow2 e0 then e0 else e0 + 1

/-- Step 2 of R276: the exponent and the narrowed elements. -/
def narrow (q : List Ext) : Int × List Ext :=
  let mx := q.foldl (fun m v => if v.isFinite then max m (absQ v.toRat) else m) 0
  let e := if mx = 0 then 0 else narrowExp mx
  (e, q.map (fun v => elemValue 2 (toE4m3 (Ext.mul v (Ext.ofRat (pow2 (-e))))).bits))

/-- σ × v rounded to binary32, σ = 1/√n taken exactly. -/
def scaleRoot (n : Nat) (v : Ext) : W32 :=
  match v with
  | .num q nz =>
    let r := isqrt (n.log2 + 2) n
    if q = 0 then rne32 (.num 0 nz)
    else if r * r = n then rne32 (Ext.ofRat (q / (r : Rat)))
    else roundReal (fun k => Iv.scale q (Iv.inv (sqrtRel k (n : Rat)))) precisions
  | x => rne32 x

/-- RNE32(exp(x)). -/
def expE (x : Ext) : W32 :=
  match x with
  | .nan => qNaN
  | .inf true => 0
  | .inf false => 0x7F800000
  | .num q _ => if q = 0 then 0x3F800000 else expW q

def maxE (a b : Ext) : Ext := if a.isNan || b.isNan then .nan else if Ext.lt a b then b else a

def dotE (a b : List Ext) : Ext := (a.zip b).foldl (fun s x => Ext.add s (Ext.mul x.1 x.2)) Ext.zero

/-- The running softmax of one head (step 4 of R276). -/
structure Soft where
  first : Bool
  m : Ext
  l : W32
  a : List W32

/-- One tile: scores with their rovings' latents. -/
def softTile (x : Soft) (tile : List (W32 × List Ext)) : Soft :=
  let m' := tile.foldl (fun m s => maxE m (f32 s.1)) x.m
  let al := if x.first then Ext.zero else f32 (expE (Ext.sub x.m m'))
  let ps := tile.map (fun s => (f32 (expE (Ext.sub (f32 s.1) m')), s.2))
  { first := false
    m := m'
    l := rne32 (ps.foldl (fun s p => Ext.add s p.1) (Ext.mul al (f32 x.l)))
    a := (upTo 448).map (fun i =>
      rne32 (ps.foldl (fun s p => Ext.add s (Ext.mul p.1 (p.2.getD i Ext.zero))) (Ext.mul al (f32 (x.a.getD i 0))))) }

/-- One head of one token: the query's plain and rotary parts, the key and value expansions of the head (row i, element d), and
the rovings of the allowed positions grouped by page index. The result is o_d before its conversion. -/
def attendHead (dh : Nat) (x r : List Ext) (kx vx : Nat → Nat → Ext) (tiles : List (List (List Ext))) : List W32 :=
  let q := (upTo 448).map (fun i => f32 (rne32 ((upTo dh).foldl (fun s d => Ext.add s (Ext.mul (kx i d) (x.getD d Ext.zero))) Ext.zero)))
  let nq := narrow q
  let nr := narrow r
  let score (c : List Ext) : W32 :=
    scaleRoot (dh + 64) (Ext.add (Ext.mul (Ext.ofRat (pow2 nq.1)) (dotE nq.2 (c.take 448)))
      (Ext.mul (Ext.ofRat (pow2 nr.1)) (dotE nr.2 (c.drop 448))))
  let z := tiles.foldl (fun z t => softTile z (t.map (fun c => (score c, c.take 448))))
    { first := true, m := .inf true, l := 0, a := List.replicate 448 0 }
  let v := z.a.map (fun a => f32 (rne32 (Ext.div (f32 a) (f32 z.l))))
  (upTo dh).map (fun d => rne32 ((upTo 448).foldl (fun s i => Ext.add s (Ext.mul (vx i d) (v.getD i Ext.zero))) Ext.zero))

/-- A position lies in an exclusion range (R280). -/
def excluded (ranges : List W64) (t : Nat) : Bool :=
  ranges.any (fun w => w.getLsbD 63 && decide (bitsOf w.toNat 0 21 ≤ t) && decide (t ≤ bitsOf w.toNat 32 21))

/-- Table 12.1: position t is allowed to a query at position p. -/
def allowed (mask window p0 : Nat) (ranges : List W64) (p t : Nat) : Bool :=
  let w := max 1 window
  match mask with
  | 0 => decide (t ≤ p)
  | 1 => decide (p + 1 - w ≤ t) && decide (t ≤ p)
  | 2 => decide (t < p0) || (decide (max p0 (p + 1 - w) ≤ t) && decide (t ≤ p))
  | _ => decide (t ≤ p) && !excluded ranges t

namespace State

/-- Rank of a layer among the context's layers on the device (R249). -/
def layerRank (s : State) (c l : Nat) : Nat := (s.layersOf c).findIdx (· = l)

/-- The page that holds position t for a member's step: the snapshot below LENGTH, the updated table above (R261). -/
def stepPage (s : State) (c : Nat) (mb : Member) (l t : Nat) : Nat :=
  let e := (t / 64) * s.layerCount c + s.layerRank c l
  if t < mb.base then mb.pages.getD e 0 else (s.tblPage mb.idx e).getD 0

/-- The roving of position t, decoded (R243). -/
def roving (s : State) (c : Nat) (mb : Member) (l t : Nat) : List Ext :=
  let p := s.stepPage c mb l t
  (unpackElems 2 512 (s.hbmRead (pageStack p) (frameAddr (pageFrame p) + (t % 64) * 512) 512)).map (elemValue 2)

/-- The page that receives the roving of a position (R250). -/
def rovingPage (s : State) (a : At) (mb : Member) (pos : Nat) : Option Nat :=
  s.tblPage mb.idx ((pos / 64) * s.layerCount a.b.ctx + s.layerRank a.b.ctx a.layer)

/-- A roving write that reaches a read-only page is suppressed: the sequence's step fails with FAULT 3h, at its head too, and the
event is logged as a PAGE record with the read-only bit (R258, Table 14.7). -/
def rovingDenied (s : State) (m : Nat) (a : At) (i p : Nat) : State :=
  let s := if a.b.replay then s else if i < 131072 then s.loseEntry i
    else s.sendItems (s.tbl i).headRank a.b.step [itemBytes kPageLost 0 0 (i % 131072) 0 0 0 0]
  s.log .ctxFatal
    { typ := tPage
      source := m
      step := some a.b.step
      ctx := some a.b.ctx
      detail := 2 ^ 31 + p }

/-- The new roving of a token goes to its position's page (R173, R243, R244, R258). -/
def writeRoving (s : State) (m : Nat) (a : At) (mb : Member) (t : Nat) (pos : Nat) : State :=
  let row := s.readVals m (opA10 a.op) 512 (opFmtS a.op) t
  let b := row.map (fun v => BitVec.ofNat 8 (toE4m3 v).bits)
  match s.rovingPage a mb pos with
  | some p => if (s.pdesc p).ro then s.rovingDenied m a mb.idx p else s.writePage p ((pos % 64) * 512) b
  | none => s

/-- The expansion tensor in the buffer that the latest EXPAND loaded. -/
def expansion (s : State) (m c : Nat) : Option (Tensor × List Byte) :=
  let x := s.stream m
  let t := if x.latest = 0 then x.buf0 else x.buf1
  (t.bind (s.tensorOf c)).map (fun y => (y, s.regionRead c y.stack y.offset y.size))

/-- The output row of one token (R276), or zeros where nothing is allowed (R281). -/
def attendToken (s : State) (m : Nat) (a : At) (mb : Member) (exp : List Byte) (t pos : Nat) : State :=
  let heads := opB15 a.op
  let w := opWidth a.op
  let dh := w / max 1 heads
  let fd := opFmtD a.op
  let mask := opB14 a.op % 16
  let ps := (upTo (pos + 1)).filter (fun x => allowed mask (opA12 a.op) mb.p0 mb.ranges pos x)
  let s := s.modStream m (fun x => { x with attTokens := x.attTokens + 1 })
  if ps.isEmpty then
    (s.writeRow m (opDst a.op) w fd t (List.replicate w 0)).modStream m (fun x => { x with attEmpty := satAdd x.attEmpty 1 })
  else
    let row := s.readVals m (opSrcA a.op) (heads * (dh + 64)) (opFmtS a.op) t
    let el (i j : Nat) : Ext := bf16 (BitVec.ofNat 16 (leAt exp ((i * (2 * w) + j) * 2) 2))
    let tiles := ((ps.map (· / 64)).eraseDups).map (fun k =>
      (ps.filter (fun x => x / 64 = k)).map (fun x => s.roving a.b.ctx mb a.layer x))
    let out := (upTo heads).flatMap (fun h =>
      let q := (row.drop (h * (dh + 64))).take (dh + 64)
      attendHead dh (q.take dh) (q.drop dh) (fun i d => el i (h * dh + d)) (fun i d => el i (w + h * dh + d)) tiles)
    s.writeRow m (opDst a.op) w fd t (out.map (fun v => (convTo fd v).bits))

/-- ATTEND (R282): one job for each sequence with tokens in the block, by first token. -/
def attend (s : State) (m : Nat) (bad : Option BlkFail) : State :=
  match s.atOp m cAttend with
  | none => s
  | some a =>
    if (s.stream m).started then s.waits m 7
    else
      let s := (s.issue m a).readCheck m a.b.ctx bad
      if s.integ.phase ≠ 0 then s
      else
        let toks := (blockToks a.b a.blk).mapIdx (fun t kj => (t, kj.1))
        let jobs : List AttJob := ((toks.map (·.2)).eraseDups).map (fun k => ⟨k, (toks.filter (fun x => x.2 = k)).map (·.1)⟩)
        (s.modStream m (fun x => { x with jobs := jobs })).waits m 7

/-- The pages of a job whose copies still run (R260). -/
def jobBlocked (s : State) (a : At) (mb : Member) (j : AttJob) : Bool :=
  j.toks.any (fun t =>
    match s.rovingPage a mb (posOf a.b ((blockToks a.b a.blk).getD t (0, 0))) with
    | some p => s.copyBusy p
    | none => false)

/-- A page that receives a roving of a job is read-only (R258). -/
def jobReadOnly (s : State) (a : At) (mb : Member) (j : AttJob) : Bool :=
  j.toks.any (fun t =>
    match s.rovingPage a mb (posOf a.b ((blockToks a.b a.blk).getD t (0, 0))) with
    | some p => (s.pdesc p).ro
    | none => false)

/-- Pages of a job that fail a check value: read again, and lost if they fail again (R182, R317, R268). -/
def pageChecks (s : State) (m : Nat) (a : At) (l : List (Nat × Bool)) : State :=
  l.foldl (fun s pa =>
    let i : RecInfo := { typ := tBlockCheck, source := m, ctx := some a.b.ctx,
                         detail := (1 <<< 60) + (pageStack pa.1 <<< 56) + frameAddr (pageFrame pa.1) / 4096 }
    if pa.2 then (s.log .degraded i).losePage pa.1 else s.transient i) s

/-- The positions that some token of a job may attend to. -/
def jobPositions (a : At) (mb : Member) (j : AttJob) : List Nat :=
  let ps := j.toks.map (fun t => posOf a.b ((blockToks a.b a.blk).getD t (0, 0)))
  (upTo (ps.foldl max 0 + 1)).filter (fun x => ps.any (fun p => allowed (opB14 a.op % 16) (opA12 a.op) mb.p0 mb.ranges p x))

/-- C of R283 for a token at a position: the cycles for which it occupies its engine. -/
def tokenCycles (a : At) (mb : Member) (pos : Nat) : Nat :=
  let heads := opB15 a.op
  let n := ((upTo (pos + 1)).filter (fun x => allowed (opB14 a.op % 16) (opA12 a.op) mb.p0 mb.ranges pos x)).length
  heads * (ceilDiv (896 * (opWidth a.op / max 1 heads)) 1024 + ceilDiv (960 * n) 2048) + 64

/-- The gang of a job of n tokens: min(64, ⌈n/16⌉) engines (R282). -/
def gangOf (j : AttJob) : Nat := min 64 (ceilDiv j.toks.length 16)

/-- The engines free now, lowest number first. -/
def freeEngines (s : State) (m : Nat) : List Nat := ((s.freeOrder m).filter (fun x => decide (x.1 ≤ s.now))).map (·.2)

/-- A job takes its gang: gang engine i mod g computes the job's i-th token (R282). -/
def takeGang (s : State) (m : Nat) (a : At) (mb : Member) (j : AttJob) : State :=
  let g := gangOf j
  (((s.freeEngines m).take g).mapIdx (fun k e => (k, e))).foldl (fun s ke =>
    let mine := (j.toks.mapIdx (fun i t => (i, t))).filter (fun x => decide (x.1 % g = ke.1))
    s.busyEngine m ke.2 s.now ((mine.map (fun x => tokenCycles a mb (posOf a.b ((blockToks a.b a.blk).getD x.2 (0, 0))))).foldl (· + ·) 0)) s

/-- ATTEND_JOB_START (R282): the next job starts once its gang is free: its rovings are written, then its tokens attend. `pages` are
pages of the job that fail their check values, with whether they fail again. ATTEND completes as its last job starts: results are there
at once, and a busy engine only holds later jobs back (times are out of scope). -/
def attendJob (s : State) (m : Nat) (pages : List (Nat × Bool)) : State :=
  match s.atOp m cAttend with
  | none => s
  | some a =>
    match (s.stream m).jobs, s.expansion m a.b.ctx with
    | j :: rest, some (_, exp) =>
      let mb := memberOf a.b j.member
      if s.jobBlocked a mb j || decide ((s.freeEngines m).length < gangOf j) then s
      else
        let s := (s.takeGang m a mb j).pageChecks m a pages
        let s := s.hbmMoved (s.homeStack a.b.ctx a.layer) (512 * ((jobPositions a mb j).length + j.toks.length))
        let pos (t : Nat) : Nat := posOf a.b ((blockToks a.b a.blk).getD t (0, 0))
        let s := j.toks.foldl (fun s t => s.writeRoving m a mb t (pos t)) s
        let s := j.toks.foldl (fun s t => s.attendToken m a mb exp t (pos t)) s
        let s := s.modStream m (fun x => { x with jobs := rest })
        if rest.isEmpty then s.complete_ m a else s
    | _, _ => s

end State

end Sys2Proof.Machine
end

