-- ==== Sys2Proof/Machine/Rig.lean ====
section
/-! DEFINITION. The rigging (chapter 16): the bytes of packets and frames (R359, R363, R364), halyard ports (R359 to R361), the
switch (R366 to R368), and the consumers of ROW and LOGIT packets (R369). -/

namespace Sys2Proof.Machine

/-! Packets as bytes (Tables 16.3 and 16.4). -/

/-- Control packets are the routing header alone (R371). -/
def isControl (p : Pkt) : Bool := decide (16 ≤ p.typ)

/-- Bytes 0 to 27 of the header, HOP as given. -/
def headBytes (p : Pkt) (hop : Nat) : List Byte :=
  leBytes 1 p.typ ++ leBytes 1 ((p.vc % 4) <<< 6 ||| bit_ p.start 5 ||| bit_ (isControl p) 4) ++ leBytes 1 (hop <<< 4 ||| p.hops % 16)
    ++ leBytes 1 p.reason ++ leBytes 4 p.dest ++ leBytes 4 p.src ++ leBytes 2 p.jobId ++ leBytes 2 p.payload.length
    ++ leBytes 4 p.flow.toNat ++ leBytes 8 p.ports

/-- A check code as sent: right, or wrong where the packet arrived with a wrong one. -/
def codeBytes (ok : Bool) (l : List Byte) : List Byte := leBytes 4 (if ok then (crc32c l).toNat else (crc32c l).toNat ^^^ 1)

/-- A packet's bytes. -/
def pktBytes (p : Pkt) : List Byte :=
  headBytes p p.hop ++ codeBytes p.hcrcOk (headBytes p 0) ++
    (if isControl p then [] else slice p.desc 0 28 ++ codeBytes p.dcrcOk (slice p.desc 0 28) ++ p.payload)

/-- The length of the packet whose bytes begin a stream, by its header. -/
def pktLen (l : List Byte) : Nat := if bitsOf (leAt l 1 1) 4 1 = 1 then 32 else 64 + leAt l 14 2

/-- A packet read from its bytes. -/
def pktOf (l : List Byte) : Pkt :=
  let ctl := bitsOf (leAt l 1 1) 4 1 = 1
  { typ := leAt l 0 1
    vc := bitsOf (leAt l 1 1) 6 2
    start := decide (bitsOf (leAt l 1 1) 5 1 = 1)
    hop := bitsOf (leAt l 2 1) 4 4
    hops := bitsOf (leAt l 2 1) 0 4
    reason := bitsOf (leAt l 3 1) 0 2
    dest := bitsOf (leAt l 4 4) 0 17
    src := bitsOf (leAt l 8 4) 0 17
    jobId := leAt l 12 2
    flow := BitVec.ofNat 32 (leAt l 16 4)
    ports := bitsOf (leAt l 20 8) 0 60
    desc := if ctl then [] else slice l 32 28
    payload := if ctl then [] else slice l 64 (leAt l 14 2)
    hcrcOk := decide (leAt l 28 4 = (crc32c (slice l 0 2 ++ [(l.getD 2 0) &&& 0x0F] ++ slice l 3 25)).toNat)
    dcrcOk := ctl || decide (leAt l 60 4 = (crc32c (slice l 32 28)).toNat) }

/-- Whole packets taken from the front of a stream, idle bytes between them skipped (R359); the rest waits. -/
def parseStream : Nat → List Byte → List (Nat × Pkt) × List Byte
  | 0, l => ([], l)
  | n + 1, l =>
    match l with
    | [] => ([], [])
    | b :: t =>
      if b = 0 then parseStream n t
      else if l.length < 16 ∨ l.length < pktLen l then ([], l)
      else
        let r := parseStream n (l.drop (pktLen l))
        ((pktLen l, pktOf l) :: r.1, r.2)

/-- Credits a packet takes on its virtual channel, in 256 B units (R360). -/
def pktUnits (n : Nat) : Nat := ceilDiv n 256

/-- R361 in ticks of 10 ns: 1 ms, 1 s, 2 µs, 10 µs. -/
def tick1ms : Nat := 100000
def tick1s : Nat := 100000000

namespace State

/-- Every change of a halyard's state is a cause of the general vector (Table 17.14). -/
def portSt (s : State) (p : Nat) (st : PortState) : State :=
  let old := (s.port p).st
  let s := s.modPort p (fun x => { x with st := st })
  if old = st then s else s.cause gRig

/-! Sending. -/

/-- Send one frame with its stream bytes and keep it for replay (Table 16.1); `last`: it ends a packet. -/
def sendFrame (s : State) (p : Nat) (bytes : List Byte) (last : Bool) : State :=
  let x := s.port p
  let cr (k w : Nat) : Nat := min (x.owed.getD k 0) (2 ^ w - 1)
  let cs := [cr 0 6, cr 1 6, cr 2 6, cr 3 6, cr 4 4]
  let body := leBytes 2 x.txSeq.toNat ++ leBytes 2 x.rxSeq.toNat
    ++ leBytes 4 (cr 0 6 ||| cr 1 6 <<< 6 ||| cr 2 6 <<< 12 ||| cr 3 6 <<< 18 ||| cr 4 4 <<< 24) ++ slice bytes 0 244
  let s := s.setPort p { x with
    txSeq := x.txSeq + 1
    owed := x.owed.zipWith (· - ·) cs
    replay := x.replay ++ [(x.txSeq, slice bytes 0 244, last)]
    ackAt := if x.replay.isEmpty then s.now else x.ackAt }
  s.emit (.frame p (body ++ leBytes 4 (crc32c body).toNat))

/-- The frames of a packet: 244 stream bytes each, the last one filled with idle bytes (log entry 49). -/
def sendFrames (s : State) (p : Nat) : List (List Byte) → State
  | [] => s
  | b :: t => (s.sendFrame p b t.isEmpty).sendFrames p t

/-- Input of a packet at the switch: its halyard, 32 + m for the bridge of mast m, 36 for the hub's own blocks (R367). -/
def inputOf (q : Pkt) : Nat :=
  match q.came with
  | some (h, _) => h
  | none =>
    if q.typ = pkRow then 32 + bitsOf (leAt q.desc 19 1) 2 2 else if q.typ = pkLogit then 32 + leAt q.desc 19 1 % 4 else 36

/-- The packet of a virtual channel that goes next: the inputs take turns (R367). -/
def nextOnVc (x : Port) (v : Nat) : Option Pkt :=
  let l := x.txq.filter (fun q => !isControl q && decide (q.vc = v))
  let last := x.lastIn.getD v 36
  ((upTo 37).map (fun i => (last + 1 + i) % 37)).findSome? (fun i => l.find? (fun q => inputOf q = i))

/-- The packet that leaves next: control packets first, then the virtual channels in turn among those with credit (R367). -/
def nextOut (x : Port) : Option Pkt :=
  let vc : Option Pkt :=
    ((upTo 4).map (fun i => (x.lastVc + 1 + i) % 4)).findSome? (fun v =>
      match nextOnVc x v with
      | some q => if pktUnits (pktBytes q).length ≤ x.credits.getD v 0 then some q else none
      | none => none)
  match x.txq.find? isControl with
  | some q => if 0 < x.credits.getD 4 0 then some q else vc
  | none => vc

/-- Packets leave a port while one can start: credits and replay places for all of it. -/
def flushPort (s : State) (p : Nat) : Nat → State
  | 0 => s
  | n + 1 =>
    let x := s.port p
    if x.st ≠ .up then s
    else
      match nextOut x with
      | none => s
      | some q =>
        let b := pktBytes q
        let k := ceilDiv b.length 244
        if 1024 < x.replay.length + k then s
        else
          let c := if isControl q then 4 else q.vc
          let u := if isControl q then 1 else pktUnits b.length
          let s := s.setPort p { x with
            txq := x.txq.erase q
            credits := x.credits.set c (x.credits.getD c 0 - u)
            lastVc := if isControl q then x.lastVc else q.vc
            lastIn := if isControl q then x.lastIn else x.lastIn.set q.vc (inputOf q)
            txb := x.txb + BitVec.ofNat 64 b.length }
          ((s.giveBack q).sendFrames p ((upTo k).map (fun i => slice b (244 * i) 244))).flushPort p n

/-- Every packet waiting for a port that can start leaves. -/
def flush (s : State) (p : Nat) : State := s.flushPort p ((s.port p).txq.length)

/-! Ports. -/

/-- R361: a port that becomes DISABLED, OFF or DOWN gives up the packets of its replay buffer and queues; a packet is
still in the replay buffer while its last frame is. -/
def dropPort (s : State) (p : Nat) : State :=
  let x := s.port p
  let n := (x.replay.filter (·.2.2)).length + x.txq.length
  let s := x.txq.foldl (fun s q => s.giveBack q) s
  let s := { s with rig := { s.rig with cntDropped := satAdd s.rig.cntDropped n } }
  s.modPort p (fun x => { x with
    replay := []
    txq := []
    rxbuf := []
    lanes := 0 })

/-- R361: a retrain; the eighth within 1 s of the first of those eight disables the port. -/
def retrain (s : State) (p : Nat) : State :=
  let h := (s.now :: (s.port p).retrains).take 8
  let s := s.modPort p (fun x => { x with
    retrains := h
    resends := [] })
  match h[7]? with
  | some t =>
    if s.now ≤ t + tick1s then
      let s := (s.portSt p .disabled).dropPort p
      let s := { s with rig := { s.rig with portDis := true } }
      s.log .degraded { typ := tHopParity, source := 5, detail := 0x400 + p }
    else s.portSt p .training
  | none => s.portSt p .training

/-- Training, or a retrain, may follow only from a port that is enabled and not DISABLED. -/
def portLive (s : State) (p : Nat) : Bool :=
  let st := (s.port p).st
  (s.port p).en && (decide (st = .down) || decide (st = .training) || decide (st = .up))

/-- EN: RIG_PORT_CTL.EN written (R361, Table 16.11). -/
def portEn (s : State) (p : Nat) (v : Bool) : State :=
  let st := (s.port p).st
  let s := s.modPort p (fun x => { x with en := v })
  if v then
    if st = .disabled then (s.modPort p (fun x => { x with retrains := [] })).portSt p .training
    else if st = .off then s.portSt p .training
    else s
  else if st = .off then s
  else (s.portSt p .off).dropPort p

/-- RETRAIN: RIG_PORT_CTL.RETRAIN written 1, with EN as written. -/
def portRetrain (s : State) (p : Nat) (en : Bool) : State :=
  let was := (s.port p).st
  let s := s.portEn p en
  if en && s.portLive p && decide (was ≠ .off) && decide (was ≠ .disabled) then s.retrain p else s

/-- LANE_LOCK_LOSS: lane l loses lock. -/
def laneLoss (s : State) (p l : Nat) : State :=
  let up := (s.port p).st = .up
  let s := s.modPort p (fun x => { x with lanes := x.lanes &&& ~~~(BitVec.ofNat 8 (2 ^ l)) })
  if up then s.retrain p else s

/-- PORT_IDLE_TIMEOUT: no frame accepted for 10 µs on an UP port. -/
def portIdle (s : State) (p : Nat) : State :=
  let x := s.port p
  if x.st = .up ∧ x.frameAt + 1000 ≤ s.now then s.retrain p else s

/-- Frames sent again under the FSEQs they have (R359); TXB counts packet bytes once. -/
def resendAll (s : State) (p : Nat) : State :=
  let x := s.port p
  x.replay.foldl (fun s f =>
    let body := leBytes 2 f.1.toNat ++ leBytes 2 x.rxSeq.toNat ++ leBytes 4 0 ++ f.2.1
    s.emit (.frame p (body ++ leBytes 4 (crc32c body).toNat))) s

/-- PORT_TRAINING_DONE: an attempt ends with the lanes that hold lock. With all eight, in time, the port is UP with FSEQ, ACK
and credits reset, and the frames of the replay buffer, which survive, are sent again; otherwise it retrains (R361). -/
def trainingDone (s : State) (p : Nat) (lanes : Byte) (inTime : Bool) : State :=
  let st := (s.port p).st
  if !s.portLive p ∨ st = .up then s
  else if lanes = 0xFF ∧ inTime then
    let s := s.modPort p (fun x => { x with
      lanes := lanes
      txSeq := BitVec.ofNat 16 x.replay.length
      rxSeq := 0
      discarding := false
      replay := x.replay.mapIdx (fun i f => (BitVec.ofNat 16 i, f.2))
      credits := [256, 256, 256, 256, 8]
      owed := [0, 0, 0, 0, 0]
      ackAt := s.now
      frameAt := s.now
      resends := [] })
    ((s.portSt p .up).resendAll p).flush p
  else
    (s.modPort p (fun x => { x with lanes := lanes })).retrain p

/-- LINK_RESEND: ACK has not advanced for 2 µs while frames wait; 64 resends within 1 ms retrain the port. -/
def linkResend (s : State) (p : Nat) : State :=
  let x := s.port p
  if x.st = .up ∧ !x.replay.isEmpty ∧ x.ackAt + 200 ≤ s.now then
    let r := s.now :: x.resends.filter (fun t => decide (s.now < t + tick1ms))
    let s := s.setPort p { x with
      resend := satAdd x.resend 1
      resends := r
      ackAt := s.now }
    let s := s.resendAll p
    if 64 ≤ r.length then s.retrain p else s
  else s

/-- The packets that a frame completes go to the switch. -/
def arrive (s : State) (p : Nat) : State :=
  let x := s.port p
  let r := parseStream x.rxbuf.length x.rxbuf
  let s := s.setPort p { x with
    rxbuf := r.2
    rxb := x.rxb + BitVec.ofNat 64 ((r.1.map (·.1)).foldl (· + ·) 0) }
  { s with rig := { s.rig with
      inq := s.rig.inq ++ r.1.map (fun (nq : Nat × Pkt) =>
        { nq.2 with came := some (p, if isControl nq.2 then 1 else pktUnits nq.1) }) } }

/-- An accepted frame: ACK, CREDITS and stream bytes are taken, packets that may now start leave, and ACK and credits go back
in an idle frame when no packet carried them (log entry 49). -/
def acceptFrame (s : State) (p : Nat) (b : List Byte) : State :=
  let x := s.port p
  let ack := leAt b 2 2
  let cr := leAt b 4 4
  let kept := x.replay.filter (fun f => f.1.toNat = ack || later 16 f.1.toNat ack)
  let add := [bitsOf cr 0 6, bitsOf cr 6 6, bitsOf cr 12 6, bitsOf cr 18 6, bitsOf cr 24 4]
  let s := s.setPort p { x with
    rxSeq := x.rxSeq + 1
    discarding := false
    frameAt := s.now
    replay := kept
    ackAt := if kept.length < x.replay.length then s.now else x.ackAt
    credits := x.credits.zipWith (· + ·) add
    rxbuf := x.rxbuf ++ slice b 8 244 }
  let s := s.arrive p
  let seq := (s.port p).txSeq
  let s := s.flush p
  if (s.port p).txSeq = seq ∧ !(slice b 8 244).all (· == 0) ∧ (s.port p).replay.length < 1024 then s.sendFrame p [] false else s

/-- LINK_FRAME: a frame of 256 bytes, with the codewords corrected on its way and whether one of them was uncorrectable. -/
def linkFrame (s : State) (p : Nat) (b : List Byte) (corrected : Nat) (uncor : Bool) : State :=
  if (s.port p).st ≠ .up then s
  else
    let s := s.modPort p (fun x => { x with
      fec := x.fec + BitVec.ofNat 64 corrected
      uncor := if uncor then satAdd x.uncor 1 else x.uncor })
    let x := s.port p
    if uncor ∨ leAt b 252 4 ≠ (crc32c (slice b 0 252)).toNat then s.setPort p { x with discarding := true }
    else if leAt b 0 2 ≠ x.rxSeq.toNat then s
    else s.acceptFrame p b

/-! The switch. -/

/-- A packet ends at this device without a consumer. -/
def dropPkt (s : State) (q : Pkt) : State := s.giveBack q

/-- R368: the flow number of a data packet: accepted, or a gap. -/
def flowCheck (s : State) (rank : Nat) (q : Pkt) : State × Bool :=
  let k := rank * 4 + q.vc
  let want := tabGet 0 s.rig.rxFlow k
  if q.start ∨ (want ≠ 0 ∧ want = q.flow.toNat + 1) then
    ({ s with rig := { s.rig with rxFlow := tabSet 0 s.rig.rxFlow k ((q.flow.toNat + 1) % 2 ^ 32 + 1) } }, true)
  else
    let s := { s with rig := { s.rig with cntFlowGap := satAdd s.rig.cntFlowGap 1, flowGap := true } }
    (s.log .jobFatal { typ := tHopParity, source := 5, detail := 0x420 + q.vc }, false)

/-- A packet at its destination (R366, points 3 to 6). -/
def atDest (s : State) (q : Pkt) : State :=
  if q.dest ≠ s.deviceId then
    { s.dropPkt q with rig := { (s.dropPkt q).rig with cntMisroute := satAdd s.rig.cntMisroute 1 } }
  else if isControl q then
    if q.jobId ≠ s.jobId then
      let s := s.dropPkt q
      { s with integ := { s.integ with foreign := satAdd s.integ.foreign 1 } }
    else { s with rig := { s.rig with delivered := s.rig.delivered ++ [q] } }
  else
    match s.rankOf q.src with
    | some r =>
      if q.jobId ≠ s.jobId then
        let s := s.dropPkt q
        { s with rig := { s.rig with foreign := true } }
      else if !q.dcrcOk then
        let s := s.dropPkt q
        { s with rig := { s.rig with cntHdrErr := satAdd s.rig.cntHdrErr 1 } }
      else
        match s.flowCheck r q with
        | (s, true) => { s with rig := { s.rig with delivered := s.rig.delivered ++ [q] } }
        | (s, false) => s.dropPkt q
    | none =>
      let s := s.dropPkt q
      { s with rig := { s.rig with foreign := true } }

/-- PACKET_TRANSIT: the oldest packet at the switch is checked, forwarded, delivered or discarded (R366). -/
def packetTransit (s : State) : State :=
  match s.rig.inq with
  | [] => s
  | q :: t =>
    let s := { s with rig := { s.rig with inq := t } }
    if !q.hcrcOk then
      let s := s.dropPkt q
      { s with rig := { s.rig with cntHdrErr := satAdd s.rig.cntHdrErr 1 } }
    else if q.hop < q.hops then
      let p := portOf q.ports q.hop
      if (s.port p).st = .up then (s.modPort p (fun x => { x with txq := x.txq ++ [{ q with hop := q.hop + 1 }] })).flush p
      else
        let s := s.dropPkt q
        { s with rig := { s.rig with cntDropped := satAdd s.rig.cntDropped 1 } }
    else s.atDest q

/-! Consumers of ROW and LOGIT packets. -/

/-- R369: a data packet of another epoch, or of a step that a halt in progress rolled back, is discarded. -/
def stale (s : State) (q : Pkt) : Bool :=
  !s.freshPkt q || (decide (s.integ.phase ≠ 0) && s.rolled.any (fun b => b.step = pktStep q))

/-- A part of a row placed in an inbox: its line tag names SRC_INDEX, the source mast and the source rank (Table 8.13). -/
def rowPart (s : State) (q : Pkt) : InRow :=
  let pt := leAt q.desc 24 4
  { srcRank := (s.rankOf q.src).getD 0
    srcMast := bitsOf (leAt q.desc 19 1) 2 2
    tag := leAt q.desc 14 2
    width := leAt q.desc 16 2
    fmt := leAt q.desc 18 1
    step := pktStep q
    block := leAt q.desc 22 1
    tok := bitsOf (leAt q.desc 20 2) 0 10
    bytes := slice q.payload 0 4096
    parts := 1
    ptag := if bitsOf pt 11 1 = 1 then
        BitVec.ofNat 64 (bitsOf pt 12 10 <<< 26 ||| bitsOf (leAt q.desc 19 1) 2 2 <<< 24
          ||| ((s.rankOf q.src).getD 0) <<< 12 ||| bitsOf pt 0 12)
      else 0 }

/-- Two rows are the same row of one SEND. -/
def sameRow (a b : InRow) : Bool :=
  decide (a.srcRank = b.srcRank) && decide (a.srcMast = b.srcMast) && decide (a.tag = b.tag) && decide (a.step = b.step)
    && decide (a.block = b.block) && decide (a.tok = b.tok)

/-- ROW: the first delivered ROW packet goes to the inbox of its mast, once the inbox has room (R175, R369). -/
def rowPacket (s : State) : State :=
  match s.rig.delivered.find? (fun q => q.typ = pkRow) with
  | none => s
  | some q =>
    let m := leAt q.desc 19 1 % 4
    let r := s.rowPart q
    let part := leAt q.desc 23 1
    if !s.stale q && decide (part = 0) && !s.inboxRoom m r.width r.fmt then s
    else
      match s.takePkt pkRow with
      | none => s
      | some (_, s') =>
        if s.stale q then s'
        else if !pchkOk q then s'.badPayload 0
        else if part = 0 then s'.setInbox m (s'.inboxOf m ++ [r])
        else
          s'.setInbox m ((s'.inboxOf m).map (fun (x : InRow) =>
            if sameRow x r && decide (x.parts = part) then
              { x with
                bytes := x.bytes ++ r.bytes
                parts := part + 1 }
            else x))

/-- LOGIT: the first delivered LOGIT packet's entries go to the head sampler (R178, R369). -/
def logitPacket (s : State) : State :=
  match s.takePkt pkLogit with
  | none => s
  | some (q, s') =>
    if s.stale q then s'
    else if !pchkOk q then s'.badPayload 0
    else
      match s'.batches.find? (fun b => b.step = pktStep q && !b.replay && s'.isHead b.ctx) with
      | none => s'
      | some b =>
        (upTo (leAt q.desc 16 2)).foldl (fun s j =>
          let v := 1024 * leAt q.desc 14 2 + j
          if v < s.vocabOf b.ctx then
            s.setLogit b.ctx (bitsOf (leAt q.desc 20 2) 0 10) v (BitVec.ofNat 32 (leAt q.payload (4 * j) 4))
          else s) s'

/-! The route store's window (R375, R463). -/

/-- The two words of a route entry (Table 7.5). -/
def routeWords (r : Route) : List W64 :=
  let n := (r.lo % 131072) <<< 111 ||| (r.hi % 131072) <<< 94 ||| (r.vc % 4) <<< 92 ||| (r.ports.length % 16) <<< 88 ||| portsField r.ports <<< 28
  [BitVec.ofNat 64 n, BitVec.ofNat 64 (n >>> 64)]

/-- RIG_ROUTE_READ: a read of word 0 copies the entry that RIG_ROUTE_SEL selects; at or above the count it reads zero. -/
def routeRead (s : State) : State :=
  let ws := ((s.sail.routes[s.rig.routeSel.toNat]?).map routeWords).getD [0, 0]
  { s with rig := { s.rig with copy := ws } }.emit (.completion true (ws.getD 0 0).toNat)

end State

end Sys2Proof.Machine
end

