-- ==== Sys2Proof/Machine/Integrity.lean ====
section
/-! DEFINITION. The restart of a job (R339 to R342, R371, R372), the error log's window (R335, R336), digest rounds (R325 to
R327), known-answer kernels (R324), maintenance slots (R42, R115), and the ends of trim cycles with their bands (R321). -/

namespace Sys2Proof.Machine

namespace State

/-! The log's window. -/

/-- The 32 bytes of an error record (Table 14.6). -/
def recBytes (r : ErrRec) : List Byte :=
  leBytes 4 r.seqno.toNat ++ leBytes 1 (sevCode r.sev <<< 5 ||| bit_ r.nested 4 ||| bit_ r.escalated 3) ++ leBytes 1 r.source
    ++ leBytes 2 r.typ ++ leBytes 8 r.time.toNat ++ leBytes 6 r.step
    ++ leBytes 1 (match r.ctx with | some c => 128 + c % 16 | none => 0) ++ [0] ++ leBytes 8 r.detail.toNat

/-- INT_LOG_DATA_READ: a read of word 0 copies the selected record, zero if it is not held (Table 14.13). -/
def logRead (s : State) : State :=
  let b := ((s.integ.log.find? (fun r => r.seqno = s.integ.sel)).map recBytes).getD (List.replicate 32 0)
  let ws := (upTo 4).map (fun w => BitVec.ofNat 64 (leAt b (8 * w) 8))
  { s with integ := { s.integ with copy := ws } }.emit (.completion true (ws.getD 0 0).toNat)

/-- INT_LOG_HEAD_WRITE: records earlier than the value are given up (R336). -/
def logHeadWrite (s : State) (v : W32) : State :=
  { s with integ := { s.integ with
      head := v
      log := s.integ.log.filter (fun r => !later 32 v.toNat r.seqno.toNat) } }

/-! Halt and restart. -/

/-- DETAIL of a JOB_HALT record. -/
def haltDetail (src epoch reason : Nat) : Nat := reason <<< 62 ||| src <<< 32 ||| epoch

/-- A JOB_HALT record, written as one of the HALT phase (R338): receiving the message is no error of this device. -/
def logHalt (s : State) (src epoch reason : Nat) : State :=
  let ph := s.integ.phase
  let s := { s with integ := { s.integ with phase := if ph = 0 then 0 else 1 } }
  let s := s.logOnly .jobFatal { typ := tJobHalt, source := 5, detail := haltDetail src epoch reason }
  { s with integ := { s.integ with phase := ph } }

/-- R341: a member of the job is lost. -/
def memberLost (s : State) (src reason : Nat) : State :=
  if reason = 2 ∧ s.integ.jobState ≠ 5 then
    { s with integ := { s.integ with
        jobState := 4
        lostDev := BitVec.ofNat 17 src
        haltReason := 2 } }
  else s

/-- R339, R341, R371: a JOB_HALT of this job is taken by its epoch, and relayed unless it is ignored. -/
def takeHalt (s : State) (q : Pkt) : State :=
  let e := s.integ.epoch.toNat
  let n := q.flow.toNat
  if later 32 n e then
    let s := s.logHalt q.src n q.reason
    ((s.enterHalt q.flow q.src q.reason).memberLost q.src q.reason).sendTree q.src pkHalt q.reason
  else if n = e then
    if s.integ.phase ≠ 0 then (s.memberLost q.src q.reason).sendTree q.src pkHalt q.reason
    else if q.reason = 2 then
      let s := s.logHalt q.src n q.reason
      ((s.enterHalt q.flow q.src q.reason).memberLost q.src q.reason).sendTree q.src pkHalt q.reason
    else s
  else { s with integ := { s.integ with foreign := satAdd s.integ.foreign 1 } }

/-- The source of a hop's record: the mast of a hop inside it, or the hub (Table 14.17). -/
def hopSource (n : Nat) : Nat := if n < 1024 then n / 256 else 4

/-- An error found here (R318, R319): a hop's word that fails again when it is sent again is JOB_FATAL, whatever the hop (the converter
codes of an array bond come with their token, R329); a word that passes then, and a bit that ECC corrects, are CORRECTED. -/
def foundHere (s : State) (f : Found) : State :=
  match f with
  | .hop n again =>
    let i : RecInfo := { typ := tHopParity, source := hopSource n, detail := n }
    if again then s.log .jobFatal i else s.transient i
  | .single memory source addr =>
    if memory = 2 ∨ memory = 3 then s.splSingle source memory addr
    else s.log .corrected { typ := tMemoryEcc, source := source, detail := (memory <<< 60) + addr }

/-- JOB_HALT: a delivered message, or an error found here that no other row brings. -/
def jobHalt (s : State) (found : Option Found) : State :=
  match found with
  | some f => s.foundHere f
  | none =>
    match s.takePkt pkHalt with
    | none => s
    | some (q, s) => s.takeHalt q

/-- Arrays ACTIVE in a context that is RUNNING or DRAINING that VERIFY deals with: those of a native context, and those that hold
RETIRE_PEND (Table 14.8). -/
def verifyArrays (s : State) (m : Nat) : List Nat :=
  s.arrsOf m (fun a => decide (a.st = .active) && !a.leaving && (match a.slot with
    | some r => (a.retirePend || !s.isReload r.ctx)
        && (decide ((s.ctx r.ctx).st = .running) || decide ((s.ctx r.ctx).st = .draining))
    | none => false))

/-- The incoming array of a pending swap is still being written or loaded. -/
def incomingBusy (s : State) (m p : Nat) : Bool :=
  match (s.atrim m p).swap with
  | some y => (s.arr m y).write.isSome || (s.spl m y).busy || (s.arr m y).fw.isSome
  | none => false

/-- The restart rewrite of an array from its derived image at its own level map, which firmware builds anew where it stands at another
(Table 14.8, R193). While a re-plan writes that other image into the incoming array, the rewrite waits (log entry 125). -/
def rewrite (s : State) (m p : Nat) : State :=
  let a := s.arr m p
  match s.slotImage m p with
  | none => s
  | some r =>
    let other := decide ((s.builtImage r.ctx m r.slot).map (·.1) ≠ some a.lmap)
    if other && s.incomingBusy m p then { s with integ := { s.integ with owed := s.integ.owed ++ [(m, p)] } }
    else (if other then s.rebuildImage r.ctx m r.slot a.lmap else s).restartWrite m p r.ctx r.slot a.lmap

/-- One array at VERIFY: rewritten, or its slot written into a standby or donor; a RETIRE_PEND array with neither is rewritten
and keeps its slot, unless a permanent fault retired it (Table 14.8). -/
def verifyArray (s : State) (m p : Nat) : State :=
  let a := s.arr m p
  if !a.retirePend then s.rewrite m p
  else if s.swapPend m p then s
  else if (s.replacement m p).isSome then s.beginSwap m p a.lmap false false
  else if a.perm then s
  else (s.atLimit m p).rewrite m p

/-- VERIFY begins: the restart rewrites are issued. -/
def beginVerify (s : State) : State :=
  if s.integ.phase ≠ 1 ∨ s.devFatal then s
  else
    let s := { s with integ := { s.integ with
        phase := 2
        jobState := if s.integ.jobState = 4 then 4 else 2 } }
    (upTo 4).foldl (fun s m => (s.verifyArrays m).foldl (fun s p => s.verifyArray m p) s) s

/-- The rewrites that waited are issued once nothing hinders them. -/
def verifyOwed (s : State) : State :=
  let l := s.integ.owed
  l.foldl (fun s mp => if (s.arr mp.1 mp.2).retirePend then s else s.rewrite mp.1 mp.2) { s with integ := { s.integ with owed := [] } }

/-- What VERIFY finds of the arrays that hold RETIRE_PEND: a lost incoming array gives way to the next donor. -/
def verifyNext (s : State) : State :=
  (upTo 4).foldl (fun s m => (s.verifyArrays m).foldl (fun s p =>
    if (s.arr m p).retirePend then
      match (s.atrim m p).swap with
      | some y => if s.swapLost m p y then (s.dropSwap m p).verifyArray m p else s
      | none => if (s.arr m p).perm then s.verifyArray m p else s
    else s) s) s.verifyOwed

/-- A write or a region load of VERIFY still runs, or waits. -/
def verifyBusy (s : State) : Bool :=
  !s.integ.owed.isEmpty || (upTo 4).any (fun m => (s.verifyArrays m).any (fun p =>
    (s.arr m p).write.isSome || ((s.arr m p).retirePend && s.incomingBusy m p)))

/-- A page that fails its check value in VERIFY, and whether it fails again (R317, R268). -/
def verifyPage (s : State) (x : Nat × Bool) : State :=
  if s.integ.verify.contains x.1 then
    let i : RecInfo :=
      { typ := tBlockCheck
        source := pageStack x.1 / 2
        detail := (1 <<< 60) + (pageStack x.1 <<< 56) + frameAddr (pageFrame x.1) / 4096 }
    if x.2 then (s.log .degraded i).losePage x.1 else s.transient i
  else s

/-- The device resumes (Table 14.8): slots that have no replacement lose their arrays, reload contexts will load their first
layer, a RESTART record is logged and a digest round begins. The batches are re-formed at the next boundary. -/
def resumeJob (s : State) : State :=
  let us := (s.now - s.integ.haltTime) / 100
  let s := (upTo 4).foldl (fun s m => (s.arrsOf m (fun a => decide (a.st = .active) && a.retirePend && a.perm)).foldl
    (fun s p => if s.swapPend m p then s else s.leaveSlot m p) s) s
  let s := { s with ctxs := tabMapAll {} (fun _ (x : Ctx) => { x with held0 := none, held1 := none }) s.ctxs }
  let s := { s with integ := { s.integ with
      phase := 0
      jobState := 0
      verify := []
      owed := []
      roundDue := s.integ.roundDue || s.integ.digEn } }
  (s.log .repeated { typ := tRestart, detail := min us 0xFFFFFFFF <<< 32 ||| s.integ.epoch.toNat }).startRound

/-- The coordinator holds every rank's RESTART_READY and no member is lost: RESUME goes down the tree, and it resumes itself. -/
def tryResume (s : State) : State :=
  if s.jobRank = 0 ∧ s.integ.phase = 3 ∧ s.integ.haltReason ≠ 2 ∧ (upTo s.jobSize).all (fun r => s.integ.readys.contains r) then
    (s.sendTree s.deviceId pkResume 0).resumeJob
  else s

/-- A RESTART_READY from this device: to rank 0, or into its own count. -/
def sendReady (s : State) : State :=
  let s := { s with integ := { s.integ with sentAt := s.now } }
  if s.jobRank = 0 then { s with integ := { s.integ with readys := 0 :: s.integ.readys } }
  else s.sendControl 0 pkReady s.integ.epoch.toNat s.deviceId 0

/-- VERIFY_COMPLETE: VERIFY begins if it has not; once its writes have ended, its pages are checked and RESTART_READY is sent
(Table 14.8, log entry 54). -/
def verifyComplete (s : State) (pages : List (Nat × Bool)) : State :=
  if s.devFatal then s
  else
    let s := s.beginVerify
    if s.integ.phase ≠ 2 then s
    else
      let s := s.verifyNext
      if s.verifyBusy then s
      else
        let s := pages.foldl verifyPage s
        if s.devFatal then s
        else
          let s := { s with integ := { s.integ with
              phase := 3
              jobState := if s.integ.jobState = 4 then 4 else 3 } }
          s.sendReady.tryResume

/-- RESTART_READY: the coordinator counts it, or answers it with RESUME once it has resumed (R340, R372). -/
def restartReady (s : State) : State :=
  match s.takePkt pkReady with
  | none => s
  | some (q, s) =>
    if s.jobRank ≠ 0 ∨ q.flow ≠ s.integ.epoch then s
    else
      match s.rankOf q.src with
      | none => s
      | some r =>
        if s.integ.phase = 0 then s.sendControl r pkResume s.integ.epoch.toNat s.deviceId 0
        else ({ s with integ := { s.integ with readys := if s.integ.readys.contains r then s.integ.readys else r :: s.integ.readys } }).tryResume

/-- RESUME_MESSAGE: a RESUME of the device's epoch ends the halt and is relayed (R340, R371); another is ignored, and so is any while a
member is lost (R341). -/
def resumeMessage (s : State) : State :=
  match s.takePkt pkResume with
  | none => s
  | some (q, s) =>
    if q.flow ≠ s.integ.epoch ∨ s.integ.phase ≠ 3 ∨ s.integ.haltReason = 2 ∨ s.devFatal then s
    else (s.sendTree q.src pkResume 0).resumeJob

/-- RESTART_TIMEOUT (R342). -/
def restartTimeout (s : State) : State :=
  let g := s.integ
  if g.phase ≠ 0 ∧ g.jobState ≠ 5 ∧ g.jobTmo ≠ 0 ∧ !g.tmoDone ∧ g.haltTime + 100000 * g.jobTmo.toNat ≤ s.now then
    let s := { s with integ := { g with
        restartTmo := true
        tmoDone := true
        jobState := 4 } }
    s.log .degraded { typ := tJobHalt, detail := haltDetail g.haltSrc g.epoch.toNat g.haltReason }
  else s

/-- RESTART_READY_RESEND (R372). -/
def readyResend (s : State) : State :=
  if s.integ.phase = 3 ∧ s.jobRank ≠ 0 ∧ s.integ.sentAt + tick1ms ≤ s.now then s.sendReady else s

/-- JOB_HALT_RESEND (R372): the coordinator sends JOB_HALT directly to the ranks whose RESTART_READY it lacks. -/
def haltResend (s : State) : State :=
  let g := s.integ
  if g.phase ≠ 0 ∧ s.jobRank = 0 ∧ g.sentAt + tick1ms ≤ s.now then
    let s := { s with integ := { g with sentAt := s.now } }
    ((upTo s.jobSize).filter (fun r => r ≠ 0 && !g.readys.contains r)).foldl
      (fun s r => s.sendControl r pkHalt g.epoch.toNat g.haltSrc g.haltReason) s
  else s

/-! Digest rounds. -/

/-- What a cell digest's record says. -/
def cellInfo (m p : Nat) : RecInfo := { typ := tCellDigest, source := m, detail := (m <<< 62) + (p <<< 47) }

/-- The round in progress, changed. -/
def modRound (s : State) (f : DigestRound → DigestRound) : State :=
  { s with integ := { s.integ with round := s.integ.round.map f } }

/-- A permanent mismatch of a cell digest (R326): counted, and charged to the array. -/
def cellFails (s : State) (m p : Nat) (i : RecInfo) : State :=
  let s := s.modRound (fun r => { r with fails := r.fails + 1 })
  ({ s with integ := { s.integ with digFails := satAdd s.integ.digFails 1 } }).permanentFault m p i

/-- The restore loop's digest of one array in a round (R325, R326): a first mismatch waits for the next restore cycle, which decides. -/
def digestArray (s : State) (r : DigestRound) (m p : Nat) : State :=
  let a := s.arr m p
  let bad := s.digestDiffers m p a.digest
  match r.again.find? (fun x => x.m = m && x.p = p) with
  | some x =>
    let i : RecInfo := { cellInfo m p with found := some (x.time, x.nested) }
    let s := s.modRound (fun r => { r with again := r.again.erase x })
    if bad then s.cellFails m p i else s.transient i
  | none =>
    if bad then s.modRound (fun r => { r with again := r.again ++ [{ m := m, p := p, time := s.time, nested := s.handling }] })
    else s

/-- A restore loop has sensed all its rows: it hashes the ACTIVE arrays whose spare group has the number of the round's restore cycle
modulo 16, and those that mismatched in the cycle before (R325). A cycle that had begun before the round counts for none. -/
def digestCycle (s : State) (m : Nat) : State :=
  match s.integ.round with
  | none => s
  | some r =>
    match r.cycles.getD m none with
    | none => { s with integ := { s.integ with round := some { r with cycles := r.cycles.set m (some 0) } } }
    | some k =>
      let due (p : Nat) : Bool := r.again.any (fun x => x.m = m && x.p = p) || (decide (k < 16) && decide (groupOf p % 16 = k))
      let active := s.arrsOf m (fun a => decide (a.st = .active))
      let kept := r.again.filter (fun x => decide (x.m ≠ m) || active.contains x.p)
      let r := { r with cycles := r.cycles.set m (some (k + 1)), again := kept }
      (active.filter due).foldl (fun s p => s.digestArray r m p) { s with integ := { s.integ with round := some r } }

/-- The cell part of a round has completed (R325): every mast with an ACTIVE array has given it sixteen restore cycles, and no array
waits to be taken again. -/
def cellsDone (s : State) (r : DigestRound) : Bool :=
  (upTo 4).all (fun m => (s.arrsOf m (fun a => decide (a.st = .active))).isEmpty || decide (16 ≤ (r.cycles.getD m none).getD 0))
    && r.again.all (fun x => (s.arr x.m x.p).st ≠ .active)

/-- An array whose digest mismatched once although it holds its image, and whether the next restore cycle's does too (R326). -/
def cellSlip (s : State) (x : Nat × Nat × Bool) : State :=
  if (s.arr x.1 x.2.1).st ≠ .active ∨ s.integ.round.isNone then s
  else if x.2.2 then s.cellFails x.1 x.2.1 (cellInfo x.1 x.2.1)
  else s.transient (cellInfo x.1 x.2.1)

/-- The bytes of a shard of the master copy. -/
def shardBytes (s : State) (c : Nat) (x : Shard) : List Byte := s.regionRead c x.stack x.offset x.length

/-- A shard of the round (R326): its record of the report (R327) and what a mismatch does: BOUND clears and the context is
stopped (Table 14.2, master copy). `seen` says that a first digest mismatched although the copy is good, and what the second is, if it
is not the manifest's either. -/
def roundShard (s : State) (c k : Nat) (x : Shard) (seen : Option (Option (List Byte))) : State × List Byte :=
  let d := match seen with
    | some (some d) => slice d 0 32
    | _ => shakeDigest (s.shardBytes c x)
  let bad := decide (d ≠ x.digest)
  let once := bad || seen.isSome
  let i : RecInfo := { typ := tShardDigest, source := x.stack / 2, ctx := some c, detail := k }
  let s :=
    if bad then
      let s := { s with integ := { s.integ with digFails := satAdd s.integ.digFails 1 } }
      (s.modCtx c (fun y => { y with bound := false })).log .ctxFatal i
    else if once then s.transient i
    else s
  (s, leBytes 1 c ++ leBytes 1 (bit_ (!bad) 0 ||| bit_ once 1) ++ [0, 0] ++ leBytes 4 k ++ List.replicate 8 0 ++ d ++ List.replicate 16 0)

/-- The shards of every bound image, by context, then index. -/
def boundShards (s : State) : List (Nat × Nat × Shard) :=
  (upTo 16).flatMap (fun c =>
    if (s.ctx c).bound then (((s.ctx c).manifest.map (·.shards)).getD []).mapIdx (fun k x => (c, k, x)) else [])

/-- DIGEST_ROUND_END: once both parts of the round have completed, the shards' digests are compared and the report is written (R325,
R327). `cells` and `shards` list readings that the stored state does not show: arrays that mismatched once, with whether they mismatched
again; shards, by context and index, that mismatched once, with the second digest where it mismatches too. -/
def digestRoundEnd (s : State) (cells : List (Nat × Nat × Bool)) (shards : List (Nat × Nat × Option (List Byte))) : State :=
  match s.integ.round with
  | none => s
  | some r =>
    if !s.cellsDone r then s
    else
      let s := cells.foldl cellSlip s
      let todo := s.boundShards
      let t := todo.foldl (fun (t : State × List Byte) x =>
        let seen := (shards.find? (fun y => y.1 = x.1 && y.2.1 = x.2.1)).map (·.2.2)
        let r := t.1.roundShard x.1 x.2.1 x.2.2 seen
        (r.1, t.2 ++ r.2)) (s, [])
      let s := t.1
      match s.integ.round with
      | none => s
      | some r =>
        let head := [0x4B, 0x57, 0x44, 0x52] ++ leBytes 4 s.integ.digRounds.toNat ++ leBytes 8 r.step ++ leBytes 4 todo.length
          ++ leBytes 4 r.fails ++ List.replicate 40 0
        let s := if s.integ.digBuf = 0 then s else s.emit (.hostWrite s.integ.digBuf.toNat (head ++ t.2))
        ({ s with integ := { s.integ with
            round := none
            digBusy := false
            digRounds := s.integ.digRounds + 1 } }).startRound

/-! Maintenance slots. -/

/-- The sum S of a known-answer pattern on a physical column (R323, R324). -/
def kernSum (x : ColSum) (n : Nat) : Int :=
  let v := (x.s.getD (n % 10) 0).toInt
  if (n / 10) % 2 = 1 then x.w.toInt - v else v

/-- A column's raw code, corrected by the factors in force (R60), lies outside the tolerance (R324). -/
def kernFails (s : State) (m p n : Nat) (k : RawCode) : Bool :=
  let e := 3 * (kernSum (s.sum m p (s.physOf m p k.col)) n : Rat) / ((2 ^ (s.arr m p).span.toNat : Nat) : Rat)
  decide ((s.integ.kakTol.toNat : Rat) / 16 + absQ e / 64 < absQ ((s.corrCode m p k.col (codeOf k) : Rat) / 256 - e))

/-- The record of a known-answer finding: its first column, and how many fail (Table 14.7). -/
def kernInfo (s : State) (x : KernFind) (c n : Nat) : RecInfo :=
  { typ := tKnownAnswer
    source := x.m
    detail := (x.m <<< 62) + (x.p <<< 47) + (s.physOf x.m x.p c <<< 36) + n
    found := some (x.time, x.nested) }

/-- The verdict on columns whose repeat failed: one record for each, or one for more than eight (R332). -/
def kernPermanent (s : State) (x : KernFind) (cols : List Nat) : State :=
  let m := x.m
  let p := x.p
  let info (c : Nat) : RecInfo := s.kernInfo x c cols.length
  let live := s.servesLive m p
  let more := if 8 < cols.length then [] else cols.drop 1
  let s1 := s.permanentFault m p (info (cols.headD 0))
  more.foldl (fun t c => t.logOnly (if live then .jobFatal else .degraded) { info c with ctx := (s.arr m p).slot.map (·.ctx) }) s1

/-- One array's pattern of a kernel slot: a first failure waits for the pattern's next turn, which decides (Table 14.3). A column that no
code names agrees with its expected code; an unassigned spare column is not compared. -/
def kernPattern (s : State) (m p n : Nat) (codes : List RawCode) (phase : Nat) : State :=
  let fails := (codes.filter (fun k => decide (k.p = p) && decide (k.phase = phase) && decide (k.col < 1026) && s.kernFails m p n k)).map (·.col)
  match s.integ.kernels.find? (fun x => x.m = m && x.p = p && x.pat = n % 20) with
  | some x =>
    let s := { s with integ := { s.integ with kernels := s.integ.kernels.erase x } }
    if fails.isEmpty then s.transient (s.kernInfo x (x.cols.headD 0) x.cols.length) else s.kernPermanent x fails
  | none =>
    if fails.isEmpty then s
    else
      let x : KernFind := { m := m, p := p, pat := n % 20, cols := fails, time := s.time, nested := s.handling }
      { s with integ := { s.integ with kernels := s.integ.kernels ++ [x] } }

/-- The array takes part in the maintenance slots' measurements (R115). -/
def measures (s : State) (m p : Nat) : Bool := restored (s.arr m p) && !s.dieCal m (dieOf p)

/-- Codes of a maintenance slot that met an unresolved bit decision are counted (R58); the columns of a kernel's codes are logical
ones. -/
def noteCodes (s : State) (m : Nat) (logical : Bool) (codes : List RawCode) : State :=
  (codes.filter (fun k => s.measures m k.p)).foldl (fun s k => s.noteCode m (if logical then s.physOf m k.p k.col else k.col) k) s

/-- Kernel slot k: every READY or ACTIVE array of a die that is not calibrating (R115). `codes` are the codes that differ from
the expected ones. -/
def kernelSlot (s : State) (m k : Nat) (codes : List RawCode) : State :=
  let ps := (codes.map (·.p) ++ (s.integ.kernels.filter (fun x => x.m = m)).map (·.p)).eraseDups
  (ps.filter (s.measures m)).foldl (fun s p =>
    (upTo 4).foldl (fun s ph => if restored (s.arr m p) then s.kernPattern m p (4 * k + ph) codes ph else s) s) (s.noteCodes m true codes)

/-- MAINTENANCE_SLOT (R42, R115): two rows of every READY and ACTIVE array are restored, and with the last ones the round's digests are
taken; or trim measures, which shows at TRIM_CYCLE_END; or a known-answer kernel runs. A row that `senses` does not list is sensed at
its levels. -/
def maintenanceSlot (s : State) (m : Nat) (senses : List Sense) (codes : List RawCode) : State :=
  let x := s.mast m
  if !s.isMaint m || x.slotDone || decide (781 ≤ x.slotNo) then s
  else
    let s :=
      if x.slotNo < 512 then
        let s := senses.foldl (fun s y => s.restoreRow m x.slotNo y) s
        if x.slotNo = 511 then s.digestCycle m else s
      else if x.slotNo < 652 then s.noteCodes m false codes
      else s.kernelSlot m (x.slotNo - 652) codes
    s.modMast m (fun y => { y with slotNo := x.slotNo + 1, slotDone := true })

/-! Plausibility bands (R321, R330). -/

/-- A column's band from its extremes in the last four counting cycles. -/
def bandFrom (wide : Rat) (l : List (Rat × Rat)) : Rat × Rat :=
  match l.filter (fun x => decide (x.1 ≤ x.2)) with
  | [] => (1, 0)
  | x :: t =>
    let mn := t.foldl (fun a y => min a y.1) x.1
    let mx := t.foldl (fun a y => max a y.2) x.2
    (mn - wide * (mx - mn), mx + wide * (mx - mn))

/-- A ply's bands at the end of a trim cycle, widened to hold the values arbitration admitted. -/
def closeBand (s : State) (b : Band) : Band :=
  let hist := if 1024 ≤ b.toks then (b.cur :: b.hist).take 4 else b.hist
  let wide : Rat := (s.integ.plausWide.toNat : Rat) / 4
  let band := if hist.length < 4 then [] else (upTo 1024).map (fun j => bandFrom wide (hist.map (fun h => h.getD j (1, 0))))
  { toks := 0
    cur := []
    hist := hist
    band := band.mapIdx (fun j lh => b.widen.foldl (fun (a : Rat × Rat) w =>
      if w.1 = j ∧ a.1 ≤ a.2 then (min a.1 w.2, max a.2 w.2) else a) lh)
    widen := [] }

/-- TRIM_CYCLE_END (R118, R321). -/
def trimCycle (s : State) (m : Nat) (probes : List TrimProbe) : State :=
  if (s.mast m).trimRc < 16 then s
  else
    let s := s.trimCycleEnd m probes
    { s with bands := tabMapAll {} (fun k b => if k / 1024 = m then s.closeBand b else b) s.bands }

/-- Bands of a context's plies, or of a mast, reopen. -/
def reopenBands (s : State) (f : Nat → Bool) : State := { s with bands := s.bands.filter (fun kb => !f kb.1) }

end State

end Sys2Proof.Machine
end

