-- ==== Sys2Proof/Machine/Spindle.lean ====
section
/-! DEFINITION. Spindles (R286 to R292): the Krawyn instructions, watchdogs, the operator partition with its notice ring and
ecalls, and the exclusion-range commands (R294). -/

namespace Sys2Proof.Machine

namespace State

/-- The spindle runs, and waits for no event and no ecall. -/
def spindleRuns (s : State) (m i : Nat) : Bool :=
  decide (m < 4) && decide (i < 128) && (s.spindle m i).waiting.isNone && !(s.spindle m i).ecall
    && (if s.isOperator m i then decide ((s.spn m).opState = 1) else decide ((s.spn m).fwLive ≠ 0))

def reg (x : Spindle) (r : Nat) : W64 := if r = 0 then 0 else tabGet 0 x.regs r

/-- Control registers (numbers PRESUMED, log entry 62): satp reads zero and time reads LOCAL_TIME (R286). -/
def csrRead (s : State) (m i n : Nat) : W64 :=
  let x := s.spindle m i
  if n = 0x180 then 0
  else if n = 0xC01 then s.time
  else if n = 0x305 then x.mtvec
  else if n = 0x341 then x.mepc
  else if n = 0x342 then x.mcause
  else tabGet 0 x.csrs n

/-- The operator region of a mast: 256 MiB at stack address 3,840 MiB of stack 2m (R291), as a spindle address. -/
def opBase (m : Nat) : Nat := hbmOf (2 * m) (3840 * 1048576)
def opBytes : Nat := 256 * 1048576

/-- An address range lies in the operator region of a mast. -/
def inRegion (m a n : Nat) : Bool := decide (opBase m ≤ a) && decide (a + n ≤ opBase m + opBytes)

/-- MAST_SPN_TRAP as a value (Table 12.13). -/
def trapWord (x : Spn) : Nat := at_ x.trapSpindle 57 + bit_ x.trapValid 56 + at_ x.trapCause 48 + at_ x.trapPc 0

/-- OPERATOR_TRAP: the partition of a mast halts, the cause is recorded, and the event is logged once (R291). -/
def operatorTrap (s : State) (m i : Nat) (cause : Byte) (pc : W64) : State :=
  if !s.isOperator m i ∨ (s.spn m).opState ≠ 1 then s
  else
    let s := s.modSpn m (fun x => { x with
      opState := 2
      trapSpindle := BitVec.ofNat 7 i
      trapValid := true
      trapCause := cause
      trapPc := pc.setWidth 48 })
    (s.log .degraded { typ := tOperator, source := m, detail := trapWord (s.spn m) }).dropEcalls m

/-- mstatus (300h) as a trap into machine mode leaves it: MPP holds the mode before, MPIE holds MIE, and MIE is 0 (PRESUMED, log entry
62). -/
def trapStatus (x : Spindle) : W64 :=
  let v := (tabGet 0 x.csrs 0x300).toNat
  let kept := v - at_ (BitVec.ofNat 2 (bitsOf v 11 2)) 11 - at_ (BitVec.ofNat 1 (bitsOf v 7 1)) 7 - at_ (BitVec.ofNat 1 (bitsOf v 3 1)) 3
  BitVec.ofNat 64 (kept + (if x.user then 0 else 3 <<< 11) + bitsOf v 3 1 <<< 7)

/-- An instruction raises an exception: an operator spindle's halts its partition (R291); a firmware spindle takes the trap of
machine mode (PRESUMED, log entry 62). -/
def spindleTrap (s : State) (m i cause : Nat) : State :=
  let x := s.spindle m i
  if s.isOperator m i then s.operatorTrap m i (BitVec.ofNat 8 cause) x.pc
  else s.setSpindle m i { x with
    mepc := x.pc
    mcause := BitVec.ofNat 64 cause
    csrs := tabSet 0 x.csrs 0x300 (trapStatus x)
    user := false
    pc := x.mtvec &&& ~~~3 }

/-- A result goes to rd and the spindle goes on. -/
def kwDone (s : State) (m i rd : Nat) (v : W64) : State :=
  let x := s.spindle m i
  s.setSpindle m i (setReg { x with pc := x.pc + 4 } rd v)

/-- KW.CRC32C (Table 12.3). -/
def kwCrc (s : State) (m i rd rs1 rs2 : Nat) : State :=
  if !s.spindleRuns m i then s
  else
    let x := s.spindle m i
    s.kwDone m i rd (BitVec.ofNat 64 (crc32cRun ((reg x rs1).toNat % 2 ^ 32) (leBytes 8 (reg x rs2).toNat)))

/-- Scratch, shared SRAM and HBM bytes of the spindle map (Table 12.4). -/
def spindleByte (s : State) (m i a : Nat) : Option Byte :=
  if a < 262144 then some (tabGet 0 s.scratch ((m * 128 + i) * 262144 + a))
  else if 0x10000000 ≤ a ∧ a < 0x11000000 then some (tabGet 0 s.shared (m * 16777216 + (a - 0x10000000)))
  else (hbmAddr a).map (fun ko => s.hbmByte ko.1 ko.2)

def setSpindleByte (s : State) (m i a : Nat) (b : Byte) : State :=
  if a < 262144 then { s with scratch := tabSet 0 s.scratch ((m * 128 + i) * 262144 + a) b }
  else if 0x10000000 ≤ a ∧ a < 0x11000000 then { s with shared := tabSet 0 s.shared (m * 16777216 + (a - 0x10000000)) b }
  else
    match hbmAddr a with
    | some (k, o) => s.setHbmByte k o b
    | none => s

/-- The BAR0 view, or host memory (firmware partition): mapped, its bytes an operand of the command. -/
def viewByte (a : Nat) : Bool :=
  (decide (0x20000000 ≤ a) && decide (a < 0x24000000)) || (decide (0x20000000000 ≤ a) && decide (a < 0x20000000000 + 2 ^ 46))

/-- KW.KECCAK: 200 bytes, 8-byte aligned, in scratch or the partition's region; rd must be x0. Exceptions: illegal
instruction (2), misaligned (6), access fault (7) (PRESUMED codes, log entry 62). -/
def kwKeccak (s : State) (m i rd rs1 : Nat) : State :=
  if !s.spindleRuns m i then s
  else
    let a := (reg (s.spindle m i) rs1).toNat
    if rd ≠ 0 then s.spindleTrap m i 2
    else if a % 8 ≠ 0 then s.spindleTrap m i 6
    else if !((!s.isOperator m i && decide (a + 200 ≤ 262144)) || inRegion m a 200) then s.spindleTrap m i 7
    else
      let w := (upTo 25).map (fun k => BitVec.ofNat 64 (leNat ((upTo 8).map (fun j => (s.spindleByte m i (a + 8 * k + j)).getD 0))))
      let out := (keccakF w).flatMap (fun v => leBytes 8 v.toNat)
      let s := (upTo 200).foldl (fun s j => s.setSpindleByte m i (a + j) (out.getD j 0)) s
      s.kwDone m i 0 0

/-- KW.TWIST: S from bytes 0 to 7 and n from bytes 8 to 13 at rs1, c from rs2 (R304). `ext` are the 14 bytes where they lie in
host memory or the BAR0 view. -/
def kwTwist (s : State) (m i rd rs1 rs2 : Nat) (ext : List Byte) : State :=
  if !s.spindleRuns m i then s
  else
    let x := s.spindle m i
    let a := (reg x rs1).toNat
    let l := (upTo 14).map (fun j => s.spindleByte m i (a + j))
    if a % 8 ≠ 0 then s.spindleTrap m i 4
    else if s.isOperator m i && !inRegion m a 14 then s.spindleTrap m i 5
    else
      let b := if l.all (·.isSome) then some (l.map (·.getD 0)) else if viewByte a && viewByte (a + 13) then some ext else none
      match b with
      | none => s.spindleTrap m i 5
      | some b => s.kwDone m i rd (twist (BitVec.ofNat 64 (leAt b 0 8)) (BitVec.ofNat 48 (leAt b 8 6)) (reg x rs2))

/-- KW.PGWALK: the page-table entry of a sequence, VALID in bit 31, or 0 (R249); illegal in the operator partition. -/
def kwPgwalk (s : State) (m i rd rs1 rs2 : Nat) : State :=
  if !s.spindleRuns m i then s
  else if s.isOperator m i then s.spindleTrap m i 2
  else
    let x := s.spindle m i
    let v := match s.tblPage ((reg x rs1).toNat % 131072) (reg x rs2).toNat with
      | some p => 2 ^ 31 + p
      | none => 0
    s.kwDone m i rd (BitVec.ofNat 64 v)

/-- KW.WAITEV: takes the pending events of the mask, or waits; an operator spindle sees events 4 and 5 only. A firmware
spindle that waits has completed its task (log entry 63). -/
def kwWaitev (s : State) (m i rd rs1 : Nat) : State :=
  if !s.spindleRuns m i then s
  else
    let x := s.spindle m i
    let mask := if s.isOperator m i then reg x rs1 &&& 0x30 else reg x rs1
    let s := s.modSpn m (fun y => { y with expired := y.expired.filter (· ≠ i) })
    s.setSpindle m i (wake { x with waiting := some (rd, mask) })

/-- KW.SIGNAL: event rs2 on spindle rs1 of the mast; illegal in the operator partition. -/
def kwSignal (s : State) (m i rs1 rs2 : Nat) : State :=
  if !s.spindleRuns m i then s
  else if s.isOperator m i then s.spindleTrap m i 2
  else
    let x := s.spindle m i
    let t := (reg x rs1).toNat
    let e := (reg x rs2).toNat
    let s := s.kwDone m i 0 0
    if t < 128 ∧ e < 64 then s.event m t e else s

/-- TIME_COMPARE: event 4 becomes pending on a spindle (Table 12.3). -/
def timeCompare (s : State) (m i : Nat) : State := if m < 4 ∧ i < 128 then s.event m i 4 else s

/-- Every cleat that an agent holds is released (R394). -/
def dropCleats (s : State) (a : Nat) : State :=
  (upTo 24).foldl (fun s k => if (s.mbx k).owner.toNat = a then s.modMbx k (fun x => { x with owner := 0 }) else s) s

/-- What a custom-0 word says (R287): R-type, funct7 zero, funct3 as Table 12.3. -/
inductive KwOp where
  | crc32c | keccak | twist | pgwalk | waitev | signal
  deriving DecidableEq, Repr

/-- The fields of an R-type word: rd, rs1, rs2. -/
def kwRd (w : W32) : Nat := bitsOf w.toNat 7 5
def kwRs1 (w : W32) : Nat := bitsOf w.toNat 15 5
def kwRs2 (w : W32) : Nat := bitsOf w.toNat 20 5

/-- A word of the custom-0 to custom-3 major opcodes (R287; custom-1 to custom-3 PRESUMED, log entry 62). -/
def isCustom (w : W32) : Bool := [0x0B, 0x2B, 0x5B, 0x7B].contains (bitsOf w.toNat 0 7)

/-- The Krawyn instruction of a custom-0 word; every other word of custom-0, and all of custom-1 to custom-3, is illegal (R287). -/
def kwDecode (w : W32) : Option KwOp :=
  if bitsOf w.toNat 0 7 ≠ 0x0B ∨ bitsOf w.toNat 25 7 ≠ 0 then none
  else match bitsOf w.toNat 12 3 with
    | 0 => some .crc32c
    | 1 => some .keccak
    | 2 => some .twist
    | 3 => some .pgwalk
    | 4 => some .waitev
    | 5 => some .signal
    | _ => none

/-- A spindle executes a word of a custom opcode: the Krawyn instruction that it encodes, or an illegal-instruction exception (R287). No
command of the table brings such a word; the KW_ commands bring instructions decoded already. -/
def kwWord (s : State) (m i : Nat) (w : W32) (ext : List Byte) : State :=
  if !isCustom w || !s.spindleRuns m i then s
  else match kwDecode w with
    | some .crc32c => s.kwCrc m i (kwRd w) (kwRs1 w) (kwRs2 w)
    | some .keccak => s.kwKeccak m i (kwRd w) (kwRs1 w)
    | some .twist => s.kwTwist m i (kwRd w) (kwRs1 w) (kwRs2 w) ext
    | some .pgwalk => s.kwPgwalk m i (kwRd w) (kwRs1 w) (kwRs2 w)
    | some .waitev => s.kwWaitev m i (kwRd w) (kwRs1 w)
    | some .signal => s.kwSignal m i (kwRs1 w) (kwRs2 w)
    | none => s.spindleTrap m i 2

/-- A firmware spindle can take over a task: it is another one of the partition (R290). -/
def heirOk (s : State) (m i heir : Nat) : Bool := decide (heir ≠ i) && decide (heir < 128) && !s.isOperator m heir

/-- SPINDLE_WATCHDOG: a firmware spindle is reset and its task goes to spindle `heir`; a second expiry on the task before it
completes is JOB_FATAL (R290). `ecc`: the spindle is reset in the same way because a word of its scratch cannot be corrected (R319), at
that word address ÷ 8; the event is then logged as MEMORY_ECC (log entry 132). -/
def spindleWatchdog (s : State) (m i heir : Nat) (ecc : Option Nat) : State :=
  if s.isOperator m i ∨ (s.spn m).fwLive = 0 ∨ 4 ≤ m ∨ 128 ≤ i ∨ !s.heirOk m i heir then s
  else
    let again := (s.spn m).expired.contains i
    let s := (s.setSpindle m i {}).dropCleats (64 + 128 * m + i)
    let s := s.modSpn m (fun y => { y with
      wdog := satAdd y.wdog 1
      expired := (if again then [] else [heir]) ++ y.expired.filter (· ≠ i) })
    s.log (if again then .jobFatal else .repeated) (match ecc with
      | none => { typ := tWatchdog, source := m, detail := i + m <<< 8 }
      | some a => { typ := tMemoryEcc, source := m, detail := (5 <<< 60) + a })

/-! The operator partition. -/

/-- MAST_SPN_CTL_WRITE (R291, Table 12.12). -/
def spnCtlWrite (s : State) (m : Nat) (v : W32) : State :=
  let x := s.spn m
  let en := v.getLsbD 31
  let cnt := if x.opEn then x.opCount else fld v 16 5
  let y : Spn :=
    { x with
      opEn := en
      opCount := cnt
      opCtx := fld v 0 16 }
  let y : Spn :=
    if en && !x.opEn then
      { y with
        opState := 1
        dropped := 0
        trapValid := false }
    else if !en && x.opEn then { y with opState := 0 }
    else y
  let s := s.setSpn m y
  let n := s.opCount m
  let s := if x.fwLive = 0 then s else s.modSpn m (fun z => { z with fwLive := BitVec.ofNat 8 (128 - n) })
  if en && !x.opEn then
    (upTo n).foldl (fun s k => s.setSpindle m (127 - k) { pc := BitVec.ofNat 64 (opBase m), user := true }) (s.dropEcalls m)
  else if !en && x.opEn then
    (upTo (min 16 cnt.toNat)).foldl (fun s k => s.setSpindle m (127 - k) {}) (s.dropEcalls m)
  else s

/-- The notice ring: the last 16 MiB of the region (R292). -/
def noticeBase : Nat := 3840 * 1048576 + 240 * 1048576
def noticeSlots : Nat := 1048572

/-- One notice into the ring of a mast, or dropped; event 5 is raised on the partition. -/
def putNotice (s : State) (m : Nat) (b : List Byte) : State :=
  let k := 2 * m
  let tail := leNat (s.hbmRead k noticeBase 4) % noticeSlots
  let head := leNat (s.hbmRead k (noticeBase + 4) 4) % noticeSlots
  if (tail + 1) % noticeSlots = head then s.modSpn m (fun x => { x with dropped := satAdd x.dropped 1 })
  else
    let s := s.hbmWrite k (noticeBase + 64 + 16 * tail) (slice b 0 16)
    let s := s.hbmWrite k noticeBase (leBytes 4 ((tail + 1) % noticeSlots))
    (upTo (s.opCount m)).foldl (fun s j => s.event m (127 - j) 5) s

/-- NOTICE_WRITE (R292): the oldest notice owed goes into the ring of each mast that names its context. -/
def noticeWrite (s : State) : State :=
  match s.noticesDue with
  | [] => s
  | (c, b) :: t =>
    (upTo 4).foldl (fun s m => if (s.spn m).opCtx.getLsbD c then s.putNotice m b else s) { s with noticesDue := t }

/-- An ecall of an operator spindle: its handle's entry, or the status it returns (R292). -/
def ecallEntry (s : State) (m i : Nat) : Except Byte Nat :=
  match s.byHandle ((reg (s.spindle m i) 10).setWidth 32) with
  | none => .error sBadHandle
  | some k => if (s.spn m).opCtx.getLsbD (s.entry k).ctx.toNat then .ok k else .error sOpDenied

/-- An operator spindle may make an ecall. -/
def mayEcall (s : State) (m i : Nat) : Bool := s.isOperator m i && s.spindleRuns m i

/-- ECALL_CANCEL (R292): as a CANCEL command; one that waits for the commit point holds its spindle and returns then. -/
def ecallCancel (s : State) (m i : Nat) : State :=
  if !s.mayEcall m i then s
  else
    match s.ecallEntry m i with
    | .error st => s.ecallReturn m i st
    | .ok k =>
      let d : Desc :=
        { opcode := 0, flags := 0, ctx := 0, priority := 0, handle := 0, tag := BitVec.ofNat 32 (m * 128 + i), count := 0, tokens := 0,
          deadline := 0, hint := 0, pfx := 0, reel := 0, smp := 0 }
      match s.cancelOf k d with
      | (s, some st) => s.ecallReturn m i st
      | (s, none) => s.setSpindle m i { s.spindle m i with ecall := true }

/-- ECALL_SET_PRIORITY (R292): as SET_PRIORITY with SET_PRIO only. -/
def ecallSetPriority (s : State) (m i : Nat) : State :=
  if !s.mayEcall m i then s
  else
    match s.ecallEntry m i with
    | .error st => s.ecallReturn m i st
    | .ok k =>
      let p := (reg (s.spindle m i) 11).toNat % 8
      (s.modEntry k (fun e => { e with priority := BitVec.ofNat 3 p })).ecallReturn m i sOK

/-! Exclusion ranges. -/

/-- A VALID range with LO above HI. -/
def badRange (w : W64) : Bool := w.getLsbD 63 && decide ((fld64 w 32 21).toNat < (fld64 w 0 21).toNat)

/-- A command on SEQ_XCMD completes. -/
def xDone (s : State) (code : BitVec 4) (st : Byte) : State :=
  { s with xregs := { s.xregs with cmdLast := code, status := st } }.cause gSeqx

/-- APPLY: the eight words become the entry's ranges. -/
def xApply (s : State) : State :=
  match s.byHandle s.xregs.handle with
  | none => s.xDone 1 sBadHandle
  | some i =>
    if s.xregs.ranges.any badRange then s.xDone 1 sBadRange
    else (s.setXr i { s.xr i with ranges := s.xregs.ranges }).xDone 1 sOK

/-- FETCH: the entry's ranges are copied into the words. -/
def xFetch (s : State) : State :=
  match s.byHandle s.xregs.handle with
  | none => s.xDone 2 sBadHandle
  | some i => { s with xregs := { s.xregs with ranges := (s.xr i).ranges } }.xDone 2 sOK

end State

end Sys2Proof.Machine
end

