-- ==== Sys2Proof/Machine/Prefix.lean ====
section
/-! DEFINITION. Learned prefixes (R257) and the host tier's registers (R248). -/

namespace Sys2Proof.Machine

namespace State

/-- A prefix command completes with a status, one in progress left alone. -/
def pfxRefuse (s : State) (st : Byte) : State := { s with kv := { s.kv with pfxStatus := st } }.cause gKvPfx
def pfxFinish (s : State) (st : Byte) : State := { s with kv := { s.kv with pfxStatus := st, pfxJob := none } }.cause gKvPfx
def pfxAccept (s : State) (c : BitVec 4) : State := { s with kv := { s.kv with pfxCmd := c } }

/-- The frames of a prefix slot return to the pool at once. -/
def pfxFree (s : State) (c x : Nat) : State :=
  let q := s.pfx c x
  let s := q.pages.foldl (fun s ep => s.setPdesc (ep.2 - 1) (if (s.pdesc (ep.2 - 1)).lost then { lost := true } else {})) s
  s.setPfx c x { users := q.users }

/-- The refusals common to LOAD and CLEAR, in the order of Table 11.2. -/
def pfxRefusal (s : State) : Option Byte :=
  let c := s.kv.pfxSelCtx.toNat
  let x := s.kv.pfxSelSlot.toNat
  match (s.ctx c).sect with
  | none => some sCtxAbsent
  | some sec =>
    if (s.ctx c).st = .absent then some sCtxAbsent
    else if s.kv.pfxJob.isSome then some sKvBusy
    else if sec.panel.prefixSlots ≤ x then some sPfxBadSlot
    else if (s.pfx c x).users ≠ 0 then some sPfxInUse
    else none

/-- PREFIX_PAGES of a context. -/
def prefixPages (s : State) (c : Nat) : Nat := ((s.ctx c).sect.map (·.panel.prefixPages)).getD 0

/-- A SUBMIT that names the slot waits to be decided (R271). -/
def pfxNamed (s : State) (c x : Nat) : Bool :=
  let f (d : Desc) : Bool := decide (d.opcode = 1) && decide (d.ctx = c) && decide (d.pfx = x)
  s.seq.fetched.any f || s.seq.awaits.any (fun a => f a.cmd)

/-- A command on a slot is in progress. -/
def pfxStart (s : State) (j : PfxJob) : State := { s with kv := { s.kv with pfxJob := some j } }

/-- A command takes the slot: the contents that it held go; CLEAR has ended, LOAD reads its image if the pages can be reserved. -/
def pfxTake (s : State) (j : PfxJob) : State :=
  let s := s.pfxFree j.ctx j.slot
  if j.clear then s.pfxFinish sOK
  else if s.fitsPrefix j.ctx (s.rowNeed j.ctx (pagesFor j.len)) then s.pfxStart { j with held := false }
  else s.pfxFinish sNoPages

/-- A command that no refusal meets: it waits for the SUBMITs that name its slot, which are decided first (R271). -/
def pfxBegin (s : State) (j : PfxJob) : State :=
  if s.pfxNamed j.ctx j.slot then s.pfxStart { j with held := true } else s.pfxTake j

/-- The command that has waited goes on once those SUBMITs are decided: PFX_IN_USE where one was admitted (R271). -/
def pfxResume (s : State) : State :=
  match s.kv.pfxJob with
  | some j =>
    if !j.held || s.pfxNamed j.ctx j.slot then s
    else if (s.pfx j.ctx j.slot).users ≠ 0 then s.pfxFinish sPfxInUse
    else s.pfxTake j
  | none => s

/-- PFX_LOAD: LOAD is accepted or refused. -/
def pfxLoad (s : State) (len : Nat) : State :=
  let s := s.pfxAccept 1
  let c := s.kv.pfxSelCtx.toNat
  let x := s.kv.pfxSelSlot.toNat
  match s.pfxRefusal with
  | some st => s.pfxRefuse st
  | none =>
    if len = 0 ∨ 64 * s.prefixPages c < len then s.pfxRefuse sPfxTooLong
    else s.pfxBegin { ctx := c, slot := x, len := len, src := s.kv.pfxSrc }

/-- Slots of a page at or above LEN are zero. -/
def pfxPage (len k : Nat) (b : List Byte) : List Byte := slice (b.take (512 * (len - 64 * k))) 0 32768

/-- PFX_LOAD_COMPLETE: the image has been read (`none`: the link reported an error), its check table behind it. -/
def pfxLoadComplete (s : State) (bytes : Option (List Byte)) : State :=
  match s.kv.pfxJob with
  | none => s
  | some j =>
    if j.held then s else
    let n := s.layerCount j.ctx
    let P := pagesFor j.len
    let size := n * P * 32768
    match bytes with
    | none => s.pfxFinish sBadImage
    | some l =>
      if !checksPass l size then s.pfxFinish sBadImage
      else if !s.fitsPrefix j.ctx (s.rowNeed j.ctx P) then s.pfxFinish sNoPages
      else
        let r := (upTo (n * P)).foldl (fun (r : State × Tab Nat) i =>
          let a := i / P
          let k := i % P
          match r.1.takeFrame (r.1.homeStack j.ctx ((r.1.layersOf j.ctx).getD a 0)) j.ctx 0 true with
          | (some p, s) => (s.writePage p 0 (pfxPage j.len k (slice l (32768 * i) 32768)), tabSet 0 r.2 (k * n + a) (p + 1))
          | (none, s) => (s, r.2)) (s, [])
        (r.1.setPfx j.ctx j.slot { loaded := true, length := j.len, pages := r.2 }).pfxFinish sOK

/-- PFX_CLEAR. -/
def pfxClear (s : State) : State :=
  let s := s.pfxAccept 2
  match s.pfxRefusal with
  | some st => s.pfxRefuse st
  | none => s.pfxBegin { ctx := s.kv.pfxSelCtx.toNat, slot := s.kv.pfxSelSlot.toNat, len := 0, src := 0, clear := true }

/-- KV_HOST_BASE_WRITE (R248): KV_HOST_BASE, or KV_HOST_PAGES, is written; ignored while a host frame is in use. -/
def kvHostWrite (s : State) (pages : Bool) (v : W64) : State :=
  if 0 < s.hostUsed then { s with kv := { s.kv with wrRej := true } }
  else if pages then { s with kv := { s.kv with hostPages := BitVec.ofNat 25 v.toNat } }
  else { s with kv := { s.kv with hostBase := v &&& ~~~0xFFF } }

end State

end Sys2Proof.Machine
end

