-- ==== Sys2Proof/Machine/Ed448.lean ====
section
/-! DEFINITION. Ed448 verification (R143, R191, R436): the curve x² + y² = 1 + d·x²·y² over the field of 2^448 − 2^224 − 1
elements, as RFC 8032 defines it (log entry 64). -/

namespace Sys2Proof.Machine

namespace Ed448

/-- The field, the curve constant and the order of the base point. -/
def prime : Nat := 2 ^ 448 - 2 ^ 224 - 1
def curveD : Nat := prime - 39081
def order : Nat := 2 ^ 446 - 13818066809895115352007386748515426880336692474882178609894547503885

def mulP (a b : Nat) : Nat := a * b % prime
def addP (a b : Nat) : Nat := (a + b) % prime
def subP (a b : Nat) : Nat := (a + prime - b % prime) % prime

/-- a^e modulo the field's prime, over the `n` low bits of e. -/
def powP (a e : Nat) : Nat → Nat
  | 0 => 1
  | n + 1 =>
    let r := powP a (e / 2) n
    let q := mulP r r
    if e % 2 = 1 then mulP q a else q

/-- A point in projective coordinates. -/
structure Point where
  x : Nat
  y : Nat
  z : Nat
  deriving DecidableEq, Repr

def neutral : Point := ⟨0, 1, 1⟩

def base : Point :=
  ⟨224580040295924300187604334099896036246789641632564134246125461686950415467406032909029192869357953282578032075146446173674602635247710,
   298819210078481492676017930443930673437544040154080242095928241372331506189835876003536878655418784733982303233503462500531545062832660, 1⟩

/-- The sum of two points. -/
def add (p q : Point) : Point :=
  let a := mulP p.z q.z
  let b := mulP a a
  let c := mulP p.x q.x
  let d := mulP p.y q.y
  let e := mulP curveD (mulP c d)
  let f := subP b e
  let g := addP b e
  let h := mulP (addP p.x p.y) (addP q.x q.y)
  ⟨mulP (mulP a f) (subP (subP h c) d), mulP (mulP a g) (subP d c), mulP f g⟩

/-- n·P over the `k` low bits of n. -/
def scale (n : Nat) (p : Point) : Nat → Point
  | 0 => neutral
  | k + 1 =>
    let q := scale (n / 2) p k
    let q := add q q
    if n % 2 = 1 then add q p else q

/-- Equality of projective points. -/
def same (p q : Point) : Bool :=
  decide (mulP p.x q.z = mulP q.x p.z) && decide (mulP p.y q.z = mulP q.y p.z)

/-- The point that 57 bytes encode. -/
def decode (l : List Byte) : Option Point :=
  let y := leAt l 0 56
  let sign := (leAt l 56 1) / 128
  if leAt l 56 1 % 128 ≠ 0 ∨ prime ≤ y then none
  else
    let u := subP (mulP y y) 1
    let v := subP (mulP curveD (mulP y y)) 1
    let w := mulP (mulP u (mulP u u)) v
    let x := mulP w (powP (mulP w (mulP (mulP u u) (mulP v v))) ((prime - 3) / 4) 446)
    if mulP v (mulP x x) ≠ u then none
    else if x = 0 ∧ sign = 1 then none
    else some ⟨if x % 2 = sign then x else prime - x, y, 1⟩

/-- The inverse in the field. -/
def invP (a : Nat) : Nat := powP a (prime - 2) 448

/-- The 57 bytes that encode a point. -/
def encode (p : Point) : List Byte :=
  let i := invP p.z
  leBytes 56 (mulP p.y i) ++ leBytes 1 (128 * (mulP p.x i % 2))

/-- The public key of a private key of 57 bytes. -/
def publicKey (key : List Byte) : List Byte :=
  let a := leNat (slice (shake256 (slice key 0 57) 114) 0 56)
  encode (scale (2 ^ 447 + a % 2 ^ 447 / 4 * 4) base 448)

/-- The prefix dom4 of a context string. -/
def dom4 (ctx : List Byte) : List Byte :=
  [0x53, 0x69, 0x67, 0x45, 0x64, 0x34, 0x34, 0x38, 0x00, BitVec.ofNat 8 ctx.length] ++ ctx

/-- Whether `sig` (114 bytes) is a signature of `msg` under the public key `key` (57 bytes) and a context string. -/
def verify (ctx key msg sig : List Byte) : Bool :=
  let r := slice sig 0 57
  let sc := leAt sig 57 57
  match decode key, decode r with
  | some a, some p =>
    if order ≤ sc then false
    else
      let h := leNat (shake256 (dom4 ctx ++ r ++ key ++ msg) 114) % order
      let four (q : Point) : Point := add (add q q) (add q q)
      same (four (scale sc base 446)) (add (four p) (four (scale h a 446)))
  | _, _ => false

end Ed448

end Sys2Proof.Machine
end

