-- ==== Sys2Proof/Machine/SailForm.lean ====
section
/-! DEFINITION. The form of a sail plan (R141 to R153): its header, panels and seals as bytes, and steps 4, 5 and 11 of its
validation (Table 7.8). -/

namespace Sys2Proof.Machine

/-- A panel: where it lies in the plan, the fields of its header (Table 7.2), and all its bytes. -/
structure PlanPanel where
  off : Nat
  typ : Nat
  ctx : Nat
  mast : Nat
  index : Nat
  bytes : List Byte
  deriving DecidableEq, Repr

/-- The body of a panel. -/
def PlanPanel.body (p : PlanPanel) : List Byte := p.bytes.drop 16

/-- A plan cut into its parts: the fields of Table 7.1, panels, seals with their offsets. -/
structure PlanForm where
  mask : Nat
  remove : Nat
  operator : Bool
  buildTag : Nat
  panels : List PlanPanel
  seals : List (Nat × List Byte)
  deriving DecidableEq, Repr

/-- A failed validation: the step, the status, DETAIL, the offset, and SAIL_PROG_ERR where step 13 sets it. -/
structure SailFail where
  step : Nat
  status : Byte
  detail : Nat := 0
  offset : Nat := 0
  prog : Option (Nat × Nat) := none
  deriving DecidableEq, Repr

/-- The contexts of a mask. -/
def maskCtxs (m : Nat) : List Nat := (upTo 16).filter (fun c => (m >>> c) % 2 = 1)

/-- Step 4: the header, against the length latched and whether a plan is in force. -/
def headerOk (b : List Byte) (len : Nat) (inForce : Bool) : Bool :=
  decide (slice b 0 4 = [0x4B, 0x57, 0x53, 0x50]) && decide (leAt b 4 2 = 1) && zeroAt b 6 2 && decide (leAt b 8 4 = len)
    && decide (leAt b 20 1 < 2) && zeroAt b 21 3 && zeroAt b 32 224
    && decide (leAt b 16 2 &&& leAt b 18 2 = 0)
    && (decide (leAt b 16 2 ≠ 0) || decide (leAt b 18 2 ≠ 0) || decide (leAt b 20 1 ≠ 0))
    && (inForce || decide (leAt b 20 1 = 1))

/-- The length of a panel of a type whose body is given (Tables 7.4 to 7.7, R148, R151, R153). -/
def panelLength (typ : Nat) (body : List Byte) : Nat :=
  if typ = 1 then 320
  else if typ = 2 then 272
  else if typ = 3 then 16 + ceilDiv (184 + 4 * leAt body 0 2) 8 * 8
  else 24 + 16 * leAt body 0 4

/-- The panels from an offset, as many as PANELS says, with where the walk stops: the offset of a panel of no valid TYPE or
LENGTH, or the end of the last one. -/
def walkPanels (b : List Byte) (len : Nat) : Nat → Nat → List PlanPanel × Option Nat × Nat
  | 0, off => ([], none, off)
  | n + 1, off =>
    let h := slice b off 16
    let typ := leAt h 0 2
    let l := leAt h 4 4
    if typ = 0 ∨ 5 < typ ∨ l < 24 ∨ l % 8 ≠ 0 ∨ len < off + l ∨ l ≠ panelLength typ (slice b (off + 16) 8) then ([], some off, off)
    else
      let r := walkPanels b len n (off + l)
      (⟨off, typ, leAt h 8 1, leAt h 9 1, leAt h 10 2, slice b off l⟩ :: r.1, r.2.1, r.2.2)

/-- PLY panels stand in ascending (MAST, INDEX); equal ones are left to R152. -/
def plyOrder : List PlanPanel → Option Nat
  | p :: q :: t => if q.mast * 65536 + q.index < p.mast * 65536 + p.index then some q.off else plyOrder (q :: t)
  | _ => none

/-- The panels of one context at the front of a list (R142): what follows them, or the offset at fault. -/
def frameCtx (c stop : Nat) : List PlanPanel → Except Nat (List PlanPanel)
  | [] => .error stop
  | p :: t =>
    if p.typ ≠ 2 ∨ p.ctx ≠ c then .error p.off
    else
      let plies := t.takeWhile (fun q => q.typ = 3 && q.ctx = c)
      let rest := t.dropWhile (fun q => q.typ = 3 && q.ctx = c)
      let counts := (upTo 4).all (fun m => decide ((plies.filter (fun q => q.mast = m)).length = leAt p.body (16 + 2 * m) 2))
      match plyOrder plies, plies.find? (fun q => decide (3 < q.mast)) with
      | some o, _ => .error o
      | none, some q => .error q.off
      | none, none =>
        if !counts then .error p.off
        else
          match rest with
          | [] => .error stop
          | q :: u => if q.typ = 5 ∧ q.ctx = c then .ok u else .error q.off

/-- The panels of the contexts named, in order. -/
def frameCtxs (stop : Nat) : List Nat → List PlanPanel → Option Nat
  | [], [] => none
  | [], p :: _ => some p.off
  | c :: cs, l =>
    match frameCtx c stop l with
    | .error o => some o
    | .ok r => frameCtxs stop cs r

/-- The order and count of panels (R142): the offset at fault, if there is one. -/
def framePanels (f : PlanForm) (stop : Nat) : Option Nat :=
  let cs := maskCtxs f.mask
  if f.operator then
    match f.panels with
    | d :: r :: t =>
      if d.typ ≠ 1 ∨ d.ctx ≠ 0xFF then some d.off
      else if r.typ ≠ 4 ∨ r.ctx ≠ 0xFF then some r.off
      else frameCtxs stop cs t
    | [d] => if d.typ ≠ 1 ∨ d.ctx ≠ 0xFF then some d.off else some stop
    | [] => some stop
  else frameCtxs stop cs f.panels

/-- The seals that R142 requires: KIND and CTX. -/
def wantedSeals (f : PlanForm) : List (Nat × Nat) :=
  (if f.operator then [(1, 0xFF)] else []) ++ (maskCtxs f.mask).map (fun c => (2, c))

/-- A seal has its KIND and CTX, and its reserved bytes are zero (Table 7.3). -/
def sealForm (b : List Byte) (w : Nat × Nat) : Bool :=
  decide (leAt b 0 2 = w.1) && decide (leAt b 2 1 = w.2) && zeroAt b 3 5 && zeroAt b 65 7 && zeroAt b 186 6

/-- The first seal that is not the one wanted. -/
def frameSeals : List (Nat × List Byte) → List (Nat × Nat) → Option Nat
  | [], [] => none
  | [], _ :: _ => some 0
  | x :: _, [] => some x.1
  | x :: t, w :: u => if sealForm x.2 w then frameSeals t u else some x.1

/-- Step 5: the plan cut into its parts, or the offset at which its framing fails. -/
def parsePlan (b : List Byte) (len : Nat) : Except Nat PlanForm :=
  let nseals := leAt b 14 2
  let w := walkPanels b len (leAt b 12 2) 256
  let stop := w.2.2
  match w.2.1 with
  | some o => .error o
  | none =>
    let f : PlanForm :=
      { mask := leAt b 16 2
        remove := leAt b 18 2
        operator := decide (leAt b 20 1 = 1)
        buildTag := leAt b 24 8
        panels := w.1
        seals := (upTo nseals).map (fun i => (stop + 192 * i, slice b (stop + 192 * i) 192)) }
    match framePanels f stop with
    | some o => .error o
    | none =>
      if stop + 192 * nseals ≠ len ∨ nseals ≠ (wantedSeals f).length then .error stop
      else
        match frameSeals f.seals (wantedSeals f) with
        | some o => .error o
        | none => .ok f

/-! Step 11: fields, each with the body offset DETAIL names. -/

/-- The first field that is out of its range. -/
def firstBad (l : List (Nat × Bool)) : Option Nat := (l.find? (fun x => !x.2)).map (·.1)

/-- Table 7.4. -/
def deviceFields (b : List Byte) : List (Nat × Bool) :=
  [(0, decide (leAt b 0 4 < 131072)), (6, decide (1 ≤ leAt b 6 2) && decide (leAt b 6 2 ≤ 4096)),
   (8, decide (leAt b 8 2 < leAt b 6 2)), (10, zeroAt b 10 2), (12, decide (leAt b 12 4 < 131072)),
   (16, decide (leAt b 16 1 < 64)), (17, decide (leAt b 17 1 < 2)), (18, decide (leAt b 18 1 < 2)),
   (19, decide (leAt b 19 1 < 2)), (21, decide (leAt b 21 1 ≤ 8)), (22, zeroAt b 22 26)]
  ++ (upTo 8).map (fun i => (48 + 32 * i, decide (i < leAt b 21 1) || zeroAt b (48 + 32 * i) 32))

/-- Table 7.5: a route entry's 128-bit number. -/
def routeOf (n : Nat) : Route :=
  { lo := bitsOf n 111 17
    hi := bitsOf n 94 17
    vc := bitsOf n 92 2
    ports := (upTo (bitsOf n 88 4)).map (fun k => bitsOf n (83 - 5 * k) 5) }

/-- A route entry is well formed (R148). -/
def routeOk (n : Nat) : Bool :=
  decide (bitsOf n 111 17 ≤ bitsOf n 94 17) && decide (1 ≤ bitsOf n 88 4) && decide (bitsOf n 88 4 ≤ 12) && decide (bitsOf n 0 28 = 0)
    && decide (bitsOf n 28 60 % 2 ^ (60 - 5 * bitsOf n 88 4) = 0)

/-- The route entries in order: in one virtual channel, ascending and disjoint. `last` holds, for each channel, the lowest
destination that a next range may begin at. -/
def routeFields (b : List Byte) : Nat → Nat → List Nat → List (Nat × Bool)
  | 0, _, _ => []
  | n + 1, i, last =>
    let e := leAt b (8 + 16 * i) 16
    let vc := bitsOf e 92 2
    (8 + 16 * i, routeOk e && decide (last.getD vc 0 ≤ bitsOf e 111 17)) ::
      routeFields b n (i + 1) (last.set vc (bitsOf e 94 17 + 1))

/-- R149: the masts named in some MAST_MASK of a CONTEXT panel body. -/
def usedMasts (b : List Byte) : Nat := (upTo 16).foldl (fun a i => a ||| leAt b (132 + 8 * i) 1) 0
def usesMast (b : List Byte) (m : Nat) : Bool := decide ((usedMasts b >>> m) % 2 = 1)

/-- Table 7.6. -/
def contextFields (b : List Byte) : List (Nat × Bool) :=
  let reload := decide (leAt b 0 1 = 1)
  let slotOk (m : Nat) : Bool :=
    let n := leAt b (8 + 2 * m) 2
    decide (n ≤ 16384) && (!reload || (decide (n % 2 = 0) && (decide (2 ≤ n) || !usesMast b m)))
  let slice_ := leAt b 24 2
  [(0, decide (leAt b 0 1 < 2)), (1, decide (1 ≤ leAt b 1 1) && decide (leAt b 1 1 ≤ 16)),
   (2, decide (1 ≤ leAt b 2 2) && decide (leAt b 2 2 ≤ 1024)), (4, decide (1 ≤ leAt b 4 4) && decide (leAt b 4 4 ≤ 1048576))]
  ++ (upTo 4).map (fun m => (8 + 2 * m, slotOk m))
  ++ (upTo 4).map (fun m => (16 + 2 * m, decide (leAt b (16 + 2 * m) 2 ≤ 1024)))
  ++ [(24, if reload then decide (5 ≤ slice_) && decide (slice_ ≤ 1000) else decide (slice_ = 0)),
      (26, decide (leAt b 26 1 ≤ 64)), (27, decide (leAt b 27 1 ≤ 64)),
      (28, decide (leAt b 28 2 ≤ 4096) && (decide (leAt b 27 1 ≠ 0) || decide (leAt b 28 2 = 0))), (30, zeroAt b 30 2),
      (36, decide (leAt b 36 4 ≤ 16777216)), (88, zeroAt b 88 8)]
  ++ (upTo 16).flatMap (fun i =>
    let o := 128 + 8 * i
    [(o, decide (i < leAt b 1 1) || zeroAt b o 8), (o + 4, decide (leAt b (o + 4) 1 < 16)), (o + 5, zeroAt b (o + 5) 3)])

/-- Table 7.7, with SLOTS of the panel's mast. -/
def plyFields (b : List Byte) (slots : Nat) : List (Nat × Bool) :=
  let n := leAt b 0 2
  let k := leAt b 12 4
  let nd := leAt b 7 1
  let np := leAt b 8 1
  let dch (i : Nat) : Nat := leAt b (24 + 4 * i) 4
  [(0, decide (1 ≤ n) && decide (n ≤ 256)), (2, zeroAt b 2 2), (4, decide (leAt b 4 1 < 3)),
   (5, decide (4 ≤ leAt b 5 1) && decide (leAt b 5 1 ≤ 10)), (6, decide ((leAt b 6 1 >>> 3) % 2 = 0)), (7, decide (nd ≤ 32)),
   (8, decide (np ≤ 8)), (9, zeroAt b 9 1),
   (12, decide (1024 * (n - 1) + 1 ≤ k) && decide (k ≤ 1024 * n) && decide (k ≤ 262144))]
  ++ (upTo 32).map (fun i =>
    (24 + 4 * i, if i < nd then decide (dch i < k) && (decide (i = 0) || decide (dch (i - 1) < dch i)) else decide (dch i = 0)))
  ++ (upTo 8).map (fun i =>
    let w := leAt b (152 + 4 * i) 4
    (152 + 4 * i, if i < np then decide (bitsOf w 28 4 = 0) && decide (bitsOf w 10 4 = 0) else decide (w = 0)))
  ++ (upTo n).map (fun i =>
    let w := leAt b (184 + 4 * i) 4
    (184 + 4 * i, decide (bitsOf w 14 17 = 0) && decide (bitsOf w 0 14 < slots)))
  ++ [(184 + 4 * n, n % 2 = 0 || zeroAt b (184 + 4 * n) 4)]

/-- The panel header's reserved bytes and fixed fields (Table 7.2); they lie in no body and have DETAIL 00h. -/
def headFields (p : PlanPanel) : List (Nat × Bool) :=
  [(0, zeroAt p.bytes 2 2 && zeroAt p.bytes 12 4 && (decide (p.typ = 3) || (decide (p.mast = 0xFF) && decide (p.index = 0))))]

/-- The CONTEXT panel body of context c. -/
def ctxBody (f : PlanForm) (c : Nat) : List Byte := ((f.panels.find? (fun p => p.typ = 2 && p.ctx = c)).map (·.body)).getD []

/-- The fields of one panel. -/
def panelFields (f : PlanForm) (p : PlanPanel) : List (Nat × Bool) :=
  let b := p.body
  headFields p ++
    (if p.typ = 1 then deviceFields b
     else if p.typ = 4 then
       [(0, decide (leAt b 0 4 ≤ 65536)), (4, zeroAt b 4 4)] ++ routeFields b (leAt b 0 4) 0 [0, 0, 0, 0]
     else if p.typ = 2 then contextFields b
     else if p.typ = 3 then plyFields b (leAt (ctxBody f p.ctx) (8 + 2 * p.mast) 2)
     else [(0, decide (1 ≤ leAt b 0 4) && decide (leAt b 0 4 ≤ 65536)), (4, zeroAt b 4 4)])

/-- DETAIL of a body offset (Table 7.14). -/
def detailOf (o : Nat) : Nat := min 255 (o / 4)

/-- Step 11. -/
def fieldFail (f : PlanForm) (status : Byte) : Option SailFail :=
  f.panels.findSome? (fun p => (firstBad (panelFields f p)).map (fun o =>
    { step := 11, status := status, detail := detailOf o, offset := p.off }))

/-! The panels as records. -/

/-- Table 7.4. -/
def deviceOf (b : List Byte) : DevicePanel :=
  { deviceId := leAt b 0 4
    jobId := leAt b 4 2
    jobSize := leAt b 6 2
    jobRank := leAt b 8 2
    jobGroup := leAt b 12 4
    wakeSlot := leAt b 16 1
    divVec := leAt b 17 1
    divNoc := leAt b 18 1
    divSpn := leAt b 19 1
    reefGroups := leAt b 20 1
    trusted := (upTo (leAt b 21 1)).map (fun i => slice b (48 + 32 * i) 32) }

/-- The routes of a ROUTE panel. -/
def routesOf (b : List Byte) : List Route := (upTo (leAt b 0 4)).map (fun i => routeOf (leAt b (8 + 16 * i) 16))

/-- Table 7.6. -/
def ctxPanelOf (b : List Byte) : CtxPanel :=
  { reload := decide (leAt b 0 1 = 1)
    layers := leAt b 2 2
    vocab := leAt b 4 4
    slots := (upTo 4).map (fun m => leAt b (8 + 2 * m) 2)
    plies := (upTo 4).map (fun m => leAt b (16 + 2 * m) 2)
    slice := leAt b 24 2
    decodeReserve := leAt b 26 1
    prefixPages := leAt b 27 1
    prefixSlots := leAt b 28 2
    maxSeq := leAt b 32 4
    hostPages := leAt b 36 4
    weightMib := (upTo 8).map (fun k => leAt b (40 + 2 * k) 2)
    pageQuota := (upTo 8).map (fun k => leAt b (56 + 4 * k) 4)
    weightDigest := slice b 96 32
    groups := (upTo (leAt b 1 1)).map (fun i => ⟨leAt b (128 + 8 * i) 2, leAt b (130 + 8 * i) 2, leAt b (132 + 8 * i) 1⟩) }

/-- Table 7.7. -/
def plyPanelOf (p : PlanPanel) : PlyPanel :=
  let b := p.body
  { mast := p.mast
    index := p.index
    inFmt := leAt b 4 1
    span := leAt b 5 1
    biasEn := decide (bitsOf (leAt b 6 1) 7 1 = 1)
    scaleEn := decide (bitsOf (leAt b 6 1) 6 1 = 1)
    act := bitsOf (leAt b 6 1) 4 2
    outFmt := bitsOf (leAt b 6 1) 0 3
    dch := (upTo (leAt b 7 1)).map (fun i => leAt b (24 + 4 * i) 4)
    pins := (upTo (leAt b 8 1)).map (fun i =>
      let w := leAt b (152 + 4 * i) 4
      ⟨bitsOf w 16 12, bitsOf w 14 2, bitsOf w 0 10⟩)
    tensor := leAt b 10 2
    k := leAt b 12 4
    seed := BitVec.ofNat 64 (leAt b 16 8)
    slots := (upTo (leAt b 0 2)).map (fun i =>
      let w := leAt b (184 + 4 * i) 4
      (decide (bitsOf w 31 1 = 1), bitsOf w 0 14)) }

/-- The panels of one context. -/
def ctxPanels (f : PlanForm) (c : Nat) : List PlanPanel := f.panels.filter (fun p => p.typ ≠ 1 && p.typ ≠ 4 && p.ctx = c)

/-- A panel's bytes with CTX taken as 00h, as a seal covers them (R143). -/
def sealedBytes (p : PlanPanel) : List Byte := p.bytes.take 8 ++ [0] ++ p.bytes.drop 9

/-- The section of a context. -/
def sectionOf (f : PlanForm) (c : Nat) (sealB : List Byte) : Section :=
  let ps := ctxPanels f c
  let prog := ((ps.find? (fun p => p.typ = 5)).map (·.body)).getD []
  { panel := ctxPanelOf (ctxBody f c)
    plies := (ps.filter (fun p => p.typ = 3)).map plyPanelOf
    prog := (upTo (leAt prog 0 4)).map (fun i => leAt prog (8 + 16 * i) 16)
    raw := ps.flatMap sealedBytes
    sealBytes := sealB }

end Sys2Proof.Machine
end

