-- ==== Sys2Proof/Machine/ProgCheck.lean ====
section
/-! DEFINITION. The checks that validation makes on a layer program (R183, Table 8.6). -/

namespace Sys2Proof.Machine

/-- An operation with its number, its place in its stream and its stream. -/
structure PlacedOp where
  num : Nat
  pos : Nat
  op : Nat
  stream : List (Nat × Nat)
  deriving DecidableEq, Repr

def PlacedOp.code (x : PlacedOp) : Nat := opCode x.op

/-- The operations of a program in panel order. -/
def placedOps (prog : List Nat) : List PlacedOp :=
  prog.mapIdx (fun i o =>
    let st := streamOps prog (opGroup o) (opMast o)
    ⟨i, st.findIdx (fun x => x.1 = i), o, st⟩)

/-- The number of the first operation for which a check fails. -/
def firstOp (l : List PlacedOp) (f : PlacedOp → Bool) : Option Nat := (l.find? (fun x => !f x)).map (·.num)

/-! Check 1: codes, reserved bits, and the ranges of Tables 8.1 and 8.3. -/

/-- Operations with a destination, with a first source, and with rows of WIDTH elements. -/
def hasDst (c : Nat) : Bool := [cPlyMvm, cSplice, cAttend, cNorm, cRope, cAct, cAdd, cScale, cRecv, cGather].contains c
def hasSrcA (c : Nat) : Bool :=
  [cPlyMvm, cSplice, cAttend, cNorm, cRope, cAct, cAdd, cScale, cSend, cLogits, cCheck].contains c
def hasWidth (c : Nat) : Bool := hasDst c || c = cSend || c = cCheck

/-- The ARGS bytes of an operation. -/
def argsOk (o : Nat) : Bool :=
  let z (lo w : Nat) : Bool := decide (bitsOf o lo w = 0)
  let c := opCode o
  if c = cPlyMvm ∨ c = cSplice then decide (1 ≤ opB15 o) && decide (opB15 o ≤ 64)
  else if c = cAttend then decide (bitsOf o 112 4 < 4) && z 116 4 && decide (1 ≤ opB15 o) && decide (opB15 o ≤ 128)
  else if c = cExpand ∨ c = cAdd ∨ c = cGather then z 96 32
  else if c = cNorm then z 112 16
  else if c = cRope then decide (1 ≤ opB14 o) && decide (1 ≤ opB15 o)
  else if c = cAct then decide (opB12 o < 4) && z 104 24
  else if c = cSend then z 114 6 && z 122 6
  else if c = cRecv then z 114 14
  else if c = cLogits then decide (1 ≤ opA14 o) && decide (opA14 o ≤ 1024)
  else if c = cSample then z 80 48
  else if c = cCheck then decide (bitsOf o 80 8 < 128) && z 88 40
  else if c = cBarrier then z 84 44
  else if c = cRepeat then decide (1 ≤ opA10 o) && decide (opA10 o ≤ 4095)
  else true

/-- Check 1 on one operation. -/
def opForm (o : Nat) : Bool :=
  decide (1 ≤ opCode o) && decide (opCode o ≤ 17) && decide (opFmtD o < 5) && decide (opFmtS o < 5)
    && decide (bitsOf o 9 1 = 0) && decide (bitsOf o 19 1 = 0) && decide (bitsOf o 23 1 = 0) && decide (bitsOf o 24 8 = 0)
    && (!hasWidth (opCode o) || decide (1 ≤ opWidth o)) && argsOk o

/-! Check 2. -/
def groupMast (c : CtxPanel) (o : Nat) : Bool :=
  match c.groups[opGroup o]? with
  | none => false
  | some g => decide ((g.mask >>> opMast o) % 2 = 1)

/-! Plies that an operation names. -/
def opPly (o : Nat) : Nat := opA12 o
def opCount (o : Nat) : Nat := if opCode o = cLogits then opA14 o else opB15 o
def isPlyOp (c : Nat) : Bool := c = cPlyMvm || c = cSplice || c = cLogits

/-- Layers of a group. -/
def groupLayers (c : CtxPanel) (g : Nat) : Nat :=
  match c.groups[g]? with
  | none => 0
  | some x => x.last + 1 - x.first

/-- The panels that an operation names, over every layer of its group (R167). -/
def opPlies (t : Section) (x : PlacedOp) : List (Option PlyPanel) :=
  let iters := if inBody x.stream x.pos then groupLayers t.panel (opGroup x.op) else 1
  (upTo iters).flatMap (fun i =>
    (upTo (opCount x.op)).map (fun k =>
      t.plies.find? (fun p => p.mast = opMast x.op && p.index = opPly x.op + plyAdd x.stream x.pos i x.op + k)))

/-- The first panel that an operation names. -/
def headPly (t : Section) (x : PlacedOp) : Option PlyPanel :=
  t.plies.find? (fun p => p.mast = opMast x.op && p.index = opPly x.op)

/-! Check 3: operands and extents. A region is a first line, the lines of a token row, and the part of the row used. -/
structure LineSet where
  base : Nat
  rl : Nat
  lo : Nat
  hi : Nat
  deriving DecidableEq, Repr

def rowSet (a width fmt : Nat) : LineSet := ⟨a, rowLines width fmt, 0, rowLines width fmt⟩

/-- Whether SRC_B is used: none (FFFFh), or a line. PLY_MVM and SPLICE use it where their plies have partial inputs. -/
def usesB (t : Section) (x : PlacedOp) : Option Bool :=
  let c := x.code
  if c = cPlyMvm ∨ c = cSplice then some (((headPly t x).map (fun p => !p.pins.isEmpty)).getD false)
  else if c = cAttend ∨ c = cAdd then some true
  else if c = cAct then some (decide (opA10 x.op ≠ 0xFFFF))
  else none

/-- The lines that an operation reads for each token. -/
def readsOf (t : Section) (x : PlacedOp) : List LineSet :=
  let o := x.op
  let c := x.code
  let w := opWidth o
  let fs := opFmtS o
  if isPlyOp c then
    match headPly t x with
    | none => []
    | some p =>
      rowSet (opSrcA o) p.k fs ::
        (if c = cLogits then [] else (upTo p.pins.length).map (fun i => ⟨opA10 o + 1024 * i, 1, 0, 1⟩))
  else if c = cAttend then [rowSet (opSrcA o) (w + 64 * opB15 o) fs, rowSet (opA10 o) 512 fs]
  else if hasSrcA c then rowSet (opSrcA o) w fs :: (if usesB t x = some true then [rowSet (opA10 o) w fs] else [])
  else []

/-- The lines that an operation writes for each token: PLY_MVM the part of the row that its columns lie in (R169). -/
def writesOf (x : PlacedOp) : List LineSet :=
  let o := x.op
  let w := opWidth o
  let fd := opFmtD o
  if !hasDst x.code then []
  else if x.code = cPlyMvm ∨ x.code = cSplice then
    let sz := fmtBytes fd
    let c0 := min w (1024 * opB14 o)
    let c1 := min w (1024 * (opB14 o + opB15 o))
    [⟨opDst o, rowLines w fd, c0 * sz / 4096, ceilDiv (c1 * sz) 4096⟩]
  else [rowSet (opDst o) w fd]

/-- Check 3 on one operation. -/
def operandsOk (t : Section) (x : PlacedOp) : Bool :=
  let o := x.op
  let c := x.code
  (decide (opDst o ≠ 0xFFFF) == hasDst c) && (decide (opSrcA o ≠ 0xFFFF) == hasSrcA c)
    && (match usesB t x with
        | none => true
        | some u => decide (opA10 o ≠ 0xFFFF) == u)
    && (readsOf t x ++ writesOf x).all (fun e => decide (e.base + 1024 * e.rl ≤ 32768))

/-! Check 4: plies. -/

/-- The format of Table 8.2 that an input format (R77) or an output format (Table 5.1) is. -/
def inFmtCode (i : Nat) : Nat := i + 1
def outFmtCode (f : Nat) : Nat := if f = 5 then 0 else f

/-- Check 4 on one operation. -/
def pliesOk (t : Section) (x : PlacedOp) : Bool :=
  let o := x.op
  let c := x.code
  if !isPlyOp c then true
  else
    let stride := if inBody x.stream x.pos && !opFixed o then (strides x.stream).2 else 0
    let top := opPly o + opCount o - 1 + (groupLayers t.panel (opGroup o) - 1) * stride
    let ps := opPlies t x
    decide (top < t.panel.plies.getD (opMast o) 0)
      && (match headPly t x with
          | none => false
          | some h =>
            ps.all (fun p => match p with
              | none => false
              | some q => decide (q.k = h.k) && decide (q.inFmt = h.inFmt) && decide (q.outFmt = h.outFmt)
                  && decide (q.pins.length = h.pins.length) && (q.pins.isEmpty || (c ≠ cLogits && decide (opCount o = 1))))
            && decide (opFmtS o = inFmtCode h.inFmt)
            && decide (opFmtD o = outFmtCode h.outFmt)
            && (if c = cLogits then decide (h.outFmt = 0)
                else decide (opB14 o + opB15 o ≤ ceilDiv (opWidth o) 1024)
                  && (decide (h.outFmt ≠ 5) || (decide (opWidth o = 1024) && decide (opB14 o = 0)))))

/-- Reload mode: every slot entry lies in the lower half. -/
def reloadSlots (t : Section) : Bool :=
  !t.panel.reload || t.plies.all (fun p =>
    p.slots.all (fun e => decide (e.2 + (if e.1 then 1 else 0) < t.panel.slots.getD p.mast 0 / 2)))

/-! Check 5: REPEAT. -/
def repeatOk (t : Section) (x : PlacedOp) : Bool :=
  let n := (x.stream.filter (fun y => opCode y.2 = cRepeat)).length
  decide (n ≤ 1) && (x.code ≠ cRepeat || decide (opA10 x.op ≤ x.pos)) && (decide (groupLayers t.panel (opGroup x.op) ≤ 1) || decide (n = 1))

/-! Check 6: R165 over the prelude, two iterations of the body and the epilogue. -/

/-- Places of a stream in the order of check 6. -/
def walkPlaces (st : List (Nat × Nat)) : List Nat :=
  match repeatAt st with
  | none => upTo st.length
  | some r =>
    let b := bodyStart st
    let body := (upTo (r - b)).map (· + b)
    upTo b ++ body ++ body ++ (upTo (st.length - r - 1)).map (· + r + 1)

/-- A line is written, for a token no later than τ, by one of the regions. -/
def lineWritten (ws : List LineSet) (tau x : Nat) : Bool :=
  ws.any (fun w => decide (w.base ≤ x) && decide (0 < w.rl) && decide ((x - w.base) / w.rl ≤ tau)
    && decide (w.lo ≤ (x - w.base) % w.rl) && decide ((x - w.base) % w.rl < w.hi))

/-- Every line that a region reads, for each token of a block, has been written. -/
def regionWritten (ws : List LineSet) (r : LineSet) : Bool :=
  (upTo 1024).all (fun tau => (upTo r.rl).all (fun j => lineWritten ws tau (r.base + tau * r.rl + j)))

/-- Walk a stream: the number of the first operation that reads a line not yet written. -/
def readsWritten (t : Section) (st : List (Nat × Nat)) : List Nat → List LineSet → Option Nat
  | [], _ => none
  | i :: rest, ws =>
    let no := st.getD i (0, 0)
    let x : PlacedOp := ⟨no.1, i, no.2, st⟩
    if (readsOf t x).all (regionWritten ws) then readsWritten t st rest (ws ++ writesOf x) else some no.1

/-- The streams of a program, in order of group and mast. -/
def allStreams (prog : List Nat) : List (List (Nat × Nat)) :=
  (upTo 64).map (fun i => streamOps prog (i / 4) (i % 4))

/-! Check 7. -/
def shapeOk (x : PlacedOp) : Bool :=
  let o := x.op
  let c := x.code
  if c = cAttend then
    let before := x.stream.take x.pos
    match repeatAt x.stream with
    | none => before.any (fun y => opCode y.2 = cExpand)
    | some _ => inBody x.stream x.pos && (before.drop (bodyStart x.stream)).any (fun y => opCode y.2 = cExpand)
  else if c = cRope then
    let h := opB15 o
    decide (opWidth o % h = 0) && decide (opA12 o + 2 * opB14 o ≤ opWidth o / h)
  else if c = cNorm then decide (opB12 o < 2) && decide (1 ≤ opB13 o) && decide (opB13 o ≤ 40)
  else true

/-! Check 8: SEND and RECV on this device. -/

/-- How many times an operation runs in a pass. -/
def runsOf (t : Section) (x : PlacedOp) : Nat := if inBody x.stream x.pos then groupLayers t.panel (opGroup x.op) else 1

/-- A SEND and a RECV that meet on this device: tag, masts, and the same group or the next one. -/
def movesMeet (a b : PlacedOp) : Bool :=
  decide (opCode a.op = cSend) && decide (opCode b.op = cRecv) && decide (opA12 a.op = 0xFFFF) && decide (opA12 b.op = 0xFFFF)
    && decide (opA10 a.op = opA10 b.op) && decide (opB14 a.op % 4 = opMast b.op) && decide (opB14 b.op % 4 = opMast a.op)
    && (decide (opGroup b.op = opGroup a.op) || decide (opGroup b.op = opGroup a.op + 1))

/-- A pair that meets also agrees in how often it runs, in WIDTH and in format. -/
def movesPair (t : Section) (a b : PlacedOp) : Bool :=
  decide (runsOf t a = runsOf t b) && decide (opWidth a.op = opWidth b.op) && decide (opFmtS a.op = opFmtD b.op)

def movesOk (t : Section) (l : List PlacedOp) (x : PlacedOp) : Bool :=
  if opA12 x.op ≠ 0xFFFF then true
  else if x.code = cSend then
    match l.filter (fun y => movesMeet x y) with
    | [y] => movesPair t x y
    | _ => false
  else if x.code = cRecv then
    match l.filter (fun y => movesMeet y x) with
    | [y] => movesPair t y x
    | _ => false
  else true

/-! Checks 9 and 10. -/
def placeOk (t : Section) (l : List PlacedOp) (x : PlacedOp) : Bool :=
  let c := x.code
  if c = cGather then decide (opGroup x.op = 0)
  else if c = cLogits ∨ c = cSample then
    decide (opGroup x.op + 1 = t.panel.groups.length) && !inBody x.stream x.pos
      && (c ≠ cSample || (l.filter (fun y => y.code = cSample ∧ y.num < x.num)).isEmpty)
  else true

def barrierOk (t : Section) (prog : List Nat) (x : PlacedOp) : Bool :=
  if x.code ≠ cBarrier then true
  else
    let ms := bitsOf x.op 80 4
    let mask := ((t.panel.groups[opGroup x.op]?).map (·.mask)).getD 0
    let count (m : Nat) : Nat :=
      ((streamOps prog (opGroup x.op) m).filter (fun y => opCode y.2 = cBarrier ∧ bitsOf y.2 80 4 = ms)).length
    decide ((ms >>> opMast x.op) % 2 = 1) && decide (ms &&& mask = ms)
      && (upTo 4).all (fun m => decide ((ms >>> m) % 2 = 0) || decide (count m = count (opMast x.op)))

/-- The first failing check of Table 8.6 on a program, and the operation it names. -/
def programFail (t : Section) : Option (Nat × Nat) :=
  let l := placedOps t.prog
  let at_ (n : Nat) (o : Option Nat) : Option (Nat × Nat) := o.map (fun i => (n, i))
  (at_ 1 (firstOp l (fun x => opForm x.op))).or
  ((at_ 2 (firstOp l (fun x => groupMast t.panel x.op))).or
  ((at_ 3 (firstOp l (operandsOk t))).or
  ((at_ 4 (firstOp l (pliesOk t))).or
  ((if reloadSlots t then none else some (4, 0)).or
  ((at_ 5 (firstOp l (repeatOk t))).or
  ((at_ 6 ((allStreams t.prog).findSome? (fun st => readsWritten t st (walkPlaces st) []))).or
  ((at_ 7 (firstOp l shapeOk)).or
  ((at_ 8 (firstOp l (movesOk t l))).or
  ((at_ 9 (firstOp l (placeOk t l))).or
  (at_ 10 (firstOp l (barrierOk t t.prog))))))))))))

end Sys2Proof.Machine
end

