-- ==== Sys2Proof/Machine/Replay.lean ====
section
/-! DEFINITION. Replay (R352 to R356): the chain's checks, the replayed steps, their comparison and digest. -/

namespace Sys2Proof.Machine

/-- Records of a chain, by their UNITS; `none` where a length does not fit (R352). -/
def chainRecords : Nat → List Byte → Option (List (List Byte))
  | 0, l => if l.isEmpty then some [] else none
  | n + 1, l =>
    if l.isEmpty then some []
    else
      let u := 64 * leAt l 6 2
      if u = 0 ∨ l.length < u then none else (chainRecords n (l.drop u)).map (l.take u :: ·)

/-- TYPE, SEQNO, HANDLE and LENGTH of a record. -/
def recType (r : List Byte) : Nat := leAt r 4 1
def recSeqno (r : List Byte) : Nat := leAt r 0 4
def recHandle (r : List Byte) : Nat := leAt r 8 4
def recLength (r : List Byte) : Nat := leAt r 12 4
/-- COUNT and OUTCOME of a STEP. -/
def stepCount (r : List Byte) : Nat := leAt r 28 2
def stepOutcome (r : List Byte) : Nat := leAt r 30 1

/-- Table 15.5, check 4: types in order, SEQNO consecutive, HANDLE the same, LENGTHs that follow, and the length each type has. -/
def chainOk (l : List (List Byte)) : Bool :=
  match l with
  | [] => false
  | st :: rest =>
    let body := if (rest.getLast?.map recType) = some 4 then rest.dropLast else rest
    let units (r : List Byte) : Bool :=
      match recType r with
      | 1 => r.length = 384
      | 2 => decide (1 ≤ stepCount r) && decide (stepCount r ≤ 8192) && decide (r.length = 64 * (1 + ceilDiv (stepCount r) 16))
      | 3 => r.length = 128
      | 4 => r.length = 64
      | _ => false
    decide (recType st = 1) && body.all (fun r => recType r = 2 || recType r = 3) && l.all units
      && l.all (fun r => recHandle r = recHandle st)
      && (l.mapIdx (fun i r => decide (recSeqno r = (recSeqno st + i) % 2 ^ 32))).all id
      && (((body.filter (fun r => recType r = 2)).foldl (fun (a : Bool × Nat) r =>
          (a.1 && decide (recLength r = a.2), a.2 + (if stepOutcome r = 0 then stepCount r else 0))) (true, recLength st)).1)

/-- The LENGTH a chain ends at. -/
def chainEnd (l : List (List Byte)) : Nat :=
  (l.filter (fun r => recType r = 2 && stepOutcome r = 0)).foldl (fun a r => a + stepCount r) (recLength (l.headD []))

/-- The steps to replay: STEP records with OUTCOME 0, each with the ranges of the latest RANGES record; `next` says that the
committed step before sampled (R302, R354). -/
def chainSteps (ranges : List W64) (next : Bool) : List (List Byte) → List RplStep
  | [] => []
  | r :: t =>
    if recType r = 3 then chainSteps ((upTo 8).map (fun k => BitVec.ofNat 64 (leAt r (64 + 8 * k) 8))) next t
    else if recType r = 2 ∧ stepOutcome r = 0 then
      let sampled := leAt r 5 1 % 2 = 1
      { step := leAt r 16 6
        tau := bitsOf (leAt r 22 2) 0 14
        tauL := bitsOf (leAt r 38 2) 0 10
        sampled := sampled
        token := bitsOf (leAt r 32 4) 0 20
        lp := leAt r 36 2
        toks := (upTo (stepCount r)).map (fun k => bitsOf (leAt r (64 + 4 * k) 4) 0 20)
        base := recLength r
        ranges := ranges
        nextFirst := next } :: chainSteps ranges sampled t
    else chainSteps ranges next t

/-- The value of a binary16 word, finite. -/
def half (w : Nat) : Rat :=
  let v := magValue 11 (-14) (w % 32768)
  if 32768 ≤ w % 65536 then -v else v

/-- A non-negative value rounded to binary16. -/
def toHalf (q : Rat) : W16 := if q = 0 then 0 else BitVec.ofNat 16 (min 0x7C00 (rneBits 11 (-14) q))

namespace State

/-- A replay command is accepted, refused, or the replay completes (R353, R355). -/
def rplRefuse (s : State) (st : Byte) : State := { s with rpl := { s.rpl with status := st } }.cause gRpl
def rplFinish (s : State) (st : Byte) : State :=
  { s with rpl := { s.rpl with status := st, reading := false, job := none } }.cause gRpl

/-- The replay's pages return to the pool, and a batch of it in flight is dropped. -/
def rplFree (s : State) : State :=
  let s := (s.freeTables rplKey).setXr rplKey {}
  { s with
    batches := s.batches.filter (fun b => !b.replay)
    rolled := s.rolled.filter (fun b => !b.replay) }

/-- A replay running or paused, or a chain being read, ends with RPL_ABORTED (Table 15.7). -/
def rplAbortNow (s : State) : State :=
  if s.rpl.job.isSome then s.rplFree.rplFinish sRplAborted
  else if s.rpl.reading then s.rplFinish sRplAborted
  else s

/-- A WLOAD of a context, or a commit that replaces or removes it, ends its replay. -/
def rplAbortCtx (s : State) (c : Nat) : State :=
  match s.rpl.job with
  | some j => if j.ctx = c then s.rplAbortNow else s
  | none => s

/-- REPLAY: checks 1 and 2 of Table 15.5; the chain is then read. -/
def replay (s : State) : State :=
  let s := { s with rpl := { s.rpl with cmdLast := 1 } }
  let n := s.rpl.len.toNat
  if s.rpl.reading ∨ s.rpl.job.isSome then s.rplRefuse sRplBusy
  else if s.rpl.src.toNat % 4096 ≠ 0 ∨ n % 64 ≠ 0 ∨ n < 512 ∨ 1073741824 < n then s.rplRefuse sBadConfig
  else { s with rpl := { s.rpl with reading := true, readLen := n } }

/-- Rows of the reservation of check 9. -/
def replayRows (len p : Nat) : Nat := pagesFor len - pagesFor p + (if p % 64 = 0 then 0 else 1)

/-- Checks 3 to 9 of Table 15.5 on the chain as read, its check table behind it. -/
def replayCheck (s : State) (n : Nat) (bytes : Option (List Byte)) : Except Byte (List (List Byte)) :=
  match bytes with
  | none => .error sBadImage
  | some l =>
    if !checksPass l n then .error sBadImage
    else
      match chainRecords (n / 64) (slice l 0 n) with
      | none => .error sRplBadChain
      | some rs =>
        if !chainOk rs then .error sRplBadChain
        else
          let st := rs.headD []
          let c := leAt st 16 1
          let slot := leAt st 18 2
          let x := s.ctx c
          if 15 < c ∨ x.st = .absent then .error sCtxAbsent
          else if s.loadNames c then .error sSailBusy
          else if s.jobSize ≠ 1 then .error sRplJob
          else if !x.bound ∨ slice st 64 32 ≠ s.sectDigest c ∨ slice st 96 32 ≠ slice x.wdigest 0 32 then .error sRplMismatch
          else if slot ≠ 0xFFFF ∧ !((s.pfx c slot).loaded && decide ((s.pfx c slot).length = recLength st)) then .error sRplPrefix
          else
            let rows := replayRows (chainEnd rs) (recLength st)
            if !(s.fits c (s.rowNeed c rows) true &&
                decide (s.dirSize c + (s.newPtrs {} c 0 (rowEnd (recLength st) rows (if recLength st % 64 = 0 then 0 else 1))).length ≤ s.ptbFree)) then .error sNoPages
            else .ok rs

/-- The result registers are cleared when a REPLAY is accepted. -/
def rplClear (s : State) : State :=
  { s with rpl := { s.rpl with maxDlp := 0, diff := 0, steps := 0, first := none, digest := [0, 0, 0, 0] } }

/-- The digest of what a replay absorbed, as four words. -/
def digestWords (l : List Byte) : List W64 :=
  let d := shakeDigest l
  (upTo 4).map (fun i => BitVec.ofNat 64 (leAt d (8 * i) 8))

/-- REPLAY_CHAIN_READ: the chain has been read whole (`none`: a read failed), and checks 3 to 9 decide the REPLAY. -/
def replayChainRead (s : State) (bytes : Option (List Byte)) : State :=
  if !s.rpl.reading then s
  else
    match s.replayCheck s.rpl.readLen bytes with
    | .error st => s.rplFinish st
    | .ok rs =>
      let s := s.rplClear
      let s := { s with rpl := { s.rpl with reading := false } }
      let st := rs.headD []
      let c := leAt st 16 1
      let slot := leAt st 18 2
      let p := recLength st
      let steps := chainSteps (List.replicate 8 0) false rs
      if steps.isEmpty then
        ({ s with rpl := { s.rpl with digest := digestWords [] } }).rplFinish sOK
      else
        let s := s.takeDir rplKey c
        let s := if slot = 0xFFFF then s else s.placePrefix rplKey c slot
        let s := s.setXr rplKey { s.xr rplKey with p0 := p, prefixSlot := if slot = 0xFFFF then none else some slot }
        let s := s.addRows rplKey (replayRows (chainEnd rs) p)
        { s with rpl := { s.rpl with job := some {
            ctx := c
            prefixSlot := slot
            p0 := p
            smp := { par := slice st 128 216 }
            steps := steps
            gap := 255
            absorbed := []
            abort := false
            flight := false } } }

/-- The rovings that a replayed step wrote, by ascending layer, then by position (R355). -/
def stepRovings (s : State) (c : Nat) (x : RplStep) : List Byte :=
  let n := s.layerCount c
  (upTo n).flatMap (fun r => (upTo x.toks.length).flatMap (fun k =>
    let pos := x.base + k
    match s.tblPage rplKey ((pos / 64) * n + r) with
    | some p => slice (s.hbmRead (pageStack p) (frameAddr (pageFrame p) + (pos % 64) * 512) 512) 0 512
    | none => List.replicate 512 0))

/-- The comparison of a replayed step that sampled (R355); a sampler fault counts as a difference (log entry 58). -/
def compareStep (r : Rpl) (x : RplStep) (t : Option Sampled) : Rpl :=
  if !x.sampled then r
  else
    match t with
    | some v =>
      if v.token = x.token then
        { r with maxDlp := let d := toHalf (absQ (half v.lp.toNat - half x.lp)); if r.maxDlp.toNat < d.toNat then d else r.maxDlp }
      else { r with diff := satAdd r.diff 1, first := some (r.first.getD (BitVec.ofNat 48 x.step)) }
    | none => { r with diff := satAdd r.diff 1, first := some (r.first.getD (BitVec.ofNat 48 x.step)) }

/-- The replay's own count table after a step (R302, R354). -/
def replayCounts (y : Smp) (x : RplStep) : Smp :=
  let inp := if smpCountInput y.par then (if x.nextFirst then x.toks.drop 1 else x.toks) else []
  { y with counts := (countToks y.counts ((if x.sampled then [x.token] else []) ++ inp)).1 }

/-- REPLAY_STEP_COMPLETE: the sampler has finished the replay batch: its token is compared, the digest takes in its rovings, and
the last step completes the replay, or an ABORT that waited ends it (Table 15.7). -/
def replayStep (s : State) : State :=
  match s.batches.find? (fun b => b.replay && b.sampledAll && !b.swept), s.rpl.job with
  | some b, some j =>
    match j.steps with
    | [] => s
    | x :: rest =>
      let t := s.sampled.find? (fun v => v.step = b.step && v.idx = rplKey)
      let j := { j with
        steps := rest
        flight := false
        smp := replayCounts j.smp x
        absorbed := j.absorbed ++ s.stepRovings j.ctx x }
      let r := compareStep s.rpl x t
      let s := { s with
        rpl := { r with steps := r.steps + 1, job := some j }
        sampled := s.sampled.filter (fun v => !(v.step = b.step && v.idx = rplKey))
        batches := s.batches.map (fun (y : Batch) => if y.replay then { y with swept := true } else y) }
      let s := s.samplesDone
      if j.abort then ((s.freeTables rplKey).setXr rplKey {}).rplFinish sRplAborted
      else if rest.isEmpty then
        let s := (s.freeTables rplKey).setXr rplKey {}
        ({ s with rpl := { s.rpl with digest := digestWords j.absorbed } }).rplFinish sOK
      else s
  | _, _ => s

/-- RPL_ABORT (Table 15.7): after the batch in flight; with no replay it completes OK. -/
def rplAbort (s : State) : State :=
  let s := { s with rpl := { s.rpl with cmdLast := 2 } }
  match s.rpl.job with
  | some j =>
    if j.flight then { s with rpl := { s.rpl with job := some { j with abort := true } } } else s.rplAbortNow
  | none => if s.rpl.reading then s.rplAbortNow else s.rplRefuse sOK

end State

end Sys2Proof.Machine
end

