-- ==== Sys2Proof/Machine/Plan.lean ====
section
/-! DEFINITION. The sail plan (chapter 7): the steps of its validation, its resources, its commit, the operator key, and the copy
of the plan that FURL retains. -/

namespace Sys2Proof.Machine

/-! Step 12: cross-panel rules (R150, R152), each with the offset of its panel and the body offset of its field. -/

/-- R150 on one CONTEXT panel. -/
def contextCross (p : PlanPanel) : Option Nat :=
  let b := p.body
  let c := ctxPanelOf b
  let n := c.groups.length
  let g (i : Nat) : Group := c.groups.getD i ⟨0, 0, 0⟩
  let groupBad := (upTo n).findSome? (fun i =>
    let o := 128 + 8 * i
    if (g i).first ≠ (if i = 0 then 0 else (g (i - 1)).last + 1) then some o
    else if (g i).last < (g i).first ∨ (i + 1 = n ∧ (g i).last + 1 ≠ c.layers) then some (o + 2)
    else if (g i).mask = 0 then some (o + 4)
    else none)
  let off (m : Nat) : Option Nat :=
    if usesMast b m then none
    else if c.slots.getD m 0 ≠ 0 then some (8 + 2 * m)
    else if c.plies.getD m 0 ≠ 0 then some (16 + 2 * m)
    else (upTo 2).findSome? (fun i => if c.pageQuota.getD (2 * m + i) 0 ≠ 0 then some (56 + 4 * (2 * m + i)) else none)
  groupBad.or ((upTo 4).findSome? off)

/-- The slots that a slot entry takes. -/
def entrySlots (e : Bool × Nat) : List Nat := if e.1 then [e.2, e.2 + 1] else [e.2]

/-- R152 on one PLY panel: `before` holds the slots that earlier entries of the context on the mast take, `pos` the panel's
place among the context's panels on the mast. -/
def plyCross (sec : Section) (rank : Nat) (before : List Nat) (pos : Nat) (p : PlyPanel) : Option Nat :=
  if p.outFmt = 6 ∨ p.outFmt = 7 then some 6
  else if p.outFmt = 5 ∧ (p.act ≠ 0 ∨ p.scaleEn ∨ p.biasEn) then some 6
  else if p.outFmt = 5 ∧ !p.pins.isEmpty then some 8
  else
    let pinBad := (p.pins.mapIdx (fun i x => (i, x))).findSome? (fun (x : Nat × Pin) =>
      if x.2.rank = rank ∧ !sec.plies.any (fun q => q.mast = x.2.mast && q.index = x.2.index && q.outFmt = 5) then some (152 + 4 * x.1)
      else none)
    let slotBad := (p.slots.mapIdx (fun i x => (i, x))).findSome? (fun (x : Nat × Bool × Nat) =>
      let taken := before ++ (p.slots.take x.1).flatMap entrySlots
      if (entrySlots x.2).any (fun y => taken.contains y) then some (184 + 4 * x.1)
      else if x.2.1 ∧ x.2.2 + 1 = sec.panel.slots.getD p.mast 0 then some (184 + 4 * x.1)
      else none)
    pinBad.or (slotBad.or (if p.index = pos then none else some 0))

/-- Step 12 on one context: the failing panel's offset and the body offset. -/
def ctxCross (f : PlanForm) (sec : Section) (rank c : Nat) : Option (Nat × Nat) :=
  let ps := ctxPanels f c
  let head := (ps.find? (fun p => p.typ = 2)).bind (fun p => (contextCross p).map (fun o => (p.off, o)))
  let raws := ps.filter (fun p => p.typ = 3)
  let plies := (raws.zip sec.plies).mapIdx (fun i x => (i, x.1.off, x.2))
  head.or (plies.findSome? (fun (x : Nat × Nat × PlyPanel) =>
    let mine := ((sec.plies.take x.1).filter (fun q => q.mast = x.2.2.mast))
    (plyCross sec rank (mine.flatMap (fun q => q.slots.flatMap entrySlots)) mine.length x.2.2).map (fun o => (x.2.1, o))))

/-- SAIL_OPKEY as bytes (Table 7.16). -/
def keyBytes (l : List W64) : List Byte := l.flatMap (fun w => leBytes 8 w.toNat)

/-- The context strings of the seals (R143). -/
def sealOp : List Byte := [0x4B, 0x57, 0x46, 0x50, 0x2D, 0x53, 0x41, 0x49, 0x4C, 0x2D, 0x4F, 0x50]
def sealPub : List Byte := [0x4B, 0x57, 0x46, 0x50, 0x2D, 0x53, 0x41, 0x49, 0x4C, 0x2D, 0x50, 0x55, 0x42]

/-- The signature of a seal over a message (Table 7.3). -/
def sealVerifies (ctx sealB msg : List Byte) : Bool := Ed448.verify ctx (slice sealB 8 57) msg (slice sealB 72 114)

/-- Ply range bases of the ranges in force: the lowest index from which `n` indices are free of the ranges given (R155). -/
def firstFit (taken : List (Nat × Nat)) (n : Nat) : Option Nat :=
  (upTo (1025 - n)).find? (fun b => taken.all (fun r => decide (b + n ≤ r.1) || decide (r.1 + r.2 ≤ b)))

namespace State

/-! Resources (R155). -/

/-- A section after commit for each context: the plan's, none for one removed, else the present one. -/
def afterCommit (s : State) (f : PlanForm) (secs : List (Nat × Section)) (c : Nat) : Option Section :=
  if (f.mask >>> c) % 2 = 1 then (secs.find? (fun x => x.1 = c)).map (·.2)
  else if (f.remove >>> c) % 2 = 1 then none
  else (s.ctx c).sect

/-- A_m: assignable arrays of a mast. -/
def assignable (s : State) (m : Nat) : Nat :=
  ((upTo 1024).map (fun g => min 16 (((groupArrays g).filter (fun p => (s.arr m p).st ≠ .retired)).length - 1))).foldl (· + ·) 0

/-- Slots that contexts of one mode claim on a mast. -/
def claims (sec : Nat → Option Section) (reload : Bool) (m : Nat) : List (Nat × Nat) :=
  (upTo 16).filterMap (fun c => match sec c with
    | some x => if x.panel.reload = reload then some (c, x.panel.slots.getD m 0) else none
    | none => none)

def sumOf (l : List (Nat × Nat)) : Nat := (l.map (·.2)).foldl (· + ·) 0

/-- Ply ranges of a mast after commit: those kept, then first fit for the plan's contexts, ascending. -/
def placeRanges (s : State) (f : PlanForm) (sec : Nat → Option Section) (m : Nat) : Except Nat (List (Nat × Nat)) :=
  let kept := (upTo 16).filterMap (fun c =>
    if (f.mask >>> c) % 2 = 1 ∨ (f.remove >>> c) % 2 = 1 then none
    else match (s.ctx c).sect with
      | some x => let n := x.panel.plies.getD m 0; if n = 0 then none else some ((s.ctx c).plyBase.getD m 0, n)
      | none => none)
  let r := (maskCtxs f.mask).foldl (fun (r : Except Nat (List (Nat × Nat) × List (Nat × Nat))) c =>
    match r with
    | .error e => .error e
    | .ok (taken, out) =>
      let n := ((sec c).map (fun x => x.panel.plies.getD m 0)).getD 0
      if n = 0 then .ok (taken, out ++ [(c, 0x7FF)])
      else match firstFit taken n with
        | none => .error c
        | some b => .ok (taken ++ [(b, n)], out ++ [(c, b)])) (.ok (kept, []))
  r.map (·.2)

/-- Offset in the plan of a context's CONTEXT panel; zero where the plan has none. -/
def ctxOffset (f : PlanForm) (c : Nat) : Nat := ((f.panels.find? (fun p => p.typ = 2 && p.ctx = c)).map (·.off)).getD 0

/-- Step 14. -/
def resourceFail (s : State) (f : PlanForm) (sec : Nat → Option Section) : Option SailFail :=
  let arrays := (upTo 4).findSome? (fun m =>
    let a := s.assignable m
    let n := sumOf (claims sec false m)
    if a < n then some ({ step := 14, status := sSailNoArrays, detail := m } : SailFail)
    else ((claims sec true m).find? (fun x => decide (a - n < x.2))).map (fun x =>
      { step := 14, status := sSailNoArrays, detail := m, offset := ctxOffset f x.1 }))
  let plies := (upTo 4).findSome? (fun m => match s.placeRanges f sec m with
    | .error c => some ({ step := 14, status := sSailNoPlies, detail := m, offset := ctxOffset f c } : SailFail)
    | .ok _ => none)
  let all := (upTo 16).filterMap sec
  let hbm := (upTo 8).findSome? (fun k =>
    let w : Nat := (all.map (fun x => x.panel.weightMib.getD k 0)).foldl (· + ·) 0
    let q : Nat := (all.map (fun x => x.panel.pageQuota.getD k 0)).foldl (· + ·) 0
    if 72197 * 32 < w * 32 + q then some ({ step := 14, status := sSailNoHbm, detail := k } : SailFail) else none)
  let host : Nat := (all.map (fun x => x.panel.hostPages)).foldl (· + ·) 0
  arrays.or (plies.or (hbm.or (if 16777216 < host then some { step := 14, status := sSailNoHostpages } else none)))

/-! Validation (R154). -/

/-- Steps 6 to 8 on each seal in plan order. -/
def sealFail (s : State) (f : PlanForm) (trusted : List (List Byte)) : Option SailFail :=
  f.seals.findSome? (fun x =>
    let key := shakeDigest (slice x.2 8 57)
    let op := decide (leAt x.2 0 2 = 1)
    let covered := if op then f.panels.filter (fun p => p.typ = 1 || p.typ = 4) else ctxPanels f (leAt x.2 2 1)
    let msg := shakeDigest (covered.flatMap sealedBytes)
    if op && !s.sail.locked then some { step := 6, status := sSailNoOpkey, offset := x.1 }
    else if !(if op then decide (key = keyBytes s.sail.opkey) else trusted.contains key) then
      some { step := 7, status := sSailUntrusted, offset := x.1 }
    else if !sealVerifies (if op then sealOp else sealPub) x.2 msg then some { step := 8, status := sSailBadSig, offset := x.1 }
    else none)

/-- The context is ABSENT or STOPPED. -/
def quiet (s : State) (c : Nat) : Bool := decide ((s.ctx c).st = .absent) || decide ((s.ctx c).st = .stopped)

/-- Steps 9 and 10. -/
def busyFail (s : State) (f : PlanForm) : Option SailFail :=
  let named := maskCtxs (f.mask ||| f.remove)
  let nine := (if f.operator then upTo 16 else named).find? (fun c => !s.quiet c)
  let ten := named.find? (fun c => s.entries.any (fun ie => ie.2.st ≠ .free && ie.2.ctx.toNat = c))
  (nine.map (fun c => ({ step := 9, status := sNotStopped, offset := ctxOffset f c } : SailFail))).or
    (ten.map (fun c => { step := 10, status := sSailCtxSeq, offset := ctxOffset f c }))

/-- The DEVICE panel of a plan, or the one in force. -/
def deviceAfter (s : State) (f : PlanForm) : Option DevicePanel :=
  if f.operator then (f.panels.find? (fun p => p.typ = 1)).map (fun p => deviceOf p.body) else s.sail.device

/-- The sections that a plan carries. -/
def planSections (f : PlanForm) : List (Nat × Section) :=
  (maskCtxs f.mask).map (fun c =>
    (c, sectionOf f c (((f.seals.find? (fun x => leAt x.2 0 2 = 2 && leAt x.2 2 1 = c)).map (·.2)).getD [])))

/-- Steps 4 to 14 on the bytes of a plan; on a wake steps 9 and 10 do not apply (R158). -/
def validate (s : State) (b : List Byte) (len : Nat) (wake : Bool) : Except SailFail PlanForm :=
  if !headerOk b len (s.sail.inForce && !wake) then .error { step := 4, status := sSailBadHeader }
  else
    match parsePlan b len with
    | .error o => .error { step := 5, status := sSailBadFrame, offset := o }
    | .ok f =>
      let dev := s.deviceAfter f
      let secs := planSections f
      let rank := (dev.map (·.jobRank)).getD 0
      let fail : Option SailFail :=
        (s.sealFail f ((dev.map (·.trusted)).getD [])).or
        ((if wake then none else s.busyFail f).or
        ((fieldFail f sSailBadField).or
        ((secs.findSome? (fun x => (ctxCross f x.2 rank x.1).map (fun o =>
          ({ step := 12, status := sSailBadXref, detail := detailOf o.2, offset := o.1 } : SailFail)))).or
        ((secs.findSome? (fun x => (programFail x.2).map (fun o =>
          ({ step := 13
             status := sSailBadProgram
             detail := detailOf (8 + 16 * o.2)
             offset := ((f.panels.find? (fun p => p.typ = 5 && p.ctx = x.1)).map (·.off)).getD 0
             prog := some o } : SailFail)))).or
        (s.resourceFail f (s.afterCommit f secs))))))
      match fail with
      | some e => .error e
      | none => .ok f

/-! Commit (R157). -/

/-- A released array: out of its slot, its work ended, and DISCARDed; one that is ACTIVE leaves at the next boundary (R47, R157). -/
def discardArr (s : State) (m p : Nat) : State :=
  let s := (s.endWrite m p).modAtrim m p (fun x => { x with
    swap := none
    swapRetire := false
    swapPlan := false
    atLimit := false
    colTodo := [] })
  s.modArr m p (fun a => { a with
    st := if a.st = .ready ∨ a.st = .writing then .blank else a.st
    slot := none
    fw := none
    leaving := decide (a.st = .active) })

/-- A WLOAD in progress on a context ends with a status (R198, R205). -/
def endWload (s : State) (c : Nat) (st : Byte) : State :=
  if (s.ctx c).wload.isNone then s
  else
    let s := { s with posts := s.posts.filter (fun p => p.ctx ≠ c) }
    (s.modCtx c (fun x => { x with wload := none, busy := false, phase := 0, status := st })).cause gCtx

/-- Order 2: a context releases what it holds, and becomes ABSENT. Registers that its section does not give stay. -/
def releaseCtx (s : State) (c : Nat) : State :=
  if (s.ctx c).st = .absent then s
  else
    let s := (s.rplAbortCtx c).endWload c sWloadAborted
    let s := match s.kv.pfxJob with
      | some j => if j.ctx = c then s.pfxFinish sCtxAbsent else s
      | none => s
    let s := (upTo 4).foldl (fun s m =>
      (s.arrsOf m (fun a => decide (a.slot.map (·.ctx) = some c))).foldl (fun s p => s.discardArr m p) s) s
    let s := (tabKeys s.prefixes (fun k _ => decide (k / 4096 = c))).foldl (fun s k => (s.pfxFree c (k % 4096)).setPfx c (k % 4096) {}) s
    let x := s.ctx c
    s.setCtx c
      { wbase := x.wbase
        postRej := x.postRej
        status := x.status
        wbStatus := x.wbStatus
        cmdLast := x.cmdLast
        loadTmo := x.loadTmo
        shards := x.shards
        bad := x.bad
        missing := x.missing }

/-- Order 4: a context is placed. -/
def placeCtx (s : State) (sec : Section) (bases : List Nat) (gen : W32) (c : Nat) : State :=
  let region := (upTo 8).map (fun k => s.placeRegion k (sec.panel.weightMib.getD k 0))
  s.modCtx c (fun x => { x with st := .stopped, sect := some sec, plyBase := bases, region := region, gen := gen })

/-- The reload contexts that the rotation holds (R159): all with a claim, when the claims exceed some mast's pool. -/
def rotationSet (s : State) : List Nat :=
  let sec (c : Nat) : Option Section := (s.ctx c).sect
  let above := (upTo 4).any (fun m => decide (s.assignable m < sumOf (claims sec false m) + sumOf (claims sec true m)))
  if above then (upTo 16).filter (fun c => (upTo 4).any (fun m => (claims sec true m).any (fun x => x.1 = c && x.2 ≠ 0))) else []

/-- The holder that a commit names for a rotation without one, so that there is exactly one at any time: its lowest-numbered context
with a runnable sequence, else its lowest-numbered one (R159; DESIGN CHOICE, log entry 122). -/
def nameHolder (s : State) : State :=
  let l := s.ring
  if l.any (fun c => (s.ctx c).holder) then s
  else match (l.find? s.hasWork).or l.head? with
    | some c => s.makeHolder c
    | none => s

/-- R159: a commit recomputes the rotation. A context that enters it starts as not holder, and gives its arrays to the pool at the first
boundary at which none of its batches is in flight; one that leaves it takes its own. -/
def recomputeRotation (s : State) : State :=
  let l := s.rotationSet
  let s := (upTo 16).foldl (fun (s : State) c =>
    let x := s.ctx c
    if l.contains c && !x.sliced then
      s.modCtx c (fun x => { x with sliced := true, holder := false, sliceOn := false, sliceOver := false })
    else if x.sliced && !l.contains c then
      s.modCtx c (fun x => { x with sliced := false, holder := false, sliceOn := false, sliceOver := false, given := x.holder && x.given })
    else s) s
  s.nameHolder

/-- Commit (Table 7.9) of a plan that passed validation. -/
def commitPlan (s : State) (f : PlanForm) (b : List Byte) : State :=
  let secs := planSections f
  let sec := s.afterCommit f secs
  let bases (m c : Nat) : Nat := match s.placeRanges f sec m with
    | .ok l => ((l.find? (fun x => x.1 = c)).map (·.2)).getD 0x7FF
    | .error _ => 0x7FF
  let baseOf (c : Nat) : List Nat := (upTo 4).map (fun m => bases m c)
  let s := (maskCtxs (f.mask ||| f.remove)).foldl releaseCtx s
  let s :=
    if f.operator then
      let op := f.panels.filter (fun p => p.typ = 1 || p.typ = 4)
      { s with
        sail := { s.sail with
          device := (op.find? (fun p => p.typ = 1)).map (fun p => deviceOf p.body)
          routes := ((op.find? (fun p => p.typ = 4)).map (fun p => routesOf p.body)).getD []
          opRaw := op.flatMap (·.bytes)
          opSeal := ((f.seals.head?).map (·.2)).getD [] }
        rig := { s.rig with txFlow := [] } }
    else s
  let gen := s.sail.gen + 1
  let s := (maskCtxs f.mask).foldl (fun (s : State) c =>
    match sec c with
    | some x => s.placeCtx x (baseOf c) gen c
    | none => s) s
  let s := s.recomputeRotation
  let s := (upTo 16).foldl (fun (s : State) c =>
    if (s.ctx c).sect.isNone || (s.ctx c).given || (s.ctx c).sliced then s else s.assignSlots c) s
  { s with sail := { s.sail with
      gen := gen
      inForce := true
      tag := BitVec.ofNat 64 f.buildTag
      digest := shakeDigest b } }

/-! The commands. -/

/-- A LOAD completes; SAIL_ERR tells what failed. -/
def sailFinish (s : State) (st : Byte) (err : Option SailFail) : State :=
  let e := err.getD { step := 0, status := sOK }
  ({ s with sail := { s.sail with
      busy := false
      step := 0
      job := none
      status := st
      errStep := BitVec.ofNat 4 e.step
      errDetail := BitVec.ofNat 8 e.detail
      errOffset := BitVec.ofNat 32 e.offset } }).cause gSail

/-- SAIL_LOAD: steps 1 and 2 (Table 7.8). `named` lists the contexts that the plan in host memory names (R160). -/
def sailLoad (s : State) (named : List Nat) : State :=
  if s.sail.busy then
    ({ s with sail := { s.sail with status := sSailBusy, errStep := 1, errDetail := 0, errOffset := 0 } }).cause gSail
  else
    let n := s.sail.len.toNat
    if s.sail.src.toNat % 4096 ≠ 0 ∨ n < 256 ∨ 16777216 < n then s.sailFinish sBadConfig (some { step := 2, status := sBadConfig })
    else { s with sail := { s.sail with busy := true, step := 3, job := some { src := s.sail.src, len := n, ctxs := named } } }

/-- SAIL_PLAN_READ: the plan as read, or a link error; steps 3 to 15. -/
def sailPlanRead (s : State) (bytes : Option (List Byte)) : State :=
  match s.sail.job with
  | none => s
  | some j =>
    match bytes with
    | none => s.sailFinish sSailAborted (some { step := 3, status := sSailAborted })
    | some l =>
      let b := slice l 0 j.len
      match s.validate b j.len false with
      | .error e =>
        let s := match e.prog with
          | some (c, o) => { s with sail := { s.sail with progErr := BitVec.ofNat 32 (c <<< 28 ||| o) } }
          | none => if e.step = 14 then { s with sail := { s.sail with progErr := 0 } } else s
        s.sailFinish e.status (some e)
      | .ok f => (({ s with sail := { s.sail with progErr := 0 } }).commitPlan f b).sailFinish sOK none

/-- SAIL_ABORT (Tables 7.10, 7.12): the LOAD in progress ends; ABORT with none completes with OK. -/
def sailAbort (s : State) : State :=
  if s.sail.busy then s.sailFinish sSailAborted (some { step := s.sail.step.toNat, status := sSailAborted })
  else ({ s with sail := { s.sail with status := sOK } }).cause gSail

/-- A reserved SAIL_CMD code (Table 7.12). -/
def sailBadCommand (s : State) : State := ({ s with sail := { s.sail with status := sBadCommand } }).cause gSail

/-- SAIL_OPKEY_WRITE (R144): a word of the key digest; word 3 locks all four. -/
def opkeyWrite (s : State) (i : Nat) (v : W64) : State :=
  if s.sail.locked then s
  else { s with sail := { s.sail with opkey := s.sail.opkey.set i v, locked := decide (i = 3) } }

/-! FURL (R158). -/

/-- Panels as sealed, with CTX set again. -/
def recast (c : Nat) : Nat → List Byte → List Byte
  | 0, l => l
  | n + 1, l =>
    let k := leAt l 4 4
    if l.length < 16 ∨ k < 16 then l
    else l.take 8 ++ [BitVec.ofNat 8 c] ++ (l.drop 9).take (k - 9) ++ recast c n (l.drop k)

/-- The plan in force as one plan with OPERATOR set and every context present. -/
def retainedPlan (s : State) : List Byte :=
  let cs := (upTo 16).filter (fun c => (s.ctx c).sect.isSome)
  let panels := s.sail.opRaw ++ cs.flatMap (fun c => ((s.ctx c).sect.map (fun x => recast c x.raw.length x.raw)).getD [])
  let seals := s.sail.opSeal ++ cs.flatMap (fun c =>
    ((s.ctx c).sect.map (fun x => x.sealBytes.take 2 ++ [BitVec.ofNat 8 c] ++ x.sealBytes.drop 3)).getD [])
  let np := 2 + (cs.map (fun c => 2 + ((s.ctx c).sect.map (·.plies.length)).getD 0)).foldl (· + ·) 0
  [0x4B, 0x57, 0x53, 0x50] ++ leBytes 2 1 ++ leBytes 2 0 ++ leBytes 4 (256 + panels.length + seals.length) ++ leBytes 2 np
    ++ leBytes 2 (1 + cs.length) ++ leBytes 2 (cs.foldl (fun a c => a ||| 2 ^ c) 0) ++ leBytes 2 0 ++ [1] ++ List.replicate 3 0
    ++ leBytes 8 s.sail.tag.toNat ++ List.replicate 224 0 ++ panels ++ seals

end State

end Sys2Proof.Machine
end

