-- ==== Sys2Proof/Machine/Wload.lean ====
section
/-! DEFINITION. Weight images (chapter 9): the manifest and its checks, shards, the building of derived images, and the states of
a context. -/

namespace Sys2Proof.Machine

/-! The manifest (R190). -/

/-- Table 9.2. -/
def tensorOfEntry (e : List Byte) : Tensor :=
  { kind := leAt e 0 1
    fmt := leAt e 1 1
    stack := leAt e 2 1
    s := leAt e 4 2
    rows := leAt e 8 4
    cols := leAt e 12 4
    offset := leAt e 16 8
    size := leAt e 24 8 }

/-- The fields of a tensor entry hold values of Table 9.2. -/
def tensorForm (e : List Byte) : Bool :=
  let t := tensorOfEntry e
  let ply := decide (t.kind = 1)
  decide (1 ≤ t.kind) && decide (t.kind ≤ 4) && (if ply then decide (t.fmt = 2) || decide (t.fmt = 4) else decide (t.fmt < 5))
    && decide (t.stack < 8) && zeroAt e 3 1 && zeroAt e 6 2
    && (if ply then decide (1 ≤ t.s) && decide (t.s ≤ 256) && decide (t.rows = 0) && decide (t.cols = 0) else decide (t.s = 0))
    && (t.kind ≠ 3 || decide (t.rows = 1)) && decide (t.offset % 4096 = 0)
    && decide (t.size = (if ply then 16384 + t.s * 1048576 else ceilDiv (t.rows * t.cols * fmtBytes t.fmt) 4096 * 4096))

/-- Table 9.3. -/
def shardOfEntry (e : List Byte) : Shard :=
  { stack := leAt e 0 1
    length := leAt e 4 4
    offset := leAt e 8 8
    digest := slice e 16 32 }

def shardForm (e : List Byte) : Bool :=
  let x := shardOfEntry e
  decide (x.stack < 8) && zeroAt e 1 3 && decide (x.length % 4096 = 0) && decide (4096 ≤ x.length) && decide (x.length ≤ 268435456)
    && decide (x.offset % 4096 = 0)

/-- The entries of a manifest, and its seal. -/
def tensorEntry (b : List Byte) (i : Nat) : List Byte := slice b (128 + 32 * i) 32
def shardEntry (b : List Byte) (i : Nat) : List Byte := slice b (128 + 32 * leAt b 12 4 + 48 * i) 48
def manifestLength (b : List Byte) : Nat := 128 + 32 * leAt b 12 4 + 48 * leAt b 16 4 + 192

/-- Tables 9.1 to 9.3, and the seal's form (R190). -/
def manifestForm (b : List Byte) : Bool :=
  let n := leAt b 8 4
  decide (slice b 0 4 = [0x4B, 0x57, 0x57, 0x49]) && decide (leAt b 4 2 = 1) && zeroAt b 6 2 && decide (400 ≤ n) && decide (n ≤ 4194304)
    && decide (n ≤ b.length) && decide (1 ≤ leAt b 12 4) && decide (leAt b 12 4 ≤ 65536) && decide (1 ≤ leAt b 16 4)
    && decide (leAt b 16 4 ≤ 4096) && decide (n = manifestLength b) && zeroAt b 20 4 && zeroAt b 64 64
    && (upTo (leAt b 12 4)).all (fun i => tensorForm (tensorEntry b i)) && (upTo (leAt b 16 4)).all (fun i => shardForm (shardEntry b i))
    && sealForm (slice b (n - 192) 192) (3, 0xFF)

/-- A manifest as a record. -/
def manifestOfBytes (b : List Byte) : Manifest :=
  { tensors := (upTo (leAt b 12 4)).map (fun i => tensorOfEntry (tensorEntry b i))
    shards := (upTo (leAt b 16 4)).map (fun i => shardOfEntry (shardEntry b i))
    derivedOff := (upTo 8).map (fun k => leAt b (24 + 4 * k) 4)
    digest := shakeDigest (slice b 0 (leAt b 8 4)) }

/-- The context string of a manifest's seal (R191). -/
def sealWimg : List Byte := [0x4B, 0x57, 0x46, 0x50, 0x2D, 0x57, 0x49, 0x4D, 0x47]

/-- Intervals do not overlap pairwise. -/
def disjoint : List (Nat × Nat) → Bool
  | [] => true
  | a :: t => t.all (fun b => decide (a.2 ≤ b.1) || decide (b.2 ≤ a.1)) && disjoint t

/-- Every byte of [a, b) lies in some interval, in at most `n` hops. -/
def coveredBy (l : List (Nat × Nat)) (b : Nat) : Nat → Nat → Bool
  | 0, a => decide (b ≤ a)
  | n + 1, a =>
    if b ≤ a then true
    else match l.find? (fun x => decide (x.1 ≤ a) && decide (a < x.2)) with
      | some x => coveredBy l b n x.2
      | none => false

/-- Placement on one stack (R192): `size` is the region's bytes, `n` the derived images of the stack. -/
def stackPlaced (m : Manifest) (k size n : Nat) : Bool :=
  let ts := (m.tensors.filter (fun t => t.stack = k)).map (fun t => (t.offset, t.offset + t.size))
  let ss := (m.shards.filter (fun x => x.stack = k)).map (fun x => (x.offset, x.offset + x.length))
  let staging := if ss.isEmpty then [] else [(size - 268435456, size)]
  let d := m.derivedOff.getD k 0 * 4096
  let derived := if n = 0 then [] else [(d, d + n * derivedBytes)]
  (ss.isEmpty || decide (268435456 ≤ size)) && (ts ++ ss ++ derived).all (fun x => decide (x.2 ≤ size))
    && disjoint ((ts.filter (fun x => x.1 < x.2)) ++ derived ++ staging) && disjoint ss
    && ts.all (fun x => coveredBy ss x.2 (ss.length + 1) x.1)

/-- Table 9.7: the tensor that an operation names has the kind and shape it needs. -/
def tensorFits (m : Manifest) (mast : Nat) (i kind : Nat) (f : Tensor → Bool) : Bool :=
  match m.tensors[i]? with
  | none => false
  | some t => decide (t.kind = kind) && decide (t.stack / 2 = mast) && f t

/-- The ATTENDs that use the matrices of the EXPAND at a place of its stream: those before the next EXPAND. -/
def attendsOf (st : List (Nat × Nat)) (pos : Nat) : List Nat :=
  (((st.drop (pos + 1)).takeWhile (fun y => opCode y.2 ≠ cExpand)).map (·.2)).filter (fun o => opCode o = cAttend)

/-- R274: DH = WIDTH / HEADS is whole, even and at most 256. -/
def headsFit (o : Nat) : Bool :=
  let h := opB15 o
  decide (opWidth o % h = 0) && decide (opWidth o / h % 2 = 0) && decide (opWidth o / h ≤ 256)

/-- References of one operation, in each iteration (Table 9.6; R275 for EXPAND). -/
def opRefs (m : Manifest) (t : Section) (x : PlacedOp) : Bool :=
  let o := x.op
  let c := x.code
  let w := opWidth o
  let iters := if inBody x.stream x.pos then groupLayers t.panel (opGroup o) else 1
  (upTo iters).all (fun i =>
    let n := opA10 o + tensorAdd x.stream x.pos i o
    let fits (j kind : Nat) (f : Tensor → Bool) : Bool := tensorFits m (opMast o) j kind f
    if c = cGather then fits n 2 (fun z => z.rows = t.panel.vocab && z.cols = w && z.fmt = opFmtD o)
    else if c = cNorm then fits n 3 (fun z => z.cols = w) && (opB12 o ≠ 1 || fits (n + 1) 3 (fun z => z.cols = w))
    else if c = cScale then opA10 o = 0xFFFF || fits n 3 (fun z => z.cols = w)
    else if c = cRope then fits n 3 (fun z => z.cols = opB14 o && z.fmt = 0)
    else if c = cExpand then
      fits n 4 (fun z => z.fmt = 1 && z.rows = 448 && z.size ≤ 16777216 && (attendsOf x.stream x.pos).all (fun y => decide (z.cols = 2 * opWidth y) && headsFit y))
    else true)

/-- References of the PLY panels. -/
def plyRefs (m : Manifest) (t : Section) : Bool :=
  t.plies.all (fun p => tensorFits m p.mast p.tensor 1 (fun z => z.s = p.slots.length))

namespace State

/-! The state of a WLOAD. -/

/-- A context command completes with a status and changes nothing else. -/
def ctxRefuse (s : State) (c : Nat) (st : Byte) : State := (s.modCtx c (fun x => { x with status := st })).cause gCtx

def ctxAccept (s : State) (c : Nat) (code : BitVec 4) : State := s.modCtx c (fun x => { x with cmdLast := code })

/-- The refusals of START and WLOAD that come before the state's (Table 9.5). -/
def ctxRefusal (s : State) (c : Nat) : Option Byte :=
  if (s.ctx c).st = .absent then some sCtxAbsent
  else if (s.ctx c).wload.isSome then some sWloadBusy
  else if s.loadNames c then some sSailBusy
  else none

/-- The bands of a context's plies are open again (R321). -/
def reopenCtx (s : State) (c : Nat) : State :=
  let ks := (s.pliesOf c).map (fun p => p.mast * 1024 + s.plyIndex c p)
  s.reopenBands (fun k => ks.contains k)

/-- WLOAD (R201): accepted in STOPPED; BOUND clears, and the manifest is to be read. -/
def wload (s : State) (c : Nat) : State :=
  let s := s.ctxAccept c 1
  match s.ctxRefusal c with
  | some st => s.ctxRefuse c st
  | none =>
    if (s.ctx c).st ≠ .stopped then s.ctxRefuse c sNotStopped
    else
      let s := (s.rplAbortCtx c).reopenCtx c
      let a := (s.ctx c).wbase
      let s := s.modCtx c (fun x => { x with
        bound := false
        busy := true
        phase := 1
        wload := some { addr := a, start := s.now, manifest := none }
        manifest := none
        wdigest := []
        digests := []
        missing := []
        shards := 0
        bad := 0
        held0 := none
        held1 := none
        half := false })
      if a = 0 ∨ a.toNat % 4096 ≠ 0 then s.endWload c sBadConfig else s

/-- The first failing check of phase MANIFEST on the bytes read, the context's WLOAD holding the manifest (Table 9.6). -/
def manifestFail (s : State) (c : Nat) (b : List Byte) (m : Manifest) : Option Byte :=
  let n := leAt b 8 4
  let sealB := slice b (n - 192) 192
  let trusted := ((s.sail.device.map (·.trusted)).getD [])
  match (s.ctx c).sect with
  | none => some sWimgBadTensor
  | some t =>
    if m.digest ≠ t.panel.weightDigest then some sWimgDigest
    else if !trusted.contains (shakeDigest (slice sealB 8 57)) then some sWimgUntrusted
    else if !sealVerifies sealWimg sealB (shakeDigest (slice b 0 (n - 192))) then some sWimgBadSig
    else if !(upTo 8).all (fun k => stackPlaced m k (t.panel.weightMib.getD k 0 * 1048576) (s.derivedList c k).length) then some sWimgBadTensor
    else if !(plyRefs m t && (placedOps t.prog).all (opRefs m t)) then some sWimgBadTensor
    else none

/-- WLOAD_MANIFEST_READ: the bytes read from the latched address, or a link error. -/
def wloadManifest (s : State) (c : Nat) (bytes : Option (List Byte)) : State :=
  match (s.ctx c).wload with
  | none => s
  | some w =>
    if (s.ctx c).phase ≠ 1 then s
    else
      let b := bytes.getD []
      if !manifestForm b then s.endWload c sWimgBadManifest
      else
        let m := manifestOfBytes b
        let s := s.modCtx c (fun x => { x with wload := some { w with manifest := some m } })
        match s.manifestFail c b m with
        | some st => s.endWload c st
        | none => s.modCtx c (fun x => { x with
            phase := 2
            shards := BitVec.ofNat 13 m.shards.length
            missing := upTo m.shards.length })

/-! Shards (R202). -/

/-- The shard that a post names. -/
def postShard (s : State) (p : Post) : Option Shard := (s.manifestOf p.ctx).bind (fun m => m.shards[p.idx]?)

/-- The post whose fetch runs on a stack: the first one for it. -/
def running (s : State) (k : Nat) : Option Post := s.posts.find? (fun p => (s.postShard p).map (·.stack) = some k)

/-- Posts that wait device-wide. -/
def postsWaiting (s : State) : Nat := s.posts.length - ((upTo 8).filter (fun k => (s.running k).isSome)).length

/-- CTX_SHARD_POST. -/
def shardPost (s : State) (c : Nat) (v : W64) : State :=
  let x := s.ctx c
  let i := bitsOf v.toNat 0 12
  let reject (s : State) : State := s.modCtx c (fun x => { x with postRej := true })
  if x.wload.isNone ∨ x.phase ≠ 2 ∨ x.shards.toNat ≤ i then reject s
  else if !x.missing.contains i ∨ (upTo 8).any (fun k => ((s.running k).map (fun p => (p.ctx, p.idx))) = some (c, i)) then s
  else
    let p : Post := { ctx := c, idx := i, addr := v &&& ~~~0xFFF }
    let s' : State := { s with posts := s.posts ++ [p] }
    if 64 < s'.postsWaiting then reject s else s'

/-- Every derived image of the context has been built. -/
def allBuilt (s : State) (c : Nat) : Bool :=
  (upTo 4).all (fun m => (s.usesOn c m).all (fun u => (s.ctx c).digests.any (fun d => d.1 = m && d.2.1 = u.slot)))

/-- BUILD becomes WRITE once every image is built. -/
def buildPhase (s : State) (c : Nat) : State :=
  if (s.ctx c).phase = 3 && s.allBuilt c then s.modCtx c (fun x => { x with phase := 4 }) else s

/-- A frame lies in a chunk of `n` bytes of a region (R247). -/
def regionHeld (s : State) (c k o n : Nat) : Bool := (s.regionPieces c k o n).any (fun x => s.chunkHeld k x.1 x.2)

/-- SHARD_FETCH_COMPLETE on stack k: the shard's bytes as they arrived, or a link error. A shard that arrived waits in the staging
buffer while a frame lies in a chunk that it takes (R247). -/
def shardFetched (s : State) (k : Nat) (bytes : Option (List Byte)) : State :=
  match s.running k with
  | none => s
  | some p =>
    match s.postShard p with
    | none => s
    | some x =>
      if bytes.isSome && s.regionHeld p.ctx k x.offset x.length then s else
      let s : State := { s with posts := s.posts.erase p }
      let b := slice (bytes.getD []) 0 x.length
      if bytes.isSome && decide (shakeDigest b = x.digest) then
        let s := s.regionWrite p.ctx k x.offset b
        let s := s.modCtx p.ctx (fun y => { y with missing := y.missing.filter (· ≠ p.idx) })
        if (s.ctx p.ctx).missing.isEmpty then
          let s : State := { s with posts := s.posts.filter (fun q => q.ctx ≠ p.ctx) }
          (s.modCtx p.ctx (fun y => { y with phase := 3 })).buildPhase p.ctx
        else s
      else s.modCtx p.ctx (fun y => { y with bad := satAdd y.bad 1 })

/-- WLOAD_TIMEOUT (R203). -/
def wloadTimeout (s : State) (c : Nat) : State :=
  let x := s.ctx c
  match x.wload with
  | none => s
  | some w =>
    if x.phase = 2 ∧ x.loadTmo ≠ 0 ∧ w.start + 100000 * x.loadTmo.toNat ≤ s.now ∧ !x.missing.isEmpty then s.endWload c sLoadMissing else s

/-! BUILD and WRITE (R196, R197, R204). -/

/-- An image built for a slot that an array serves is written to it in native mode (phase 4); the write to an OFF array waits in the
queue, and wakes its group (Tables 2.11 and 18.3). -/
def writeSlot (s : State) (c m x : Nat) (l : BitVec 2) : State :=
  if s.isReload c then s
  else
    match s.slotArr m c x with
    | some p => s.firmwareWrite m p c x l
    | none => s

/-- The image of a slot that overflows at its group's coarser map: a finer donor takes the slot and its array is retired, or
the slot's array is not written and AT_LIMIT is set (R137). An image that overflows at a donor's map 00b fails the bind (R196). -/
def overflowSlot (s : State) (c m x : Nat) (l : BitVec 2) (d : Derived) : State :=
  let s := s.buildDerived c m x l d
  match s.slotArr m c x with
  | none => s
  | some p =>
    match s.finerDonor m p l with
    | none => s.atLimit m p
    | some y =>
      let fine := s.targetMap m y
      match s.deriveSlot c m x fine with
      | none => s
      | some (d', _) =>
        if d'.excess then (if fine = 0 then s.endWload c sWimgPlan else s.atLimit m p)
        else
          let was := s.isStandby m y
          let s := s.retire m p
          let s := s.modArr m y (fun a => { a with slot := some ⟨c, x⟩ })
          let s := if was then s.nextStandby m (groupOf y) else s
          (s.buildDerived c m x fine d').writeSlot c m x fine

/-- In native mode the slot's array cannot take a write yet: it is ACTIVE until the next boundary (R47), or a write or a LOAD of
its region still runs, or is to run. -/
def slotHeld (s : State) (c m x : Nat) : Bool :=
  !s.isReload c && (match s.slotArr m c x with
    | some p => decide ((s.arr m p).st = .active) || (s.arr m p).write.isSome || (s.arr m p).fw.isSome || (s.spl m p).busy
    | none => false)

/-- DERIVED_IMAGE_BUILT: the derived image of context-relative slot x on mast m. -/
def derivedBuilt (s : State) (c m x : Nat) : State :=
  if (s.ctx c).phase ≠ 3 ∨ (s.ctx c).wload.isNone ∨ (s.ctx c).digests.any (fun d => d.1 = m && d.2.1 = x) ∨ s.slotHeld c m x then s
  else
    let l : BitVec 2 := match s.slotArr m c x with | some p => s.targetMap m p | none => 0
    match s.useOf c m x, s.deriveSlot c m x l with
    | some u, some (d, bad) =>
      match s.tensorOf c u.ply.tensor with
      | none => s
      | some t =>
        let pt : PlyTensor := ⟨t.fmt, s.tensorBytes c t⟩
        if bad ∨ (d.excess ∧ l = 0) then s.endWload c sWimgPlan
        else if fuseFails pt u.ply.scaleEn u.ply.biasEn then s.endWload c sWimgFuse
        else
          let i := s.plyIndex c u.ply
          let s := ((s.setOutlier m i (outlierTable pt u.ply.dch)).healWords true m i).setFuse m i (fuseEntry pt)
          let s := if d.excess then s.overflowSlot c m x l d else (s.buildDerived c m x l d).writeSlot c m x l
          s.buildPhase c
    | _, _ => s

/-- WLOAD_COMPLETE: the last writes have finished; the image is bound. -/
def wloadComplete (s : State) (c : Nat) : State :=
  match (s.ctx c).wload with
  | none => s
  | some w =>
    let busy := (upTo 4).any (fun m => (s.arrsOf m (fun a => decide (a.slot.map (·.ctx) = some c))).any (fun p =>
      (s.arr m p).write.isSome || (s.arr m p).fw.isSome || (s.spl m p).busy))
    if (s.ctx c).phase ≠ 4 ∨ busy then s
    else
      match w.manifest with
      | none => s
      | some m =>
        (s.modCtx c (fun x => { x with
          bound := true
          wdigest := m.digest
          manifest := some m
          wload := none
          busy := false
          phase := 0
          status := sOK })).cause gCtx

/-! The states of a context (R198 to R200). -/

/-- START. -/
def start (s : State) (c : Nat) : State :=
  let s := s.ctxAccept c 2
  match s.ctxRefusal c with
  | some st => s.ctxRefuse c st
  | none =>
    match (s.ctx c).st with
    | .stopped =>
      if (s.ctx c).bound then (s.modCtx c (fun x => { x with st := .running })).ctxRefuse c sOK else s.ctxRefuse c sNotBound
    | .running => s.ctxRefuse c sOK
    | _ => s.ctxRefuse c sNotStopped

/-- STOP. -/
def stop (s : State) (c : Nat) : State :=
  let s := s.ctxAccept c 3
  if (s.ctx c).st = .absent then s.ctxRefuse c sCtxAbsent else (s.stopCtx c).ctxRefuse c sOK

/-- WABORT. -/
def wabort (s : State) (c : Nat) : State :=
  let s := s.ctxAccept c 4
  if (s.ctx c).st = .absent then s.ctxRefuse c sCtxAbsent else (s.endWload c sWloadAborted).ctxRefuse c sOK

/-- A reserved CTX_CMD code completes with BAD_COMMAND (R468, Table 9.12). -/
def ctxBadCommand (s : State) (c : Nat) : State := s.ctxRefuse c sBadCommand

/-- A batch of the context is in flight, or waits to be re-formed after a halt (R200). -/
def inFlight (s : State) (c : Nat) : Bool :=
  s.batches.any (fun b => b.ctx = c && !b.swept) || s.rolled.any (fun b => b.ctx = c) || s.remoteWait.any (fun b => b.ctx = c)

/-- CTX_DRAIN_COMPLETE. -/
def drainComplete (s : State) (c : Nat) : State :=
  if (s.ctx c).st ≠ .draining ∨ s.inFlight c then s
  else s.modCtx c (fun x =>
    match x.heldWbase with
    | some a => { x with st := .stopped, wbase := a, heldWbase := none, wbStatus := sOK }
    | none => { x with st := .stopped })

/-- CTX_WBASE_WRITE (R199). -/
def wbaseWrite (s : State) (c : Nat) (v : W64) : State :=
  let a := v &&& ~~~0xFFF
  s.modCtx c (fun x =>
    match x.st with
    | .absent => { x with wbStatus := sCtxAbsent }
    | .stopped => { x with wbase := a, wbStatus := sOK }
    | .running => { x with wbStatus := sNotStopped }
    | .draining => { x with heldWbase := some a })

end State

end Sys2Proof.Machine
end

