-- ==== Sys2Proof/Machine/Link.lean ====
section
/-! DEFINITION. The host link, its interrupts, DOE and the bound stream, the mailboxes and cleats (chapter 17). -/

namespace Sys2Proof.Machine

/-! Mailboxes by Table 17.6. -/

/-- The host sends on a mailbox, or receives on it. -/
def hostSends (k : Nat) : Bool := decide (k < 7) || (decide (16 ≤ k) && decide (k < 20))
def hostReceives (k : Nat) : Bool := (decide (7 ≤ k) && decide (k < 16)) || (decide (20 ≤ k) && decide (k < 24))

/-- MBX_STAT.KIND. -/
def mbxKind (k : Nat) : Nat := if k < 7 then 0 else if k < 16 then 1 else if k < 20 then 2 else 3

/-- The vector of a mailbox whose receiver is the host (Table 17.4). -/
def mbxVector (k : Nat) : Nat := if k < 16 then k - 3 else k - 7

/-- The reply mailbox of a request mailbox. -/
def replyBox (k : Nat) : Nat := if k < 8 then k + 8 else k + 4

namespace State

/-- A BAR2 request that is not on the bound stream (R388): counted; a read returns all ones, `width` bits of them, 0 for a
write. -/
def bar2Reject (s : State) (width : Nat) : State :=
  let s : State := { s with link := { s.link with secRej := satAdd s.link.secRej 1 } }
  if width = 0 then s else s.emit (.completion false (2 ^ width - 1))

/-- A host access to mailbox k, refused where it lies in BAR2 and no stream is bound. -/
def throughBar (s : State) (k width : Nat) (f : State → State) : State :=
  if 16 ≤ k ∧ !s.link.bound then s.bar2Reject width else if 24 ≤ k then s else f s

/-- An access of the wrong side (R389). -/
def wrongSide (s : State) (k : Nat) : State := s.modMbx k (fun x => { x with wrRej := true })

/-- The sender's write of a notice register (R390): 0 for MBX_ADDR, 1 for MBX_LEN, 2 for MBX_SEQ. -/
def noticeField (s : State) (k i : Nat) (v : W64) : State :=
  if !hostSends k then s.wrongSide k
  else if (s.mbx k).full then s.modMbx k (fun x => { x with overrun := true })
  else s.modMbx k (fun x =>
    if i = 0 then { x with addr := v }
    else if i = 1 then { x with len := v.setWidth 32 &&& 0x8FFFFFFF }
    else { x with seq := v.setWidth 32 })

/-- DOORBELL of the host on mailbox k (R390). -/
def doorbell (s : State) (k : Nat) : State :=
  s.throughBar k 0 (fun s =>
    if !hostSends k then s.wrongSide k
    else if (s.mbx k).full then s.modMbx k (fun x => { x with overrun := true })
    else
      let s := s.modMbx k (fun x => { x with full := true })
      if k < 7 then (upTo 4).foldl (fun s m => s.raiseSpindles m 3) s else s)

/-- A notice of the Poari's side goes out: the message is written, the notice set, and the host's vector raised. -/
def putNoticeBox (s : State) (k : Nat) (r : Reply) : State :=
  let s := if r.bytes.isEmpty then s else s.emit (.hostWrite r.addr.toNat r.bytes)
  let s := s.modMbx k (fun x => { x with addr := r.addr, len := BitVec.ofNat 32 r.len, seq := r.seq, full := true })
  (s.emit (.notice k r.bytes)).raise (mbxVector k)

/-- The next held reply is written once the mailbox is free and requests to host memory may be sent (R391, R380). -/
def nextReply (s : State) (k : Nat) : State :=
  let x := s.mbx k
  if x.full ∨ s.bmStop then s
  else
    match x.held with
    | [] => s
    | r :: t => (s.setMbx k { x with held := t }).putNoticeBox k r

/-- A reply for mailbox k, after those that wait. -/
def reply (s : State) (k : Nat) (r : Reply) : State := (s.modMbx k (fun x => { x with held := x.held ++ [r] })).nextReply k

/-- ACK of the host on mailbox k (R390). -/
def ack (s : State) (k : Nat) : State :=
  s.throughBar k 0 (fun s =>
    if !hostReceives k then s.wrongSide k
    else if !(s.mbx k).full then s
    else (s.modMbx k (fun x => { x with full := false })).nextReply k)

/-- MBX_CLEAT_READ (R394): agent a reads the cleat of mailbox k; alias 0 never claims. Agents from 64 on reach it through their
internal port (R393). -/
def cleatRead (s : State) (k a : Nat) : State :=
  let f (s : State) : State :=
    let x := s.mbx k
    if a ≠ 0 ∧ x.owner = 0 then (s.setMbx k { x with owner := BitVec.ofNat 10 a }).emit (.completion true 0)
    else s.emit (.completion true x.owner.toNat)
  if 64 ≤ a then f s else s.throughBar k 32 f

/-- MBX_CLEAT_WRITE (R394). -/
def cleatWrite (s : State) (k : Nat) (v : W32) : State :=
  s.throughBar k 0 (fun s =>
    s.modMbx k (fun x => if fld v 0 10 = x.owner then { x with owner := 0 } else { x with cleatRej := true }))

/-- NOTIFY (R391, Table 12.6): an operator spindle's notice in mailbox 15, or MBX_FULL. While the link is not UP one notice is held,
and written once it is (Table 17.11, log entry 104). -/
def notify (s : State) (m i : Nat) : State :=
  if !s.mayEcall m i then s
  else if (s.mbx 15).full ∨ !(s.mbx 15).held.isEmpty then
    (s.modMbx 15 (fun x => { x with dropped := satAdd x.dropped 1 })).ecallReturn m i sMbxFull
  else
    let x := s.spindle m i
    let r : Reply :=
      { addr := BitVec.ofNat 64 (2 * m * 268435456) + reg x 10
        bytes := []
        len := (0x80000000 ||| ((reg x 11).setWidth 32 &&& 0x0FFFFFFF) : W32).toNat
        seq := (s.mbx 15).seq + 1 }
    (if s.link.st = 2 then s.putNoticeBox 15 r else s.modMbx 15 (fun y => { y with held := [r] })).ecallReturn m i sOK

/-! Services (R392). -/

/-- A byte of the CXL.mem window (R382). -/
def windowByte (s : State) (o : Nat) : Byte :=
  let k := o / 268435456
  let a := 3840 * 1048576 + o % 268435456
  if 2147483648 ≤ o then 0
  else if k % 2 = 0 then s.hbmByte k a
  else if k = 1 ∧ o % 268435456 < (max 1 (min 256 s.recorder.size.toNat)) * 1048576 then s.hbmByte 1 a
  else 0

/-- The message that mailbox k's notice names: in host memory, as the command gives it, or in the window. -/
def message (s : State) (k : Nat) (msg : Option (List Byte)) : Option (List Byte) :=
  let x := s.mbx k
  let n := x.len.toNat % 268435456
  if x.len.getLsbD 31 then some ((upTo n).map (fun i => s.windowByte (x.addr.toNat + i))) else msg.map (fun l => slice l 0 n)

/-- A request header is readable and well formed (R392). -/
def requestOk (b : List Byte) : Bool :=
  decide (32 ≤ b.length) && decide (leAt b 2 2 = 1) && decide (leAt b 4 4 = b.length) && zeroAt b 20 12

/-- Service codes that a mailbox serves (Tables 17.9 and 19.10), and in RECOVERY (R432). -/
def servedCodes (s : State) (k : Nat) : List Nat :=
  if k < 7 then [0x0001, 0x0002]
  else if s.clk.state = 2 then [0x0100, 0x0101, 0x0102]
  else [0x0001, 0x0100, 0x0101, 0x0102, 0x0103, 0x0110]

/-- A reply: the header of Table 17.8 and the body, cut at REPLY_MAX; none where REPLY_ADDR is unusable. -/
def makeReply (req : List Byte) (st : Byte) (body : List Byte) (seq : W32) : Reply :=
  let a := leAt req 8 8
  let n := leAt req 16 4
  if req.length < 32 ∨ a % 64 ≠ 0 ∨ n < 16 then { addr := 0, bytes := [], len := 0, seq := seq }
  else
    let full := 16 + body.length
    let head := leBytes 2 (leAt req 0 2) ++ [st, if n < full then 1 else 0] ++ leBytes 4 full ++ List.replicate 8 0
    { addr := BitVec.ofNat 64 a, bytes := (head ++ body).take n, len := min n full, seq := seq }

/-- A request in mailbox k is served by the service of a code: it is ACKed and answered. A request that is malformed or names
no service is answered so whichever service is asked; one that names another service is left to that one. -/
def serve (s : State) (code k : Nat) (msg : Option (List Byte)) (f : State → List Byte → State × Byte × List Byte) : State :=
  let x := s.mbx k
  if !hostSends k ∨ !x.full ∨ s.devFatal ∨ s.clk.state = 0 ∨ (s.clk.state = 2 ∧ k < 7) then s
  else
    let req := (s.message k msg).getD []
    let answer (s : State) (st : Byte) (body : List Byte) : State :=
      (s.modMbx k (fun y => { y with full := false })).reply (replyBox k) (makeReply req st body x.seq)
    let c := leAt req 0 2
    if !requestOk req then answer s sBadMessage []
    else if !(s.servedCodes k).contains c then answer s sBadService []
    else if c ≠ code then s
    else
      let r := f s req
      answer r.1 r.2.1 r.2.2

/-- MBX_LINK_STAT (Table 17.13). -/
def linkStatBits (s : State) : Nat :=
  at_ s.link.st 62 + bit_ s.bmStop 61 + at_ s.link.pairMap 48 + at_ s.link.lanes 32 + at_ s.link.resets 0

/-- RIG_PORT_STAT (Table 16.11). -/
def portStateCode : PortState → Nat
  | .off => 0
  | .down => 1
  | .training => 2
  | .up => 3
  | .disabled => 4

/-- INFO (Table 17.9): the order code in 16 bytes; the places of the rest in the 240 bytes are the model's (log entry 70). -/
def infoBody (s : State) : List Byte :=
  let code : List Byte := [0x4B, 0x57, 0x2D, 0x46, 0x50, 0x36, 0x34, 0x30, 0x2D, 0x41]
  let a := if s.clk.slot then s.clk.otherVer else s.clk.runVer
  let b := if s.clk.slot then s.clk.runVer else s.clk.otherVer
  slice (slice code 0 16 ++ leBytes 4 0x41 ++ leBytes 4 a.toNat ++ leBytes 4 b.toNat ++ leBytes 4 s.clk.slot.toNat ++ leBytes 8 s.clk.serial.toNat)
    0 240

def info (s : State) (k : Nat) (msg : Option (List Byte)) : State := s.serve 0x0001 k msg (fun s _ => (s, sOK, s.infoBody))

/-- RIG_PORT_STAT (Table 16.11). -/
def portStatBits (s : State) (p : Nat) : Nat :=
  let x := s.port p
  let n := (x.retrains.filter (fun t => decide (s.now < t + tick1s))).length
  (portStateCode x.st <<< 29) + at_ x.lanes 21 + (min 8 n <<< 17)

/-- LINK (Table 17.9). -/
def linkService (s : State) (k : Nat) (msg : Option (List Byte)) : State :=
  s.serve 0x0002 k msg (fun s _ =>
    (s, sOK, leBytes 8 s.linkStatBits ++ (upTo 32).flatMap (fun p => leBytes 4 (s.portStatBits p))))

/-! The CXL.mem window (Table 17.3). -/

/-- CXL_MEM_WINDOW_WRITE: bytes at a window offset land in the operator region of a mast, or in HEAD of its notice ring while the
partition is enabled; others are ignored. -/
def windowWrite (s : State) (o : Nat) (b : List Byte) : State :=
  let k := o / 268435456
  let r := o % 268435456
  if 8 ≤ k ∨ k % 2 = 1 ∨ 268435456 < r + b.length then s
  else
    let a := 3840 * 1048576 + r
    let head := noticeBase + 4
    if !(s.spn (k / 2)).opEn ∨ (head ≤ a ∧ a + b.length ≤ head + 4) then s.hbmWrite k a b else s

/-! Host link and resets (R376, R379, R380). -/

/-- Requests to host memory may be sent again: messages gathered and replies held go out. -/
def resumeHost (s : State) : State :=
  if s.bmStop then s
  else
    let s := (upTo 17).foldl (fun s v => s.sendGathered v) s
    (upTo 24).foldl (fun s k => s.nextReply k) s

/-- The operator's notice that waited for the link is written. -/
def heldNotice (s : State) : State :=
  match (s.mbx 15).held with
  | [] => s
  | r :: t => (s.modMbx 15 (fun x => { x with held := t })).putNoticeBox 15 r

/-- HOST_LINK_UP: all 16 lanes have locked; `pairs` is the order found. -/
def hostLinkUp (s : State) (pairs : Byte) : State :=
  if s.link.st ≠ 1 then s
  else ({ s with link := { s.link with st := 2, lanes := 0xFFFF, pairMap := pairs } }).heldNotice.resumeHost

/-- HOST_LINK_TRAIN_RETRY: 100 ms after training began it starts again. -/
def trainRetry (s : State) : State :=
  if s.link.st = 1 ∧ s.link.trainAt + 10000000 ≤ s.now then { s with link := { s.link with lanes := 0, trainAt := s.now } } else s

/-- BM_STOP: Bus Master Enable and D3hot as the host sets them; `slots` are the command slots that fetching then reads, `written` how
many completion writes the host takes (R380, R467). -/
def busMaster (s : State) (bme d3hot : Bool) (slots : List (Option (List Byte))) (written : Nat) : State :=
  let s : State := ({ s with link := { s.link with bme := bme, d3hot := d3hot } } : State).resumeHost
  if s.bmStop then s else s.goOn slots written

/-- The bound stream is unbound. -/
def unbind (s : State) : State := { s with link := { s.link with bound := false, memIde := false, ioIde := false } }

/-- What a CXL link reset does to the vectors: the MSI-X table and PBA take their reset values; holdoffs stay (Table 19.4). -/
def vecLinkReset (s : State) : State :=
  (upTo 17).foldl (fun s v => s.setVec v { holdoff := (s.vec v).holdoff, sent := (s.vec v).sent, sentAt := (s.vec v).sentAt }) s

/-- Mailboxes and cleats at a CXL link reset (R379, R395, Table 19.4): those of kinds 0 and 1 take their reset values, and host agents
lose their cleats. -/
def mbxLinkReset (s : State) : State :=
  (upTo 24).foldl (fun s k => s.modMbx k (fun x =>
    let x := if 1 ≤ x.owner.toNat ∧ x.owner.toNat ≤ 63 then { x with owner := 0 } else x
    if mbxKind k < 2 then { owner := x.owner } else x)) s

/-- CXL_LINK_RESET (R379, Table 19.4). -/
def cxlLinkReset (s : State) : State :=
  let s := (s.mbxLinkReset.vecLinkReset).unbind
  let s : State := { s with link := { s.link with
    st := if s.pwr.furled ∨ s.link.st = 0 then 0 else 1
    lanes := 0
    trainAt := s.now
    bme := false
    d3hot := false
    sessions := []
    memId := 0
    ioId := 0
    resets := s.link.resets + 1 } }
  let s := if s.sail.busy then s.sailFinish sSailAborted (some { step := s.sail.step.toNat, status := sSailAborted }) else s
  let s := (upTo 8).foldl (fun s k => s.shardFetched k none) s
  ({ s with seq := { s.seq with
      enable := false
      cqTail := 0
      cqHead := 0
      cplTail := 0
      cplHead := 0
      linkStop := true
      fetched := [] } } : State).pfxResume

/-- VECTOR_HOLDOFF_END (R384). -/
def holdoffEnd (s : State) (v : Nat) : State := s.sendGathered v

/-! DOE and the bound stream (R385 to R388). -/

/-- `n` bytes that this manual does not state: one draw of a free value for each eight of them (log entry 71). -/
def freeBytes (s : State) (n : Nat) : List Byte × State :=
  (upTo ((n + 7) / 8)).foldl (fun (r : List Byte × State) _ =>
    let (v, s) := r.2.free
    ((r.1 ++ leBytes 8 v).take n, s)) ([], s)

/-- The identity record in force: the first valid copy (R435). -/
def flashRead (s : State) (a : Nat) : Nat → List Byte
  | 0 => []
  | n + 1 => s.flashByte a :: flashRead s (a + 1) n

def idRecordOk (b : List Byte) : Bool :=
  let n := leAt b 8 4
  let ho := leAt b 12 4
  let hl := leAt b 16 4
  let co := leAt b 20 4
  let cl := leAt b 24 4
  decide (slice b 0 4 = [0x4B, 0x57, 0x49, 0x44]) && decide (leAt b 4 2 = 1) && decide (1024 ≤ n) && decide (n ≤ 65536)
    && decide (128 ≤ ho) && decide (ho + hl ≤ n - 4) && decide (128 ≤ co) && decide (co + cl ≤ n - 4)
    && (decide (ho + hl ≤ co) || decide (co + cl ≤ ho)) && decide (leAt b (n - 4) 4 = (crc32c (slice b 0 (n - 4))).toNat)

def idRecord (s : State) : Option (List Byte) :=
  let a := s.flashRead 0x20000 65536
  let b := s.flashRead 0x30000 65536
  if idRecordOk a then some a else if idRecordOk b then some b else none

/-- ID_PUB and the certificate chain. -/
def idPub (s : State) : List Byte := (s.idRecord.map (fun b => slice b 32 57)).getD []
def idChain (s : State) : List Byte := (s.idRecord.map (fun b => slice b (leAt b 20 4) (leAt b 24 4))).getD []

/-- Whether the security core answers requests: it runs from the ROM's start on, and configuration requests are served once
firmware runs or the ROM is in RECOVERY (R432, R433). -/
def doeServed (s : State) : Bool := decide (s.clk.state ≠ 0) && decide (s.link.st = 2)

/-- An answer that needs the identity key, or the error Unspecified (R435). -/
def withKey (s : State) (f : State → State) : State := if s.clk.idOk then f s else s.emit (.doe 1 [])

/-- A signature whose message another specification gives: 114 bytes (log entry 71). -/
def signed (s : State) (b : List Byte) : State :=
  let r := s.freeBytes 114
  r.2.emit (.doe 0 (b ++ r.1))

/-- DOE_REQUEST: the requests other than those with commands of their own. -/
def doeRequest (s : State) (q : DoeReq) : State :=
  if !s.doeServed then s
  else
    let sess (n : Nat) : Bool := s.link.sessions.any (fun x => x.id = n)
    match q with
    | .discovery => s.emit (.doe 0 [0, 1, 2])
    | .getVersion => s.emit (.doe 0 [0x12, 0x13])
    | .getCapabilities => s.emit (.doe 0 [])
    | .negotiateAlgorithms => s.emit (.doe 0 [])
    | .getDigests => s.emit (.doe 0 (sha3 s.idChain))
    | .getCertificate n => if n = 0 then s.emit (.doe 0 s.idChain) else s.emit (.doe 1 [])
    | .challenge => s.withKey (fun s => s.signed [])
    | .keyExchange n => s.withKey (fun s =>
        if sess n then s.emit (.doe 1 [])
        else ({ s with link := { s.link with sessions := ⟨n, false, none⟩ :: s.link.sessions } }).signed [])
    | .finish n r =>
      if !sess n then s.emit (.doe 1 [])
      else
        ({ s with link := { s.link with
            sessions := ⟨n, true, r.map sha3⟩ :: s.link.sessions.filter (fun x => x.id ≠ n) } }).emit (.doe 0 [])
    | .keyUpdate n => s.emit (.doe (if sess n then 0 else 1) [])
    | .heartbeat n => s.emit (.doe (if sess n then 0 else 1) [])
    | .other => s.emit (.doe 2 [])

/-- The 19 measurement blocks (Table 17.5), each its index and its 32 bytes. -/
def measurements (s : State) : List Byte :=
  let blk (i : Nat) (l : List Byte) : List Byte := BitVec.ofNat 8 i :: slice l 0 32
  blk 1 (if s.clk.state = 2 then [] else s.clk.imageDigest) ++ blk 2 s.sail.digest ++ blk 3 (keyBytes s.sail.opkey)
    ++ (upTo 16).flatMap (fun c => blk (4 + c) (if (s.ctx c).bound then (s.ctx c).wdigest else []))

/-- GET_MEASUREMENTS (R386). -/
def getMeasurements (s : State) : State :=
  if !s.doeServed then s else s.withKey (fun s => s.signed s.measurements)

/-- IDE_KM (R387): the keys of a pair of streams are programmed in a session; the pair may become bound. -/
def ideKm (s : State) (sess : Nat) (memId ioId : Byte) : State :=
  if !s.doeServed then s
  else
    match s.link.sessions.find? (fun x => x.id = sess && x.done) with
    | none => s.emit (.doe 1 [])
    | some x =>
      let set (b : Bool) (d : Option (List Byte)) : State :=
        ({ s with link := { s.link with
            bound := b
            boundSession := if b then sess else s.link.boundSession
            requester := d
            memIde := true
            ioIde := true
            memId := memId
            ioId := ioId } }).emit (.doe 0 [])
      if s.link.bound then
        if s.link.boundSession = sess then set true s.link.requester else s.emit (.doe 0 [])
      else
        match s.link.requester, x.requester with
        | none, some d => set true (some d)
        | some d, some e => if d = e then set true (some d) else set false (some d)
        | d, none => set false d

/-- IDE_INTEGRITY_FAILURE on the bound stream. -/
def ideFailure (s : State) : State := if s.link.bound then s.unbind else s

/-- END_SESSION. -/
def endSession (s : State) (n : Nat) : State :=
  if !s.doeServed then s
  else
    let s' : State := { s with link := { s.link with sessions := s.link.sessions.filter (fun x => x.id ≠ n) } }
    let s' := if s.link.bound ∧ s.link.boundSession = n then s'.unbind else s'
    s'.emit (.doe 0 [])

end State

end Sys2Proof.Machine
end

