-- ==== Sys2Proof/Machine/Boot.lean ====
section
/-! DEFINITION. Resets, the flash and its records, the ROM, identity, firmware services, clock failures (chapter 19). -/

namespace Sys2Proof.Machine

/-! Records of the flash. -/

/-- A boot record (Table 19.6). -/
structure BootRec where
  seqno : Nat
  active : Bool
  trial : Bool
  fallback : Bool
  tries : Nat
  lastFail : Nat
  failSlot : Bool
  minSvn : Nat
  deriving DecidableEq, Repr

/-- The 64 bytes of a record. -/
def bootBytes (r : BootRec) : List Byte :=
  let b := [0x4B, 0x57, 0x42, 0x52] ++ leBytes 2 1 ++ leBytes 2 0 ++ leBytes 4 r.seqno ++ leBytes 1 r.active.toNat
    ++ leBytes 1 (bit_ r.trial 0 + bit_ r.fallback 1) ++ leBytes 1 r.tries ++ leBytes 1 (r.lastFail % 16 + bit_ r.failSlot 4)
    ++ leBytes 2 r.minSvn ++ List.replicate 42 0
  b ++ leBytes 4 (crc32c b).toNat

/-- A copy is valid when its MARKER, VERSION and CRC are correct (R429). -/
def bootOf (b : List Byte) : Option BootRec :=
  if slice b 0 4 = [0x4B, 0x57, 0x42, 0x52] ∧ leAt b 4 2 = 1 ∧ leAt b 60 4 = (crc32c (slice b 0 60)).toNat then
    some
      { seqno := leAt b 8 4
        active := decide (leAt b 12 1 = 1)
        trial := decide (bitsOf (leAt b 13 1) 0 1 = 1)
        fallback := decide (bitsOf (leAt b 13 1) 1 1 = 1)
        tries := leAt b 14 1 % 8
        lastFail := leAt b 15 1 % 16
        failSlot := decide (bitsOf (leAt b 15 1) 4 1 = 1)
        minSvn := leAt b 16 2 }
  else none

/-- First flash byte of a slot (Table 19.5): false for A. -/
def slotBase (b : Bool) : Nat := if b then 0x1100000 else 0x100000

/-- Check 1 of Table 19.8 on a header (Table 19.7). -/
def headerForm (h : List Byte) : Bool :=
  decide (slice h 0 4 = [0x4B, 0x57, 0x46, 0x57]) && decide (leAt h 4 2 = 1) && decide (4096 ≤ leAt h 12 4)
    && decide (leAt h 12 4 ≤ 10485504) && zeroAt h 81 7 && zeroAt h 202 54

/-- Service status of a failed check (Table 19.8). -/
def checkStatus (n : Nat) : Byte :=
  if n = 1 then sFwBadImage else if n = 2 then sFwUntrusted else if n = 3 then sFwRollback else sFwBadSig

namespace State

/-- Both boot records' copies, and the record in force: the valid copy with the later SEQ (R429). -/
def bootCopy (s : State) (k : Nat) : Option BootRec := bootOf (s.flashRead (0x10000 * k) 64)

/-- Which copy is in force, with its record. -/
def bootForce (s : State) : Option (Nat × BootRec) :=
  match s.bootCopy 0, s.bootCopy 1 with
  | some a, some b => if later 32 b.seqno a.seqno then some (1, b) else some (0, a)
  | some a, none => some (0, a)
  | none, some b => some (1, b)
  | none, none => none

/-- Write bytes into the flash. -/
def flashWrite (s : State) (a : Nat) : List Byte → State
  | [] => s
  | b :: t => (s.setFlashByte a b).flashWrite (a + 1) t

/-- What CLK_BOOT_STAT shows of the record in force (Table 19.13). -/
def showRecord (s : State) (r : BootRec) : State :=
  { s with clk := { s.clk with
      tries := BitVec.ofNat 3 r.tries
      lastFail := BitVec.ofNat 4 r.lastFail
      failSlot := r.failSlot
      trial := r.trial && decide (r.active = s.clk.slot) } }

/-- A boot record is written to the other copy, with SEQ one higher (R429). -/
def bootWrite (s : State) (r : BootRec) : State :=
  let (k, n) := match s.bootForce with
    | some (k, f) => (1 - k, (f.seqno + 1) % 2 ^ 32)
    | none => (0, 1)
  let r := { r with seqno := n }
  (s.flashWrite (0x10000 * k) (bootBytes r)).showRecord r

/-- The header and the payload of a slot. -/
def slotHeader (s : State) (b : Bool) : List Byte := s.flashRead (slotBase b) 256
def slotPayload (s : State) (b : Bool) : List Byte := s.flashRead (slotBase b + 256) (leAt (s.slotHeader b) 12 4)

/-- The image digest (R430). -/
def slotDigest (s : State) (b : Bool) : List Byte :=
  let h := s.slotHeader b
  shakeDigest (slice h 0 88 ++ List.replicate 114 0 ++ slice h 202 54 ++ s.slotPayload b)

/-- The first of checks 1 to 4 that a slot fails (Table 19.8). -/
def slotFail (s : State) (b : Bool) (minSvn : Nat) : Option Nat :=
  let h := s.slotHeader b
  if !headerForm h then some 1
  else if shakeDigest (slice h 24 57) ≠ Config.krawynDigest then some 2
  else if leAt h 6 2 < minSvn then some 3
  else if !Ed448.verify [0x4B, 0x57, 0x46, 0x50, 0x2D, 0x46, 0x57] (slice h 24 57) (s.slotDigest b) (slice h 88 114) then some 4
  else none

/-! Resets (R423, R424, R426). -/

/-- What only the model keeps (the queue, the count of free values, the outputs) and the flash, over power off and on. -/
def coldState (s : State) : State :=
  let r := State.reset
  { r with
    pending := s.pending
    freeCtr := s.freeCtr
    out := s.out
    flash := s.flash }

/-- MAST_ARR_RET survives (RWS): what is left of an array, its die powered down (Table 2.11). -/
def keepRetired (a : Arr) : Arr := if a.retired then { st := .retired, retired := true, perm := a.perm } else {}

/-- AGE_GRP.RETIRED of every group, from the arrays RETIRED. -/
def countRetired (s : State) : State :=
  s.arrs.foldl (fun s ka =>
    if ka.2.st = .retired then
      let m := ka.1 / arrPerMast
      let g := groupOf (ka.1 % arrPerMast)
      let x := s.ageGrp m g
      s.setAgeGrp m g { x with retired := x.retired + 1 }
    else s) s

/-- The page descriptors after a warm reset: a page that is LOST stays so until a cold reset (R268). -/
def keepLost (d : PDesc) : PDesc := { lost := d.lost }

/-- A warm reset (R426, Table 19.4), up to the ROM step; the standby arrays are named anew (R122). A device whose crystal has failed stays DEVICE_FATAL (R421). -/
def warmReset (s : State) : State :=
  let dead := s.devFatal && !s.clk.xtalOk
  let r := s.coldState
  let r : State := { r with
    time := s.time
    arrs := tabMapAll {} (fun _ a => keepRetired a) s.arrs
    pdescs := tabMapAll {} (fun _ d => keepLost d) s.pdescs
    sail := { r.sail with
      opkey := s.sail.opkey
      locked := s.sail.locked }
    integ := { r.integ with
      log := s.integ.log
      tail := s.integ.tail
      head := s.integ.head
      lost := s.integ.lost
      sel := s.integ.sel
      copy := s.integ.copy
      jobState := if dead then 5 else 0 }
    clk := { r.clk with
      xtalOk := s.clk.xtalOk
      rootLock := s.clk.rootLock
      last := 2
      warm := satAdd s.clk.warm 1 } }
  r.countRetired.nameStandbys

/-! The ROM (R432 to R434). -/

/-- The identity key is derived anew; ID_OK and CLK_SERIAL (R434, R435). -/
def deriveIdentity (s : State) : State :=
  match s.idRecord with
  | none => { s with clk := { s.clk with
      idKey := []
      idOk := false } }
  | some b =>
    let helper := slice b (leAt b 12 4) (leAt b 16 4)
    let key := shake256 ([0x4B, 0x57, 0x46, 0x50, 0x2D, 0x49, 0x44] ++ slice (Config.pufSecret helper) 0 32) 57
    { s with clk := { s.clk with
        idKey := key
        idOk := decide (Ed448.publicKey key = slice b 32 57)
        serial := BitVec.ofNat 64 (leAt b 96 8) } }

/-- The slot that runs is chosen: its part of CLK_BOOT_STAT and CLK_FW_VER, and its digest. -/
def runSlot (s : State) (b fellBack : Bool) : State :=
  let h := s.slotHeader b
  let o := s.slotHeader (!b)
  let s : State := { s with clk := { s.clk with
      chosen := some b
      slot := b
      fallback := fellBack
      svn := BitVec.ofNat 16 (leAt h 6 2)
      runVer := BitVec.ofNat 32 (leAt h 8 4)
      otherVer := if headerForm o then BitVec.ofNat 32 (leAt o 8 4) else 0
      imageDigest := s.slotDigest b } }
  match s.bootForce with
  | some (_, r) => s.showRecord r
  | none => s

/-- Steps 4 and 5 of R432: ACTIVE has failed a check, and the other slot is verified. -/
def romFallback (s : State) (r : BootRec) (n : Nat) : State :=
  let o := !r.active
  match s.slotFail o r.minSvn with
  | none => (s.bootWrite { r with
      active := o
      trial := false
      fallback := true
      lastFail := n
      failSlot := r.active }).runSlot o true
  | some _ => ({ s with clk := { s.clk with
      state := 2
      chosen := none } }).showRecord r

/-- Steps 1 to 5 of R432; check 5 concerns ACTIVE, the slot on trial (log entry 79). -/
def romChoose (s : State) : State :=
  let s := if s.bootForce.isNone then s.bootWrite ⟨0, false, false, false, 0, 0, false, 0⟩ else s
  match s.bootForce with
  | none => s
  | some (_, r) =>
    let s := if r.trial && decide (0 < r.tries) then s.bootWrite { r with tries := r.tries - 1 } else s
    let now_ := ((s.bootForce).map (·.2)).getD r
    match s.slotFail r.active r.minSvn with
    | some n => s.romFallback now_ n
    | none => if r.trial && r.tries = 0 then s.romFallback now_ 5 else s.runSlot r.active false

/-- ROM_BOOT (R432, R433): clocks locked, the link trains, the identity key is derived, a slot is chosen. -/
def romBoot (s : State) : State :=
  if s.clk.state ≠ 0 ∨ s.clk.chosen.isSome ∨ s.devFatal ∨ s.pwr.furled then s
  else
    let s : State := { s with
      clk := { s.clk with
        xtalOk := true
        rootLock := true
        hbmLock := 0xFF
        optLock := 0x1FF
        romAt := s.now }
      link := { s.link with
        st := 1
        trainAt := s.now } }
    s.deriveIdentity.romChoose

/-- The bytes of the CXL.mem window's regions are zeroed (R433), or lost (R404). -/
def zeroWindow (s : State) : State :=
  { s with hbm := s.hbm.filter (fun kb => decide (kb.1 % 2 ^ 37 < 3840 * 1048576) || decide (4096 * 1048576 ≤ kb.1 % 2 ^ 37)) }

/-! Power-up of array domains (R406). -/

/-- A mast's array domains begin power-up: all eight dies. -/
def powerMast (s : State) (m : Nat) : State :=
  (upTo 8).foldl (fun s d => s.modDie m d (fun x => if x.powered then x else { x with poweringUp := true })) s

/-- Power-up of masts that wait, at most two in any 250 µs, in ascending order; `n` bounds the turns. -/
def pumpPower (s : State) : Nat → State
  | 0 => s
  | n + 1 =>
    let recent := s.pwr.upAt.filter (fun t => decide (s.now < t + 25000))
    if 2 ≤ recent.length then s
    else
      match (upTo 4).find? (fun m => s.pwr.upQueue.contains m) with
      | none => s
      | some m =>
        (({ s with pwr := { s.pwr with
            upQueue := s.pwr.upQueue.filter (· ≠ m)
            upAt := s.now :: recent } }).powerMast m).pumpPower n

/-- Masts are put in line for power-up. -/
def queuePower (s : State) (ms : List Nat) : State :=
  ({ s with pwr := { s.pwr with upQueue := s.pwr.upQueue ++ ms.filter (fun m => !s.pwr.upQueue.contains m) } }).pumpPower 4

/-- Firmware runs (R433, R439): its boot time is noted, and the firmware spindles are live. -/
def firmwareRuns (s : State) : State :=
  let s : State := { s with clk := { s.clk with
      state := 1
      chosen := none
      ticks := satNat 32 (s.now - s.clk.romAt) } }
  (upTo 4).foldl (fun s m => s.modSpn m (fun x => { x with fwLive := BitVec.ofNat 8 (128 - (if x.opEn then min 16 x.opCount.toNat else 0)) })) s

/-- FIRMWARE_RELEASE (R433): the window is zeroed, firmware runs, and the array domains power up (R426). -/
def firmwareRelease (s : State) : State :=
  if s.clk.state ≠ 0 ∨ s.clk.chosen.isNone ∨ s.devFatal ∨ s.pwr.furled then s
  else (s.zeroWindow.firmwareRuns).queuePower [0, 1, 2, 3]

/-! Services of the security core (R436); `busy` says that one still runs. -/

/-- The slot that is not running; in RECOVERY the one that is not ACTIVE (log entry 79). -/
def idleSlot (s : State) : Bool :=
  if s.clk.state = 1 then !s.clk.slot else !((s.bootForce).map (·.2.active)).getD false

def fwStatus (s : State) (k : Nat) (msg : Option (List Byte)) (busy : Bool) : State :=
  s.serve 0x0100 k msg (fun s _ =>
    if busy then (s, sFwBusy, [])
    else
      (s, sOK, (((s.bootForce).map (fun x => bootBytes x.2)).getD (List.replicate 64 0)) ++ s.slotHeader false ++ s.slotHeader true
        ++ leBytes 1 s.clk.slot.toNat))

def fwWrite (s : State) (k : Nat) (msg : Option (List Byte)) (busy : Bool) : State :=
  s.serve 0x0101 k msg (fun s q =>
    let o := leAt q 32 4
    let n := leAt q 36 4
    if busy then (s, sFwBusy, [])
    else if o % 4096 ≠ 0 ∨ 16777216 < o + n then (s, sFwRange, [])
    else if q.length < 64 + n then (s, sBadMessage, [])
    else (s.flashWrite (slotBase s.idleSlot + o) (slice q 64 n), sOK, []))

def fwActivate (s : State) (k : Nat) (msg : Option (List Byte)) (busy : Bool) : State :=
  s.serve 0x0102 k msg (fun s q =>
    let n := leAt q 32 1
    let r : BootRec := ((s.bootForce).map (·.2)).getD ⟨0, false, false, false, 0, 0, false, 0⟩
    if busy then (s, sFwBusy, [])
    else if n = 0 ∨ 7 < n ∨ q.length < 33 then (s, sFwRange, [])
    else
      match s.slotFail s.idleSlot r.minSvn with
      | some c => (s, checkStatus c, [])
      | none =>
        let s' := s.bootWrite { r with
          active := s.idleSlot
          trial := true
          fallback := false
          tries := n }
        (if s.clk.state = 2 then ({ s' with clk := { s'.clk with
            state := 0
            romAt := s'.now } }).romChoose else s', sOK, []))

def fwCommit (s : State) (k : Nat) (msg : Option (List Byte)) (busy : Bool) : State :=
  s.serve 0x0103 k msg (fun s q =>
    if busy then (s, sFwBusy, [])
    else
      match s.bootForce with
      | none => (s, sOK, [])
      | some (_, r) =>
        let r' := { r with
          trial := false
          minSvn := if bitsOf (leAt q 32 1) 0 1 = 1 then s.clk.svn.toNat else r.minSvn }
        (if r' = r then s else s.bootWrite r', sOK, []))

def idInfo (s : State) (k : Nat) (msg : Option (List Byte)) (busy : Bool) : State :=
  s.serve 0x0110 k msg (fun s _ =>
    if busy then (s, sFwBusy, [])
    else if !s.clk.idOk then (s, sIdFail, [])
    else (s, sOK, s.idPub ++ s.idChain))

/-! Failures (R421, R437). -/

/-- A clock failure is a record of type HOP_PARITY (R421). -/
def clockInfo (hop : Nat) : RecInfo := { typ := tHopParity, source := 4, detail := hop }

/-- CRYSTAL_FAILURE: LOCAL_TIME stops, and the device becomes DEVICE_FATAL. -/
def crystalFailure (s : State) : State :=
  ({ s with clk := { s.clk with xtalOk := false } }).log .devFatal (clockInfo 0x500)

/-- ROOT_PLL_UNLOCK. -/
def rootUnlock (s : State) : State := ({ s with clk := { s.clk with rootLock := false } }).log .devFatal (clockInfo 0x501)

/-- HBM_PLL_UNLOCK: the stack's contents are not kept. -/
def hbmUnlock (s : State) (k : Nat) : State :=
  ({ s with
    clk := { s.clk with hbmLock := s.clk.hbmLock &&& ~~~(BitVec.ofNat 8 (2 ^ k)) }
    hbm := s.hbm.filter (fun kb => decide (kb.1 / 2 ^ 37 ≠ k)) }).log .devFatal (clockInfo (0x510 + k))

/-- OPTICAL_PLL_UNLOCK: the engine's lanes lose lock, and its halyards or the host link retrain (R361, R376). -/
def opticalUnlock (s : State) (e : Nat) : State :=
  if 9 ≤ e then s
  else
    let s := ({ s with clk := { s.clk with optLock := s.clk.optLock &&& ~~~(BitVec.ofNat 9 (2 ^ e)) } }).log .degraded (clockInfo (0x520 + e))
    if e = 8 then s.cxlLinkReset
    else (upTo 4).foldl (fun s i => (upTo 8).foldl (fun s l => s.laneLoss (4 * e + i) l) s) s

/-- OPTICAL_PLL_LOCK. -/
def opticalLock (s : State) (e : Nat) : State :=
  if 9 ≤ e then s else { s with clk := { s.clk with optLock := s.clk.optLock ||| BitVec.ofNat 9 (2 ^ e) } }

/-- MGMT_WATCHDOG: JOB_FATAL, and DEVICE_FATAL when the job has not resumed since the first (R437, R338). -/
def mgmtWatchdog (s : State) : State :=
  s.log (if s.integ.phase = 0 then .jobFatal else .devFatal) { typ := tWatchdog, source := 4 }

/-- SECURITY_CORE_FAULT. -/
def securityFault (s : State) : State := s.deviceFatal

end State

end Sys2Proof.Machine
end

