-- ==== Sys2Proof/Machine/Power.lean ====
section
/-! DEFINITION. Power states, their entries and wakes, the envelope, and the lanyard (chapter 18). -/

namespace Sys2Proof.Machine

/-- Least T of a state in ticks of 10 ns (Table 18.2). -/
def leastT : PwrState → Nat
  | .sail => 0
  | .reef => 3000
  | .douse => 3000000
  | .furl => 200000000

/-- The deepest state of Table 18.2 that is no deeper than a limit and fits in T. -/
def chosenState (limit t : Nat) : PwrState :=
  if 3 ≤ limit ∧ leastT .furl ≤ t then .furl
  else if 2 ≤ limit ∧ leastT .douse ≤ t then .douse
  else if 1 ≤ limit ∧ leastT .reef ≤ t then .reef
  else .sail

/-- 256 MiB, the unit of retention (R404). -/
def segBytes : Nat := 268435456

namespace State

/-! Idleness (R400) and PWR_NEXT (R401). -/

/-- A domain group is idle. -/
def groupIdle (s : State) (g : Nat) : Bool :=
  let ms := s.mastsOf g
  let on (m : Nat) : Bool := ms.contains m
  let named (w : W32) : Bool := (maskDies w).any (fun k => on (k / 8))
  !s.batches.any (fun b => (s.ctxMasts b.ctx).any on) && !s.remoteWait.any (fun b => (s.ctxMasts b.ctx).any on)
    && !s.arrs.any (fun ka => on (ka.1 / arrPerMast) && (ka.2.cmdBusy || ka.2.write.isSome || ka.2.col.isSome || ka.2.fw.isSome))
    && !s.spls.any (fun ka => on (ka.1 / arrPerMast) && ka.2.busy)
    && !(s.adc.busy && named s.adc.latchMask) && !(s.trim.busy && named s.trim.latchMask)
    && !s.trims.any (fun ka => on (ka.1 / arrPerMast) && ka.2.swap.isSome)
    && !s.ageGrps.any (fun kg => on (kg.1 / 1024) && !kg.2.replan.isEmpty)
    && s.integ.round.isNone

/-- The device is idle. -/
def deviceIdle (s : State) : Bool :=
  (upTo 4).all s.groupIdle && decide (s.seq.cqHead.toNat % s.seq.cqSize.toNat = s.seq.cqTail.toNat % s.seq.cqSize.toNat) && s.seq.fetched.isEmpty && s.seq.awaits.isEmpty && s.seq.held.isEmpty
    && s.reels.all (fun kr => kr.2.queue.isEmpty && kr.2.held.isEmpty) && s.mbxs.all (fun kx => kx.2.held.isEmpty) && s.kv.moves.isEmpty

/-- PWR_NEXT. -/
def pwrNext (s : State) : Nat := if (upTo 4).all s.groupIdle then s.seqNext else 0

/-! Changes of state. -/

/-- A change of a group's state; MBX_GEN_CAUSE.PWR at a change of the device state (R418). -/
def setGroup (s : State) (g : Nat) (st : PwrState) : State :=
  let old := s.deviceSt
  let s : State := { s with pwr := { s.pwr with groups := s.pwr.groups.set g st } }
  if s.deviceSt = old then s else s.cause gPwr

/-- DOUSE and FURL wait while a WLOAD, a LOAD or a restart runs (R403). -/
def sleepWaits (s : State) : Bool :=
  s.ctxs.any (fun kc => kc.2.wload.isSome) || s.sail.busy || decide (s.integ.phase ≠ 0) || s.pwr.wake.isSome

/-- A commanded or chosen state of a group, deeper than the present one. -/
def wants (s : State) (g : Nat) (st : PwrState) : Bool :=
  (decide (s.pwr.targets.getD g none = some st) || (decide (s.pwr.targets.getD g none = none) && decide (s.pwr.choice.getD g .sail = st)))
    && decide (pwrCode (s.groupSt g) < pwrCode st)

/-- REQ_PEND: a commanded target waits for idleness. -/
def reqPend (s : State) : Bool :=
  (upTo 4).any (fun g => match s.pwr.targets.getD g none with
    | some st => decide (pwrCode (s.groupSt g) < pwrCode st)
    | none => false) || (s.pwr.furlTarget && !s.pwr.furled)

/-! Waking. -/

/-- A wake begins, or a wake in progress goes on unchanged (R402). Targets hold until it (R403). -/
def startWake (s : State) (named : List Nat) (cause : Nat) : State :=
  let clear (gs : List Nat) (p : Power) : Power := { p with
    targets := p.targets.mapIdx (fun g t => if gs.contains g then none else t)
    choice := p.choice.mapIdx (fun g t => if gs.contains g then .sail else t)
    furlChoice := false
    furlTarget := false }
  if s.pwr.furled then
    if s.pwr.wake.isSome then s
    else
      let p := clear (upTo 4) s.pwr
      let w : Wake := ⟨.furl, cause, s.now, upTo 4, 0⟩
      { s with pwr := { p with wake := some w } }
  else
    let awake (g : Nat) : Bool := match s.pwr.wake with
      | some w => w.groups.contains g
      | none => false
    let reefs := named.filter (fun g => decide (s.groupSt g = .reef))
    let douses := named.filter (fun g => decide (s.groupSt g = .douse) && !awake g)
    let s := if reefs.isEmpty then s else
      { s with pwr := { s.pwr with
          targets := s.pwr.targets.mapIdx (fun g t => if reefs.contains g then none else t)
          choice := s.pwr.choice.mapIdx (fun g t => if reefs.contains g then .sail else t)
          lastFrom := 1
          lastCause := BitVec.ofNat 3 cause
          lastDur := 800 } }
    let s := reefs.foldl (fun s g => s.setGroup g .sail) s
    if douses.isEmpty then s
    else
      let ms := douses.flatMap s.mastsOf
      let p := clear douses s.pwr
      let s : State := { s with pwr := { p with
        wakeFail := if p.wake.isSome then p.wakeFail else 0
        awake := p.awake.filter (fun x => !ms.contains x.1)
        wake := some (match p.wake with
          | some w => { w with groups := w.groups ++ douses }
          | none => ⟨.douse, cause, s.now, douses, 0⟩) } }
      s.queuePower ms

/-- A wake ends: its groups are in SAIL, and PWR_WAKE_LAST shows it. -/
def endWake (s : State) (w : Wake) : State :=
  let s : State := { s with pwr := { s.pwr with
    wake := none
    lastFrom := BitVec.ofNat 2 (pwrCode w.src)
    lastCause := BitVec.ofNat 3 w.cause
    lastDur := satNat 32 (s.now - w.start) } }
  w.groups.foldl (fun s g => s.setGroup g .sail) s

/-! PWR_CMD (R403). -/

/-- A command is accepted, and completes with OK. -/
def pwrAccept (s : State) (code : BitVec 4) : State :=
  { s with pwr := { s.pwr with
      status := sOK
      cmdLast := code } }

/-- REEF or DOUSE becomes the target of groups; a target no deeper than the present state has no effect. -/
def setTargets (s : State) (gs : List Nat) (st : PwrState) : State :=
  { s with pwr := { s.pwr with targets := s.pwr.targets.mapIdx (fun g t =>
      if gs.contains g ∧ pwrCode (s.groupSt g) < pwrCode st ∧ !s.pwr.furled then some st else t) } }

/-- FURL becomes the target of the device. -/
def setFurl (s : State) : State := if s.pwr.furled then s else { s with pwr := { s.pwr with furlTarget := true } }

/-- Groups that GROUPS names. -/
def groupsOfMask (w : BitVec 4) : List Nat := (upTo 4).filter (fun g => w.getLsbD g)

def pwrSail (s : State) (w : BitVec 4) : State := (s.pwrAccept 1).startWake (groupsOfMask w) 4
def pwrReef (s : State) (w : BitVec 4) : State := (s.pwrAccept 2).setTargets (groupsOfMask w) .reef
def pwrDouse (s : State) (w : BitVec 4) : State := (s.pwrAccept 3).setTargets (groupsOfMask w) .douse
def pwrFurl (s : State) : State := (s.pwrAccept 4).setFurl

/-- Code 0 does nothing; 5h to Fh complete with BAD_COMMAND. -/
def pwrBadCommand (s : State) (code : BitVec 4) : State :=
  if code = 0 then s else { s with pwr := { s.pwr with status := sBadCommand } }

/-! The chooser (R401) and the entries (R398, R403, R404). -/

/-- POWER_CHOOSER: each idle group's choice; a group in REEF that is not idle wakes to SAIL (R400), and so does one without a target
that has no time for REEF. -/
def chooser (s : State) : State :=
  if s.pwr.furled then s
  else
    let next := s.pwrNext
    let t := next - s.now
    let pick := chosenState s.pwr.autoMax.toNat t
    let picks := (upTo 4).map (fun g => if s.groupIdle g then pick else .sail)
    let furl := picks.all (fun x => decide (x = .furl)) && s.deviceIdle && (decide (s.jobSize = 1) || !s.sail.inForce)
    let s : State := { s with pwr := { s.pwr with
      choice := picks.map (fun x => if x = .furl then .douse else x)
      furlChoice := furl } }
    let up := (upTo 4).filter (fun g => decide (s.groupSt g = .reef)
      && (!s.groupIdle g || (decide (s.pwr.targets.getD g none = none) && decide (picks.getD g .sail = .sail))))
    let s : State := { s with pwr := { s.pwr with
      targets := s.pwr.targets.mapIdx (fun g t => if up.contains g then none else t) } }
    up.foldl (fun s g => s.setGroup g .sail) s

/-- REEF_ENTRY of a group: step clocks and engines are gated. -/
def reefEntry (s : State) (g : Nat) : State :=
  if s.wants g .reef && s.groupIdle g && !s.pwr.furled then s.setGroup g .reef else s

/-- An array whose die is powered down (Table 2.11). One with RETIRE_PEND keeps it with its slot: it does not become RETIRED by itself
(DESIGN CHOICE, log entry 111). -/
def powerDownArr (a : Arr) : Arr := if a.st = .retired then a else { a with
  st := .off
  leaving := false
  fw := none
  run4 := 0
  run8 := 0 }

/-- The array domains of a mast switch off: its dies, and its arrays (Tables 2.11, 18.1); a calibration that named its dies goes on
without them (Table 3.5). -/
def arrOff (s : State) (m : Nat) : State :=
  let s := s.calOff m
  let s := (upTo 8).foldl (fun s d => s.modDie m d (fun _ => {})) s
  let s := (s.arrsOf m (fun a => a.cmdBusy || a.write.isSome)).foldl (fun s p => s.endWrite m p) s
  { s with
    arrs := tabMapAll {} (fun k a => if k / arrPerMast = m then powerDownArr a else a) s.arrs
    pwr := { s.pwr with upQueue := s.pwr.upQueue.filter (· ≠ m) } }

/-- Arrays of a mast that a condition picks, as pairs. -/
def pairsOf (s : State) (m : Nat) (f : Arr → Bool) : List (Nat × Nat) := (s.arrsOf m f).map (fun p => (m, p))

/-- What a mast notes as it enters DOUSE: the arrays that served a ply slot, the standby arrays with a pattern, the arrays VALID,
and AGE_EPOCH (R407). -/
def noteDouse (s : State) (m : Nat) : State :=
  let keep (l : List (Nat × Nat)) : List (Nat × Nat) := l.filter (fun x => x.1 ≠ m)
  let live := s.pairsOf m restored
  let served := live.filter (fun x => (s.arr m x.2).slot.isSome)
  let standby := live.filter (fun x => (s.arr m x.2).slot.isNone && s.isStandby m x.2)
  let valid := ((tabKeys s.cals (fun k c => decide (k / arrPerMast = m) && decide (c.cal = .valid)))).map (fun k => (m, k % arrPerMast))
  { s with pwr := { s.pwr with
      served := keep s.pwr.served ++ served
      standby := keep s.pwr.standby ++ standby
      valid := keep s.pwr.valid ++ valid
      epochs := s.pwr.epochs.set m s.age.epoch } }

/-- DOUSE_ENTRY of a group. -/
def douseEntry (s : State) (g : Nat) : State :=
  if s.wants g .douse && s.groupIdle g && !s.sleepWaits && !s.pwr.furled then
    ((s.mastsOf g).foldl (fun s m => (s.noteDouse m).arrOff m) s).setGroup g .douse
  else s

/-- A 256 MiB segment of a stack that FURL keeps in self-refresh (R404). -/
def keepSegment (s : State) (k seg : Nat) : Bool :=
  decide (seg < 15)
    || s.pdescs.any (fun pd => !isHost pd.1 && decide (pageStack pd.1 = k) && pd.2.inuse && s.kv.retain.getLsbD pd.2.ctx.toNat
      && decide (frameAddr (pageFrame pd.1) / segBytes = seg))
    || (upTo 16).any (fun c => s.pwr.retain.getLsbD c && (match (s.ctx c).sect with
      | some x =>
        decide (x.panel.weightMib.getD k 0 ≠ 0) && (s.regionRuns c k).any (fun r =>
          decide (r.1 * mib / segBytes ≤ seg) && decide (seg ≤ ((r.1 + r.2) * mib - 1) / segBytes))
      | none => false))

/-- HBM bytes outside the segments kept are lost. -/
def dropSegments (s : State) : State :=
  let keep := (upTo 8).map (fun k => (upTo 299).map (fun g => s.keepSegment k g))
  { s with hbm := s.hbm.filter (fun kb => (keep.getD (kb.1 / 2 ^ 37) []).getD (kb.1 % 2 ^ 37 / segBytes) false) }

/-- The mast windows and stores take their reset values (Tables 18.1, 19.4); RETIRED survives (RWS), and the standby arrays are named
anew (R122). -/
def resetMasts (s : State) : State :=
  let s := (upTo 4).foldl dropEcalls s
  nameStandbys { s with
    masts := []
    dies := []
    arrs := tabMapAll {} (fun _ a => keepRetired a) s.arrs
    cals := []
    facs := []
    metas := []
    rows := []
    sums := []
    cols := []
    trims := []
    standbys := []
    spls := []
    regions := []
    outliers := []
    fuses := []
    accs := []
    streams := []
    store := []
    inboxes := []
    spns := []
    spindles := []
    scratch := []
    shared := []
    bands := []
    integ := { s.integ with badWords := [] } }

/-- Powered dies, as a mask of TRIM_DIE_MASK. -/
def poweredMask (s : State) : W32 := diesMask ((upTo 32).filter (fun k => (s.die (k / 8) (k % 8)).powered))

/-- What FURL saves (R404): the plan, the ageing record, factor and trim sets; the tables, flows and E stay in the state. -/
def furlSave (s : State) : State :=
  { s with pwr := { s.pwr with
      plan := if s.sail.inForce then s.retainedPlan else []
      factors := withCheckTable (s.factorSet s.poweredMask)
      trims := withCheckTable (s.trimSet s.poweredMask)
      ageing := withCheckTable s.ageRecord
      ranSlot := s.clk.slot
      served := []
      standby := []
      valid := []
      awake := []
      step := 0
      upQueue := []
      choice := [.sail, .sail, .sail, .sail]
      furlChoice := false
      furlTarget := false
      targets := [none, none, none, none] } }

/-- Every halyard goes down (Table 18.1); a port that is OFF or DISABLED stays so (R361). -/
def portsDown (s : State) : State := (upTo 32).foldl (fun s p =>
  let st := (s.port p).st
  if st = .off ∨ st = .disabled then s else (s.dropPort p).portSt p .down) s

/-- The lanyard receiver's copy of DEVICE_ID, JOB_GROUP and WAKE_SLOT (R404). -/
def lanCopy (s : State) : Option (Nat × Nat × Nat) := s.sail.device.map (fun d => (d.deviceId, d.jobGroup, d.wakeSlot))

/-- FURL_ENTRY (R404). -/
def furlEntry (s : State) : State :=
  if (s.pwr.furlTarget || s.pwr.furlChoice) && s.deviceIdle && !s.sleepWaits && !s.pwr.furled && decide (s.clk.state = 1) then
    let s := s.rplAbortNow.furlSave
    let s : State := { s with
      lan := { s.lan with copy := s.lanCopy }
      clk := { s.clk with
        idKey := []
        state := 0 }
      recorder := {}
      rpl := {} }
    let s := s.portsDown.dropSegments.resetMasts
    let s : State := { s with
      pwr := { s.pwr with furled := true }
      link := { s.link with st := 0 } }
    let s := s.cxlLinkReset
    (upTo 4).foldl (fun s g => s.setGroup g .douse) s
  else s

/-- SELF_WAKE (R402). -/
def selfWake (s : State) : State :=
  let next := s.pwrNext
  if next = 2 ^ 64 - 1 ∨ s.pwr.wake.isSome then s
  else if s.pwr.furled then (if next ≤ s.now + 5000000 then s.startWake (upTo 4) 2 else s)
  else
    let gs := (upTo 4).filter (fun g => decide (s.groupSt g = .douse))
    if next ≤ s.now + 500000 ∧ !gs.isEmpty then s.startWake gs 2 else s

/-- FIRST_ACCESS (Table 18.3): what is accessed on a mast: 0 an array step or command, 1 an engine, 2 a window, region or spindle of a
DOUSE group, 3 the formation of a batch, 4 a WRITE to an OFF array. -/
def firstAccess (s : State) (m kind : Nat) : State :=
  let g := s.groupOfMast m
  let note (s : State) (from_ : BitVec 2) (dur : W32) : State := { s with pwr := { s.pwr with
    lastFrom := from_
    lastCause := 1
    lastDur := dur } }
  if s.pwr.furled ∨ 4 ≤ m then s
  else if kind < 2 then (if s.groupSt g = .reef then note s 1 800 else s)
  else if s.groupSt g ≠ .douse then s
  else if kind = 2 then
    note { s with pwr := { s.pwr with awake := (m, s.now) :: s.pwr.awake.filter (fun x => x.1 ≠ m) } } 2 5000
  else s.startWake [g] 1

/-- RETURN_TO_RETENTION (Table 18.3): 1 ms after the last access. -/
def toRetention (s : State) (m : Nat) : State :=
  { s with pwr := { s.pwr with awake := s.pwr.awake.filter (fun x => !(decide (x.1 = m) && decide (x.2 + 100000 ≤ s.now))) } }

/-- Formations that need a sleeping mast, and writes to OFF arrays of one, wake its group (Table 18.3). -/
def wakeForWork (s : State) : State :=
  let cs := (upTo 16).filter (fun c => decide ((s.ctx c).st = .running) && s.hasWork c)
  let gs := (cs.flatMap s.ctxMasts).map s.groupOfMast
  let ws := ((upTo 4).filter (fun m => !(s.mast m).wrQueue.isEmpty)).map s.groupOfMast
  let need := (upTo 4).filter (fun g => decide (s.groupSt g = .douse) && (gs.contains g || ws.contains g))
  if need.isEmpty ∨ s.pwr.furled then s else s.startWake need 1

/-! Power-up and the wakes (R406 to R408). -/

/-- DIE_POWER_STABLE: the die's arrays are BLANK and INVALID (Table 2.11, R69), one that was FAILED too: R69 names VALID arrays only
(DESIGN CHOICE, log entry 134). -/
def diePowerStable (s : State) (m d : Nat) : State :=
  let s := s.pumpPower 4
  if !(s.die m d).poweringUp then s
  else
    let s := s.setDie m d { powered := true }
    let s := (dieArrays (kDie m d)).foldl (fun s mp =>
      if (s.arr mp.1 mp.2).st = .off then s.modArr mp.1 mp.2 (fun a => { a with st := .blank }) else s) s
    { s with cals := tabMapAll {} (fun k c =>
        if k / arrPerMast = m ∧ dieOf (k % arrPerMast) = d then { c with cal := .invalid } else c) s.cals }

/-- Every die of some masts is powered. -/
def allPowered (s : State) (ms : List Nat) : Bool := ms.all (fun m => (upTo 8).all (fun d => (s.die m d).powered))

/-- An array is rewritten at the level map it had, from its derived image, which is first built at that map where it stands at another;
its region is kept (R407, R91). -/
def rewriteKept (s : State) (m p : Nat) : State :=
  let a := s.arr m p
  match a.slot with
  | none => s
  | some r =>
    if a.st ≠ .blank then s
    else
      let x := s.imageSlot m r
      let other := decide ((s.builtImage r.ctx m x).map (·.1) ≠ some a.lmap)
      s.fwAsk m p { image := some ⟨r.ctx, x⟩, lmap := a.lmap, load := false, rebuild := other }

/-- Writes of arrays in a list still run, or are to run. -/
def stillWriting (s : State) (l : List (Nat × Nat)) : Bool :=
  l.any (fun x => (s.arr x.1 x.2).write.isSome || (s.arr x.1 x.2).fw.isSome)

/-- Calibration comes back at a wake from DOUSE: VALID again if AGE_EPOCH is as at entry, else the die is named (R407). -/
def reviveCal (s : State) (x : Nat × Nat) : State :=
  if s.pwr.epochs.getD x.1 0 = s.age.epoch then s.modCal x.1 x.2 (fun c => { c with cal := .valid })
  else { s with pwr := { s.pwr with wakeFail := s.pwr.wakeFail ||| BitVec.ofNat 32 (2 ^ kDie x.1 (dieOf x.2)) } }

/-- DOUSE_WAKE (R407): its next stage, once what it waits for is there. -/
def douseWake (s : State) : State :=
  let s := s.pumpPower 4
  match s.pwr.wake with
  | none => s
  | some w =>
    let ms := w.groups.flatMap s.mastsOf
    let mine (l : List (Nat × Nat)) : List (Nat × Nat) := l.filter (fun x => ms.contains x.1)
    if w.src ≠ .douse ∨ !s.allPowered ms then s
    else if w.stage = 0 then
      let s := (mine s.pwr.valid).foldl reviveCal s
      let s := (mine s.pwr.served).foldl (fun s x => s.rewriteKept x.1 x.2) s
      { s with pwr := { s.pwr with wake := some { w with stage := 1 } } }
    else if s.stillWriting (mine s.pwr.served) then s
    else
      let s := (mine s.pwr.standby).foldl (fun s x => if (s.arr x.1 x.2).st = .blank then s.standbyWrite x.1 x.2 else s) s
      let s : State := { s with pwr := { s.pwr with
        served := s.pwr.served.filter (fun x => !ms.contains x.1)
        standby := s.pwr.standby.filter (fun x => !ms.contains x.1)
        valid := s.pwr.valid.filter (fun x => !ms.contains x.1) } }
      s.endWake w

/-- Stage 0 of a FURL wake: rails up, the link and the halyards train, the slot that ran is verified (R408, R432). -/
def furlVerify (s : State) (w : Wake) : State :=
  let s : State := { s with
    pwr := { s.pwr with
      furled := false
      wake := some { w with stage := 1 } }
    clk := { s.clk with romAt := s.now }
    link := { s.link with
      st := 1
      trainAt := s.now } }
  let s := (upTo 32).foldl (fun s p => if (s.port p).st = .down then s.portSt p .training else s) s
  let s := s.deriveIdentity
  let b := s.pwr.ranSlot
  let r : BootRec := ((s.bootForce).map (·.2)).getD ⟨0, b, false, false, 0, 0, false, 0⟩
  match s.slotFail b r.minSvn with
  | none => (s.runSlot b s.clk.fallback).firmwareRuns
  | some n =>
    let s := s.romFallback { r with active := b } n
    if s.clk.chosen.isSome then s.firmwareRuns else s

/-- The plan in force is dropped: every context becomes ABSENT (R158). -/
def dropPlan (s : State) : State :=
  let s := (upTo 16).foldl releaseCtx s
  { s with
    sail := { s.sail with
      inForce := false
      device := none
      routes := []
      opRaw := []
      opSeal := []
      digest := []
      tag := 0
      gen := 0 }
    lan := { s.lan with copy := none } }

/-- A context after FURL (R408): STOPPED with BOUND 0 unless PWR_RETAIN names it; nothing is held for reload, and no slot has an array.
CTX_GEN and what was logged under it stay (R87, R158). -/
def furlCtx (s : State) (c : Nat) : State :=
  let s := s.modCtx c (fun x => { x with
    held0 := none
    held1 := none
    sliceOn := false
    sliceOver := false
    given := false })
  if s.pwr.retain.getLsbD c ∨ (s.ctx c).st = .absent then s
  else s.modCtx c (fun x => { x with
    st := .stopped
    bound := false
    manifest := none
    wdigest := []
    digests := [] })

/-- Stage 1: ageing record, plan, contexts, lost pages, deadlines; the array domains power up. -/
def furlRestore (s : State) : State :=
  let s := if ageRecordOk s.pwr.ageing then s.applyAge s.pwr.ageing else s
  let s :=
    if s.pwr.plan.isEmpty then s
    else
      match s.validate s.pwr.plan s.pwr.plan.length true with
      | .ok _ => s
      | .error e => s.dropPlan.log .devFatal { typ := tSailRestore, source := 4, detail := e.step }
  let s := (upTo 16).foldl furlCtx s
  let lost := tabKeys s.pdescs (fun p d => !isHost p && d.inuse && !s.kv.retain.getLsbD d.ctx.toNat)
  let s := lost.foldl losePage s
  let s := (tabKeys s.entries (fun _ _ => true)).foldl deadlineExpiry s
  s.queuePower (upTo 4)

/-- Stage 2: the saved sets are applied die by die as ADC_RESTORE and TRIM_RESTORE would, and ADC_SELFCAL runs on the dies that
failed; the registers of both blocks stay. -/
def furlSets (s : State) : State :=
  let all := s.poweredMask
  let adc0 := s.adc
  let trim0 := s.trim
  let gen0 := s.genCause
  let s : State := { s with
    adc := { s.adc with
      mask := all
      latchMask := all
      phase := 6
      busy := true }
    trim := { s.trim with
      mask := all
      latchMask := all
      phase := 2
      busy := true } }
  let s := s.adcRestoreComplete (some s.pwr.factors)
  let s := s.trimRestoreComplete (some s.pwr.trims)
  let failed := (maskDies all).filter (fun k => !(maskDies s.adc.done).contains k || !(maskDies s.trim.done).contains k)
  let s : State := { s with
    adc := adc0
    trim := { trim0 with skipped := s.trim.skipped }
    genCause := gen0 }
  if failed.isEmpty then s
  else
    let s := ({ s with adc := { s.adc with mask := diesMask failed } }).selfcal
    { s with adc := { s.adc with
        mask := adc0.mask
        cmdLast := adc0.cmdLast } }

/-- Outlier tables and fuse stores of a context from its master copy (R408). -/
def furlStores (s : State) (c : Nat) : State :=
  if !(s.ctx c).bound then s
  else (s.pliesOf c).foldl (fun s p =>
    match s.tensorOf c p.tensor with
    | none => s
    | some t =>
      let x : PlyTensor := ⟨t.fmt, s.tensorBytes c t⟩
      let i := s.plyIndex c p
      ((s.setOutlier p.mast i (outlierTable x p.dch)).healWords true p.mast i).setFuse p.mast i (fuseEntry x)) s

/-- The arrays of a bound native context are written, each image rebuilt at its group's map, or placed by R137. -/
def furlWrites (s : State) (c : Nat) : State :=
  if !(s.ctx c).bound ∨ s.isReload c then s
  else (upTo 4).foldl (fun s m => (s.arrsOf m (fun a => decide (a.slot.map (·.ctx) = some c))).foldl (fun s p =>
    match (s.arr m p).slot with
    | none => s
    | some r =>
      let l := s.targetMap m p
      match s.deriveSlot c m r.slot l with
      | none => s
      | some (d, _) =>
        if d.excess then s.overflowSlot c m r.slot l d else (s.buildDerived c m r.slot l d).writeSlot c m r.slot l) s) s

/-- Stage 3: slots, stores and array writes. -/
def furlFill (s : State) : State :=
  let cs := (upTo 16).filter (fun c => decide ((s.ctx c).st ≠ .absent))
  let s := cs.foldl (fun (s : State) c => if (s.ctx c).sliced && !(s.ctx c).holder then s else s.assignSlots c) s
  (cs.foldl furlStores s |> cs.foldl furlWrites)

/-- A FURL wake has yet to verify its firmware (stage 0), where the ROM may write the flash. -/
def furlAtRom (s : State) : Bool :=
  match s.pwr.wake with
  | some w => decide (w.src = .furl) && decide (w.stage = 0)
  | none => false

/-- FURL_WAKE (R408): its next stage, once what it waits for is there. -/
def furlWake (s : State) : State :=
  let s := s.pumpPower 4
  match s.pwr.wake with
  | none => s
  | some w =>
    let next (s : State) (n : Nat) : State := { s with pwr := { s.pwr with wake := some { w with stage := n } } }
    if w.src ≠ .furl then s
    else if w.stage = 0 then s.furlVerify w
    else if s.clk.state ≠ 1 then s
    else if w.stage = 1 then next s.furlRestore 2
    else if w.stage = 2 then (if s.allPowered (upTo 4) then next s.furlSets 3 else s)
    else if w.stage = 3 then (if s.adc.busy then s else next s.furlFill 4)
    else if s.arrs.any (fun ka => ka.2.write.isSome || ka.2.fw.isSome) then s
    else
      let s : State := { s with pwr := { s.pwr with
        plan := []
        factors := []
        trims := []
        ageing := [] } }
      s.endWake w

/-! The envelope (R410, R411, R397). -/

/-- Temperature of the hottest valid powered die of the device, in 1/16 °C. -/
def hottestDie (s : State) : Option Int := ((upTo 4).filterMap s.hottest).max?

/-- At 120 °C on a die the device becomes DEVICE_FATAL and its array domains switch off. -/
def heatCheck (s : State) : State :=
  match s.hottestDie with
  | some t => if 1920 ≤ t then (upTo 4).foldl arrOff s.deviceFatal else s
  | none => s

/-! Lasers (R139, R450). -/

/-- LASER_END_OF_LIFE: the bias is held at 1,000, and a LASER record is written, once. -/
def laserEnd (s : State) (e : Nat) : State :=
  if (s.laser e).2 = 1000 then s
  else (s.setLaser e ((s.laser e).1, 1000)).log .degraded { typ := tLaser, detail := e }

/-- The bias of the highest laser of engine e as measured (Table 6.10): held at the end of life, with its warning at 90 %. -/
def laserBias (s : State) (e : Nat) (v : W16) : State :=
  let x := s.laser e
  if x.2 = 1000 then s
  else
    let s := if 900 ≤ v.toNat then s.laserWarn e v else s.setLaser e (x.1, v)
    if 1000 ≤ v.toNat then s.laserEnd e else s

/-- PWR_LIMIT as it acts. -/
def pwrLimit (s : State) : Nat := max 800 (min 2000 s.pwr.limit.toNat)

/-- POWER_SAMPLE: PWR_IN, and at most once per 10 µs a throttle step; `avg10` is the 10 µs average in W. The laser bias currents of the
optical engines, as their monitors show them, come with it (R134; log entry 137). -/
def powerSample (s : State) (volts amps watts : W16) (avg10 : Nat) (bias : List W16) : State :=
  let s : State := { s with pwr := { s.pwr with
    volts := volts
    amps := amps
    watts := watts } }
  let s := ((bias.take 9).mapIdx (fun e v => (e, v))).foldl (fun s x => s.laserBias x.1 x.2) s
  let s := s.heatCheck
  if s.now < s.pwr.stepAt + 1000 then s
  else
    let above := decide (97 * s.pwrLimit < 100 * avg10)
    let under := decide (100 * avg10 < 92 * s.pwrLimit)
    let hot := match s.hottestDie with
      | some t => decide (1760 ≤ t)
      | none => false
    let n := if above || hot then min 16 (s.pwr.step + 1) else if under then s.pwr.step - 1 else s.pwr.step
    { s with pwr := { s.pwr with
        step := n
        stepAt := s.now
        limitSeen := s.pwr.limitSeen || above
        therm := s.pwr.therm || hot
        throttled := if n = 0 then s.pwr.throttled else satAdd s.pwr.throttled 1 } }

/-- INPUT_UNDERVOLTAGE (R397). -/
def undervoltage (s : State) : State := ({ s with pwr := { s.pwr with uv := true } }).cause gPwr

/-- INPUT_FAULT (R397): every domain is off, and everything is lost. -/
def inputFault (s : State) : State := s.coldState

/-! The lanyard (R412 to R416). -/

/-- DEVICE_ID, JOB_GROUP and WAKE_SLOT held by the receiver: of the plan in force, or the copy kept over FURL (log entry 72). -/
def lanHeld (s : State) : Option (Nat × Nat × Nat) := if s.pwr.furled then s.lan.copy else s.lanCopy.or s.lan.copy

/-- A frame is addressed to the device (R414). -/
def addressed (s : State) (kind addr : Nat) : Bool :=
  kind = 2 || (match s.lanHeld with
    | some (d, g, _) => (kind = 0 && addr = d) || (kind = 1 && addr = g)
    | none => false)

/-- An addressed frame is rejected. -/
def lanReject (s : State) : State := { s with lan := { s.lan with rej := satAdd s.lan.rej 1 } }

/-- An addressed frame is acted on. -/
def lanAccept (s : State) : State := { s with lan := { s.lan with accepted := s.lan.accepted + 1 } }

/-- A bad frame is counted, in the running window too. -/
def countBad (s : State) : State :=
  { s with lan := { s.lan with
      bad := satAdd s.lan.bad 1
      windowBad := s.lan.windowBad + 1 } }

/-- A frame: bad where KIND is 3 (R413); ignored while the line is stuck or where it is not addressed to the device; rejected where
it is disabled. -/
def lanFrame (s : State) (kind addr : Nat) (enabled : Bool) (f : State → State) : State :=
  if s.lan.stuck then s
  else if kind = 3 then s.countBad
  else if !s.addressed kind addr then s
  else if !enabled then s.lanReject
  else f s.lanAccept

def lanNop (s : State) (kind addr : Nat) : State := s.lanFrame kind addr true (fun s => s)

/-- WAKE: limited while NOISY (R416), delayed for a group or broadcast frame (R409). -/
def lanWake (s : State) (kind addr : Nat) : State :=
  let soon := match s.lan.wakeAt with
    | some t => decide (s.now < t + 1000000)
    | none => false
  s.lanFrame kind addr (s.lan.wakeEn && !(s.lan.noisy && soon)) (fun s =>
    let s : State := { s with lan := { s.lan with wakeAt := some s.now } }
    if kind = 0 then s.startWake (upTo 4) 3
    else
      let t := s.now + 10000 * ((s.lanHeld.map (fun x => x.2.2)).getD 0)
      { s with lan := { s.lan with delayed := some (match s.lan.delayed with
          | some u => min t u
          | none => t) } })

def lanReef (s : State) (kind addr : Nat) : State := s.lanFrame kind addr s.lan.sleepEn (fun s => s.setTargets (upTo 4) .reef)
def lanDouse (s : State) (kind addr : Nat) : State := s.lanFrame kind addr s.lan.sleepEn (fun s => s.setTargets (upTo 4) .douse)
def lanFurl (s : State) (kind addr : Nat) : State := s.lanFrame kind addr s.lan.sleepEn (fun s => s.setFurl)

/-- RESET: a warm reset where the payload is right. -/
def lanReset (s : State) (kind addr payload : Nat) : State :=
  s.lanFrame kind addr (s.lan.resetEn && decide (payload = 0xC33C3C)) (fun s => s.warmReset)

/-- A reserved CMD. -/
def lanReserved (s : State) (kind addr : Nat) : State := s.lanFrame kind addr false (fun s => s)

/-- WAKE_SLOT_DELAY_END (R409). -/
def slotDelayEnd (s : State) : State :=
  match s.lan.delayed with
  | some t => if t ≤ s.now then ({ s with lan := { s.lan with delayed := none } }).startWake (upTo 4) 3 else s
  | none => s

/-- LANYARD_BAD_FRAME. -/
def lanBad (s : State) : State := if s.lan.stuck then s else s.countBad

/-- LANYARD_STUCK; a frame in progress is bad. -/
def lanStuck (s : State) (inFrame : Bool) : State :=
  if s.lan.stuck then s
  else
    let s : State := { s with lan := { s.lan with
      stuck := true
      stuckSeen := true } }
    if inFrame then s.countBad else s

/-- LANYARD_UNSTUCK. -/
def lanUnstuck (s : State) : State := { s with lan := { s.lan with stuck := false } }

/-- LANYARD_WINDOW_END: windows of 1 s follow one another. -/
def lanWindow (s : State) : State :=
  let x := s.lan
  if s.now < x.windowAt + 100000000 then s
  else
    let above := decide (1000 < x.windowBad)
    { s with lan := { x with
        noisy := above || (x.noisy && decide (100 < x.windowBad))
        noisySeen := x.noisySeen || above
        windowBad := 0
        windowAt := x.windowAt + 100000000 } }

end State

end Sys2Proof.Machine
end

