-- ==== Sys2Proof/Machine/RunArrays.lean ====
section
/-! DEFINITION. Commands and events of the charge arrays (chapter 2). -/

namespace Sys2Proof.Machine

/-- ARRAY_STEP_SLOT (R41, R58): a step slot of a mast whose clocks run; `codes` are raw codes that its converters latch and no token
takes, on physical columns. What the arrays compute for a token in it shows at PLY_TOKEN_STEP. -/
def execArrayStepSlot (m : Nat) (codes : List RawCode) (s : State) : Host.Outcome State Fault Refusal :=
  act (okMast m && codes.all okCode && s.mastRuns m) s (fun s => (s.stepSlot m).noteCodes m false codes)

/-- MAINTENANCE_SLOT (R42, R115, R324): two rows restored, trim probes, or a known-answer kernel; the readings that differ
from what is stored are operands. -/
def execMaintenanceSlot (m : Nat) (senses : List Sense) (codes : List RawCode)
    (s : State) : Host.Outcome State Fault Refusal :=
  act (okMast m && s.mastRuns m) s (fun s => s.maintenanceSlot m senses codes)

/-- RESTORE_CYCLE_END (R43, R134 to R136); `scrubbed` words were corrected by the scrub of the splice regions (R93). -/
def execRestoreCycleEnd (m : Nat) (scrubbed : List (Nat × Nat)) (s : State) : Host.Outcome State Fault Refusal :=
  act (okMast m && s.mastRuns m) s (fun s => s.restoreCycleEnd m scrubbed)

/-- RESTORE_FAILURE (R44). -/
def execRestoreFailure (m : Nat) (p : Nat) (s : State) : Host.Outcome State Fault Refusal :=
  act (okArr m p) s (fun s => s.restoreFailure m p)

/-- DIE_TEMP_SAMPLE (R45): what the dies of a mast report; the throttle looks at it (R411). -/
def execDieTempSample (m : Nat) (temps : List W16) (s : State) : Host.Outcome State Fault Refusal :=
  act (okMast m) s (fun s => ((s.reportTemps m temps).setTempInt m).heatCheck)

/-- WRITE (R36, R50), issued by the host or by firmware; one for an OFF array of a sleeping mast wakes it (Table 18.3). -/
def execWrite (m : Nat) (p : Nat) (host : Bool) (s : State) : Host.Outcome State Fault Refusal :=
  act (okArr m p && s.hostMay) s (fun s => (s.writeCmd m p host).wakeForWork)

/-- WRITE_DEQUEUE (R37). -/
def execWriteDequeue (m : Nat) (s : State) : Host.Outcome State Fault Refusal :=
  act (okMast m) s (fun s => s.writeDequeue m)

/-- WRITE_ROW_WINDOW (R36, R39). -/
def execWriteRowWindow (m : Nat) (p : Nat) (r : RowRead) (s : State) : Host.Outcome State Fault Refusal :=
  act (okArr m p) s (fun s => (s.rowWindow m p r).arrNext m p)

/-- WRITE_COMPLETE (R38); `bad` are the rows that fail after being rewritten. -/
def execWriteComplete (m : Nat) (p : Nat) (bad : List Nat) (s : State) : Host.Outcome State Fault Refusal :=
  act (okArr m p) s (fun s => (s.writeComplete m p bad).arrNext m p)

/-- COLWRITE (R40, R50). -/
def execColwrite (m : Nat) (p : Nat) (host : Bool) (s : State) : Host.Outcome State Fault Refusal :=
  act (okArr m p && s.hostMay) s (fun s => s.colwriteCmd m p host)

/-- COLWRITE_COMPLETE (R40); `fails`: a row failed its read-back twice. -/
def execColwriteComplete (m : Nat) (p : Nat) (fails : Bool) (s : State) : Host.Outcome State Fault Refusal :=
  act (okArr m p) s (fun s => (s.colwriteComplete m p fails).arrNext m p)

/-- ABORT of an array (R50). -/
def execAbort (m : Nat) (p : Nat) (host : Bool) (s : State) : Host.Outcome State Fault Refusal :=
  act (okArr m p && s.hostMay) s (fun s => (s.abortCmd m p host).arrNext m p)

/-- DISCARD (R46, R50). -/
def execDiscard (m : Nat) (p : Nat) (host : Bool) (s : State) : Host.Outcome State Fault Refusal :=
  act (okArr m p && s.hostMay) s (fun s => (s.discardCmd m p host).arrNext m p)

/-- MAST_ARR_RET_WRITE (R48, Table 2.11). -/
def execMastArrRetWrite (m : Nat) (p : Nat) (retired : Bool) (s : State) : Host.Outcome State Fault Refusal :=
  act (okArr m p && s.hostMay) s (fun s => if retired then s.retire m p else s.unretire m p)

end Sys2Proof.Machine
end

