-- ==== Sys2Proof/Machine/Registers.lean ====
section
/-! DEFINITION. The registers as the host and the spindles see them (chapter 21): the value at every offset of BAR0 and BAR2, and a
write of it. -/

namespace Sys2Proof.Machine

/-- What lies at an offset: no register, a 32-bit register or a 64-bit register, with the value a read returns. -/
inductive RegVal where
  | none
  | w32 (v : Nat)
  | w64 (v : Nat)
  deriving DecidableEq, Repr

/-- A register in a list of offsets. -/
def lookReg (o : Nat) : List (Nat × RegVal) → RegVal
  | [] => .none
  | (k, v) :: t => if k = o then v else lookReg o t

/-- The offsets `b`, `b + w`, … of an array of `n` registers. -/
def regArray (o b w n : Nat) (f : Nat → RegVal) : RegVal :=
  if b ≤ o ∧ o < b + w * n ∧ (o - b) % w = 0 then f ((o - b) / w) else .none

/-- The first of two that holds a register. -/
def RegVal.or (a b : RegVal) : RegVal :=
  match a with
  | .none => b
  | a => a

/-- STATE of MAST_ARR_STAT (Table 2.10). -/
def arrStateCode : ArrState → Nat
  | .off => 0
  | .blank => 1
  | .writing => 2
  | .ready => 3
  | .active => 4
  | .retired => 5

def splStateCode : SplState → Nat
  | .empty => 0
  | .loading => 1
  | .valid => 2

def tileCode : TileState → Nat
  | .free => 0
  | .filling => 1
  | .closed => 2
  | .draining => 3

def ctxStateCode : CtxState → Nat
  | .absent => 0
  | .stopped => 1
  | .running => 2
  | .draining => 3

/-- The 64 bytes of a sequence entry (Table 10.1). -/
def entryBytes (e : SeqEntry) : List Byte :=
  leBytes 4 ((stateCode e.st <<< 28) + (stateCode e.prior <<< 24) + at_ e.ctx 20 + at_ e.priority 17 + bit_ e.promoted 16 + bit_ e.inFlight 15
      + at_ e.gen 0)
    ++ leBytes 4 (at_ e.pendRec 30 + at_ e.fault 26 + bit_ e.moving 25 + bit_ e.cancelPend 24 + bit_ e.expFrom 23 + at_ e.length 0)
    ++ leBytes 4 (at_ e.skip 22 + at_ e.input 0) ++ leBytes 4 (bit_ e.nextValid 31 + at_ e.next 0) ++ leBytes 8 e.deadline.toNat
    ++ leBytes 8 e.hint.toNat ++ leBytes 8 e.pageTable.toNat ++ leBytes 8 e.inputPtr.toNat ++ leBytes 8 e.reel.toNat
    ++ leBytes 4 e.smp.toNat ++ leBytes 4 e.commits.toNat

/-- Words of a byte string. -/
def wordsOf (n : Nat) (b : List Byte) : List W64 := (upTo n).map (fun w => BitVec.ofNat 64 (leAt b (8 * w) 8))

namespace State

/-! Reads of word 0 that take a copy (R463). -/

/-- SEQ_ENTRY_READ (Table 10.18). -/
def seqEntryRead (s : State) : State :=
  let ws := wordsOf 8 (entryBytes (s.entry s.seq.sel.toNat))
  { s with seq := { s.seq with copy := ws } }.emit (.completion true (ws.getD 0 0).toNat)

/-- SMP_REC_READ (Table 13.8). -/
def smpRecRead (s : State) : State :=
  let ws := wordsOf 32 (smpStored (s.smpOf s.seq.sel.toNat))
  { s with smp := { s.smp with copy := ws } }.emit (.completion true (ws.getD 0 0).toNat)

/-! Values, block by block. Command registers are WO and read zero. -/

/-- Global and identity (Table 21.2), MSI-X table and PBA; `spindle`: the view of the spindles. -/
def regGlobal (s : State) (o : Nat) (spindle : Bool) : RegVal :=
  let fixed := lookReg o [(0x0, .w64 0x004106405046574B), (0x8, .w64 s.clk.serial.toNat), (0x10, .w32 s.clk.scratch.toNat)]
  if spindle then fixed
  else
    (fixed.or (if 0x10000 ≤ o ∧ o < 0x10110 then
      let x := s.vec ((o - 0x10000) / 16)
      match (o - 0x10000) % 16 with
      | 0 => .w64 x.addr.toNat
      | 8 => .w32 x.data.toNat
      | 12 => .w32 (bit_ x.masked 0)
      | _ => .none
    else .none)).or
    (if o = 0x11000 then .w64 (((upTo 17).map (fun v => bit_ (s.vec v).pba v)).foldl (· + ·) 0) else .none)

/-- A mailbox block (Tables 17.16 to 17.18); alias 0 of the cleat reads the owner. -/
def regMbx (s : State) (k o : Nat) : RegVal :=
  let x := s.mbx k
  (lookReg o [(0, .w64 x.addr.toNat), (8, .w32 x.len.toNat), (0xC, .w32 x.seq.toNat), (0x10, .w32 0),
    (0x14, .w32 (bit_ x.full 31 + (mbxKind k <<< 29) + bit_ x.overrun 28 + bit_ x.wrRej 27 + bit_ x.cleatRej 26 + at_ x.owner 16 + at_ x.dropped 8))]).or
    (regArray o 0x100 4 64 (fun _ => .w32 x.owner.toNat))

/-- Mailboxes and the host link (Table 17.12). -/
def regLink (s : State) (o : Nat) : RegVal :=
  ((lookReg o [(0, .w64 s.linkStatBits), (8, .w32 s.genCause.toNat), (0xC, .w32 s.genEn.toNat), (0x10, .w32 s.link.secRej.toNat),
    (0x14, .w32 (bit_ s.link.bound 31 + bit_ s.link.memIde 30 + bit_ s.link.ioIde 29 + at_ s.link.ioId 8 + at_ s.link.memId 0))]).or
    (regArray o 0x40 4 17 (fun v => .w32 (s.vec v).holdoff.toNat))).or
    (if 0x1000 ≤ o ∧ o < 0x3000 then s.regMbx ((o - 0x1000) / 0x200) (o % 0x200) else .none)

/-- Sequence engine (Table 10.14) and exclusion ranges (Table 12.14). -/
def regSeq (s : State) (o : Nat) : RegVal :=
  let q := s.seq
  ((lookReg o [(0, .w32 (bit_ q.enable 31 + at_ q.ageLimit 16 + at_ q.chunkMax 0)),
    (4, .w32 (bit_ q.cqErr 31 + bit_ s.cplFull 30 + bit_ q.fetchErr 29 + bit_ q.cplErr 28)),
    (8, .w64 q.cqBase.toNat), (0x10, .w32 q.cqSize.toNat), (0x14, .w32 q.cqTail.toNat), (0x18, .w32 q.cqHead.toNat),
    (0x1C, .w32 q.cplSize.toNat), (0x20, .w64 q.cplBase.toNat), (0x28, .w32 q.cplTail.toNat), (0x2C, .w32 q.cplHead.toNat),
    (0x30, .w64 q.step.toNat), (0x38, .w64 q.hint.toNat), (0x40, .w64 s.seqNext),
    (0x48, .w32 (s.entries.filter (fun ie => decide (ie.2.st ≠ .free))).length), (0x4C, .w32 q.sel.toNat),
    (0x50, .w32 q.expired.toNat), (0x54, .w32 q.promoted.toNat), (0x100, .w32 s.xregs.handle.toNat), (0x104, .w32 0),
    (0x108, .w32 (at_ s.xregs.status 16 + at_ s.xregs.cmdLast 0))]).or
    (regArray o 0x80 8 8 (fun w => .w64 (if w = 0 then leAt (entryBytes (s.entry q.sel.toNat)) 0 8 else (q.copy.getD w 0).toNat)))).or
    (regArray o 0x110 8 8 (fun i => .w64 (s.xregs.ranges.getD i 0).toNat))

/-- Pages (Tables 11.6 to 11.9). KV_POOL has its reset value until firmware runs (DESIGN CHOICE, log entry 106). -/
def regKv (s : State) (o : Nat) : RegVal :=
  let k := s.kv
  let c := k.ctxSel.toNat
  let e := s.seq.sel.toNat
  let d := s.pdesc k.psel.toNat
  let x := s.pfx k.pfxSelCtx.toNat k.pfxSelSlot.toNat
  let booted := decide (s.clk.state ≠ 0)
  (((lookReg o [(0, .w32 (bit_ (!k.moves.isEmpty) 31 + bit_ k.starved 30 + bit_ k.lost 29 + bit_ k.wrRej 28 + (k.moves.length - 1))),
    (4, .w32 k.retain.toNat), (8, .w64 k.hostBase.toNat), (0x10, .w32 k.hostPages.toNat), (0x14, .w32 s.hostFree), (0x18, .w32 s.ptbFree),
    (0x1C, .w32 k.starve.toNat), (0x80, .w64 s.deferCount), (0x88, .w64 k.copies.toNat), (0x90, .w64 k.moved.toNat), (0x98, .w32 c),
    (0x9C, .w32 (s.hostUsedBy c)),
    (0xC0, .w64 (at_ (s.tbl e).resRows 48 + (s.heldRows e <<< 32) + bit_ (s.tbl e).released 31 + (s.hostEntries e).length)),
    (0xC8, .w32 k.psel.toNat), (0xCC, .w32 k.lostCnt.toNat),
    (0xD0, .w64 (at_ d.refs 48 + bit_ d.ro 47 + bit_ d.defer 46 + bit_ d.lost 45 + bit_ d.zeroing 44 + bit_ d.inuse 43 + at_ d.ctx 36)),
    (0xD8, .w64 d.tag.toNat), (0x100, .w32 0), (0x104, .w32 (bit_ k.pfxJob.isSome 31 + at_ k.pfxStatus 16 + at_ k.pfxCmd 0)),
    (0x108, .w64 k.pfxSrc.toNat), (0x110, .w32 (at_ k.pfxSelCtx 28 + at_ k.pfxSelSlot 0)),
    (0x114, .w32 (bit_ x.loaded 31 + (x.length <<< 18) + x.users))]).or
    (regArray o 0x20 4 8 (fun i => .w32 (k.floors.getD i 0).toNat))).or
    (regArray o 0x40 8 8 (fun i => .w64 (if booted then (s.poolFrames i <<< 32) + s.poolFree i else 0)))).or
    (regArray o 0xA0 4 8 (fun i => .w32 (s.usedBy c i)))

/-- Sampler and reels (Tables 13.7 to 13.10); a batch is being sampled from SAMPLE until the sampler has delivered. -/
def regSmp (s : State) (o : Nat) : RegVal :=
  let m := s.smp
  let r := s.reel s.seq.sel.toNat
  let open_ := s.batches.filter (fun b => b.released && !b.sampledAll)
  (lookReg o [(0, .w32 (bit_ (!open_.isEmpty) 31 + ((open_.map (fun b => (samplingOf b).length)).foldl (· + ·) 0) % 2048)),
    (4, .w32 m.faults.toNat), (8, .w32 m.full.toNat), (0x10, .w64 m.draws.toNat), (0x1000, .w32 m.pollUs.toNat),
    (0x1004, .w32 (bit_ m.badHead 31 + bit_ m.wrErr 30 + bit_ m.kickRej 29 + bit_ m.headErr 28
      + (s.reels.map (fun kr => kr.2.held.length)).foldl (· + ·) 0)),
    (0x1008, .w32 0), (0x100C, .w32 (s.entries.filter (fun ie => decide (ie.2.st = .parked))).length), (0x1010, .w64 m.records.toNat),
    (0x1018, .w64 (at_ (reelTail r) 32 + at_ r.head 0)), (0x1020, .w32 m.err.toNat)]).or
    (regArray o 0x40 8 32 (fun w => .w64 (if w = 0 then leAt (smpStored (s.smpOf s.seq.sel.toNat)) 0 8 else (m.copy.getD w 0).toNat)))

/-- AGE_SEL's group (Table 6.16). -/
def ageSelGrp (s : State) : Nat × Nat := (bitsOf s.age.sel.toNat 30 2, bitsOf s.age.sel.toNat 27 3 * 128 + bitsOf s.age.sel.toNat 0 7)

/-- TRIM_ARR (Table 6.17). -/
def trimArrBits (s : State) : Nat :=
  let m := s.trimMast
  let p := s.trimArr
  let x := s.atrim m p
  at_ x.measTemp 48 + at_ x.rcerr 32 + at_ x.stale 28 + at_ x.measSpan 24 + bit_ x.swap.isSome 23 + bit_ x.atLimit 22 + bit_ (s.isStandby m p) 21
    + ((s.spareFree m p).map (fun c => 2 ^ c)).foldl (· + ·) 0

/-- Trim and ageing (Tables 6.13 to 6.19). -/
def regTrim (s : State) (o : Nat) : RegVal :=
  let t := s.trim
  let g := s.age
  let a := s.ageSelGrp
  (((lookReg o [(0, .w32 0),
    (4, .w32 (bit_ t.busy 31 + at_ t.phase 28 + bit_ t.wrRej 27 + bit_ t.skipped 26 + at_ t.status 16 + at_ t.cmdLast 0)),
    (8, .w32 t.mask.toNat), (0xC, .w32 t.done.toNat), (0x10, .w64 t.buf.toNat), (0x18, .w32 t.sel.toNat), (0x1C, .w32 (bit_ t.hold 0)),
    (0x20, .w64 (if s.trimSelOk then s.colWordBits s.trimMast s.trimArr s.trimWord else 0)),
    (0x28, .w64 (if s.trimSelOk then s.trimArrBits else 0)), (0x30, .w32 t.voidCnt.toNat), (0x48, .w64 t.lastTime.toNat),
    (0x70, .w64 s.trimCountAll.toNat), (0x40000, .w64 g.epoch.toNat), (0x40008, .w32 0),
    (0x4000C, .w32 (bit_ g.busy 31 + at_ g.status 16 + at_ g.cmdLast 0)), (0x40010, .w64 g.buf.toNat), (0x40018, .w32 g.sel.toNat),
    (0x4001C, .w32 (ageGrpBits (s.ageGrp a.1 a.2)))]).or
    (regArray o 0x34 4 4 (fun m => .w32 (s.mast m).trimGen.toNat))).or
    (regArray o 0x50 8 4 (fun m => .w64 (s.mast m).trimCount.toNat))).or
    (regArray o 0x40020 4 9 (fun e => .w32 (bit_ (s.laser e).1 31 + at_ (s.laser e).2 0)))

/-- Converters (Tables 3.8 to 3.15), from 0088_0000h. -/
def regAdc (s : State) (o : Nat) : RegVal :=
  let a := s.adc
  let x := s.cal s.adcSelMast s.adcSelArr
  let ok := s.adcSelOk
  (lookReg o [(0, .w32 0), (4, .w32 (bit_ a.busy 31 + at_ a.phase 28 + bit_ a.wrRej 27 + at_ a.status 16 + at_ a.cmdLast 0)),
    (8, .w32 a.mask.toNat), (0xC, .w32 a.done.toNat), (0x10, .w64 a.buf.toNat), (0x18, .w32 a.sel.toNat),
    (0x1C, .w32 (if ok then (calCode x.cal <<< 30) + bit_ (x.pendMap.isSome || !x.pendFac.isEmpty) 29 + at_ x.calTemp 0 else 0)),
    (0x20, .w64 (if ok then (s.fac s.adcSelMast s.adcSelArr s.adcSelConv).toNat else 0)),
    (0x28, .w32 (if ok then mapWord x.map else 0))]).or
    (regArray o 0x30 4 4 (fun m => .w32 (s.mast m).adcMeta.toNat))

/-- Integrity, recorder and replay (Tables 14.11, 15.8). -/
def regInt (s : State) (o : Nat) : RegVal :=
  let g := s.integ
  let r := s.recorder
  let p := s.rpl
  let sel := ((g.log.find? (fun x => x.seqno = g.sel)).map recBytes).getD []
  let paused := match p.job with
    | some j => decide ((s.ctx j.ctx).st ≠ .running) || s.seq.linkStop || s.bmStop
    | none => false
  ((lookReg o [(0, .w32 (at_ g.plausWide 16 + at_ g.refMult 8 + at_ g.kakTol 0)),
    (4, .w32 (bit_ g.logOvf 31 + bit_ g.fatalFull 30 + bit_ s.devFatal 29 + bit_ g.restartTmo 28 + at_ g.ctxFatal 0)),
    (8, .w32 g.tail.toNat), (0xC, .w32 g.head.toNat), (0x10, .w32 g.log.length), (0x14, .w32 g.lost.toNat), (0x18, .w32 g.sel.toNat),
    (0x40, .w64 (at_ g.jobState 60 + at_ g.phase 57 + at_ g.lostDev 40 + at_ g.epoch 0)), (0x48, .w32 g.jobTmo.toNat),
    (0x4C, .w32 g.foreign.toNat), (0x50, .w64 g.corrected.toNat), (0x58, .w64 g.data.toNat), (0x60, .w32 (bit_ g.digEn 31 + at_ g.digLog2 0)),
    (0x64, .w32 (bit_ g.digBusy 31 + at_ g.digFails 16 + at_ g.digRounds 0)), (0x68, .w64 g.digBuf.toNat),
    (0x100, .w32 (bit_ r.en 31 + at_ r.ctxAuto 0)), (0x104, .w32 (bit_ r.ovf 31 + bit_ r.armRej 30 + at_ r.armStatus 18 + r.armed.length)),
    (0x108, .w32 r.size.toNat), (0x10C, .w32 r.tail.toNat), (0x110, .w32 r.head.toNat), (0x114, .w32 0), (0x118, .w32 0),
    (0x11C, .w32 r.dropped.toNat), (0x120, .w32 0),
    (0x124, .w32 (bit_ (p.reading || p.job.isSome) 31 + bit_ paused 30 + at_ p.status 16 + at_ p.cmdLast 0)), (0x128, .w64 p.src.toNat),
    (0x130, .w32 p.len.toNat), (0x134, .w32 p.gap.toNat), (0x138, .w64 (at_ p.maxDlp 48 + at_ p.diff 32 + at_ p.steps 0)),
    (0x140, .w64 (match p.first with
      | some n => 2 ^ 63 + n.toNat
      | none => 0))]).or
    (regArray o 0x20 8 4 (fun w => .w64 (if w = 0 then leAt (slice sel 0 32) 0 8 else (g.copy.getD w 0).toNat)))).or
    (regArray o 0x148 8 4 (fun i => .w64 (p.digest.getD i 0).toNat))

/-- PWR_STAT (Table 18.13). -/
def pwrStat (s : State) : Nat :=
  let p := s.pwr
  (s.deviceSt <<< 30) + ((upTo 4).map (fun g => pwrCode (s.groupSt g) <<< (22 + 2 * g))).foldl (· + ·) 0 + bit_ p.uv 21 + bit_ p.therm 20
    + bit_ p.limitSeen 19 + bit_ (decide (p.step ≠ 0)) 18 + bit_ p.wake.isSome 17 + bit_ s.reqPend 16 + at_ p.status 8 + at_ p.cmdLast 0

/-- Power, clocks and boot (Tables 18.11, 19.12). -/
def regPwr (s : State) (o : Nat) : RegVal :=
  let p := s.pwr
  let l := s.lan
  let c := s.clk
  let div (f : DevicePanel → Nat) : Nat := (s.sail.device.map f).getD 0
  lookReg o [(0, .w32 (at_ p.autoMax 30)), (4, .w32 0), (8, .w32 s.pwrStat), (0xC, .w32 p.limit.toNat),
    (0x10, .w64 (at_ p.volts 48 + at_ p.amps 32 + at_ p.watts 0)), (0x18, .w64 s.pwrNext), (0x20, .w32 p.retain.toNat),
    (0x24, .w32 p.throttled.toNat), (0x28, .w64 (at_ p.lastFrom 62 + at_ p.lastCause 59 + at_ p.lastDur 0)), (0x30, .w32 p.wakeFail.toNat),
    (0x40, .w32 (bit_ l.resetEn 2 + bit_ l.sleepEn 1 + bit_ l.wakeEn 0)),
    (0x44, .w32 (bit_ l.stuck 31 + bit_ l.stuckSeen 30 + bit_ l.noisy 29 + bit_ l.noisySeen 28 + at_ l.accepted 0)),
    (0x48, .w32 l.bad.toNat), (0x4C, .w32 l.rej.toNat),
    (0x100, .w32 (bit_ c.xtalOk 31 + bit_ c.rootLock 30 + at_ c.hbmLock 22 + at_ c.optLock 13 + ((div (·.divSpn)) <<< 2) + ((div (·.divNoc)) <<< 1)
      + div (·.divVec))),
    (0x108, .w64 s.now), (0x110, .w32 (at_ c.last 28 + at_ c.warm 0)),
    (0x114, .w32 (at_ c.state 30 + bit_ c.slot 29 + bit_ c.trial 28 + bit_ c.fallback 27 + bit_ c.idOk 26 + at_ c.tries 23 + at_ c.lastFail 19
      + bit_ c.failSlot 18 + at_ c.svn 0)),
    (0x118, .w32 c.ticks.toNat), (0x120, .w64 (at_ c.runVer 32 + at_ c.otherVer 0))]

/-- Rigging (Tables 16.8 to 16.12). -/
def regRig (s : State) (o : Nat) : RegVal :=
  let r := s.rig
  let d : Nat := match s.sail.device with
    | some d => (d.jobId <<< 48) + (d.jobSize <<< 35) + (d.jobRank <<< 23) + d.deviceId
    | none => 0
  ((lookReg o [(0, .w64 d), (8, .w32 (bit_ r.noRoute 31 + bit_ r.flowGap 30 + bit_ r.foreign 29 + bit_ r.portDis 28)),
    (0x10, .w32 r.cntNoRoute.toNat), (0x14, .w32 r.cntMisroute.toNat), (0x18, .w32 r.cntHdrErr.toNat), (0x1C, .w32 r.cntDropped.toNat),
    (0x20, .w32 r.cntFlowGap.toNat), (0x24, .w32 s.sail.routes.length), (0x28, .w32 r.routeSel.toNat)]).or
    (regArray o 0x30 8 2 (fun w => .w64 (if w = 0 then
      ((((s.sail.routes[r.routeSel.toNat]?).map routeWords).getD []).getD 0 0).toNat else (r.copy.getD w 0).toNat)))).or
    (if 0x1000 ≤ o ∧ o < 0x1800 then
      let p := (o - 0x1000) / 0x40
      let x := s.port p
      lookReg (o % 0x40) [(0, .w32 (bit_ x.en 31)), (4, .w32 (s.portStatBits p)), (8, .w64 x.fec.toNat), (0x10, .w32 x.uncor.toNat),
        (0x14, .w32 x.resend.toNat), (0x18, .w64 x.txb.toNat), (0x20, .w64 x.rxb.toNat)]
    else .none)

/-- A context block (Tables 7.15, 9.10). -/
def regCtx (s : State) (c o : Nat) : RegVal :=
  let x := s.ctx c
  let live := decide (x.st ≠ .absent)
  (lookReg o [(0, .w32 ((ctxStateCode x.st <<< 29) + bit_ (s.isReload c) 28 + bit_ x.sliced 27 + bit_ x.holder 26 + bit_ x.bound 25)),
    (4, .w32 x.gen.toNat), (8, .w64 (if live then ((upTo 4).map (fun m => (x.plyBase.getD m 0 % 2048) <<< (11 * m))).foldl (· + ·) 0 else 0)),
    (0x10, .w64 x.wbase.toNat), (0x18, .w32 0),
    (0x1C, .w32 (bit_ x.busy 31 + at_ x.phase 28 + bit_ x.heldWbase.isSome 27 + bit_ x.postRej 26 + at_ x.status 16 + at_ x.wbStatus 8
      + at_ x.cmdLast 0)),
    (0x20, .w32 x.loadTmo.toNat),
    (0x24, .w32 (((x.shards.toNat - x.missing.length) <<< 19) + at_ x.shards 6 + at_ x.bad 0)), (0x28, .w64 0)]).or
    (regArray o 0x40 8 4 (fun i => .w64 (if x.bound then leAt (slice x.wdigest 0 32) (8 * i) 8 else 0)))

/-- Sail plan and contexts (Tables 7.11, 8.9, 9.10). -/
def regSail (s : State) (o : Nat) : RegVal :=
  let l := s.sail
  ((lookReg o [(0, .w32 0), (4, .w32 (bit_ l.busy 31 + at_ l.step 27 + at_ l.status 16 + bit_ l.inForce 0)), (8, .w64 l.src.toNat),
    (0x10, .w32 l.len.toNat), (0x14, .w32 l.gen.toNat), (0x18, .w64 (at_ l.errStep 60 + at_ l.errDetail 48 + at_ l.errOffset 0)),
    (0x20, .w64 l.tag.toNat), (0x28, .w32 l.progErr.toNat)]).or
    (if 0x10000 ≤ o ∧ o < 0x11000 then s.regCtx ((o - 0x10000) / 0x100) (o % 0x100) else .none)).or
    (regArray o 0x20000 8 1024 (fun i =>
      let x := s.ctx (i / 64)
      .w64 (((upTo 64).map (fun b => if x.missing.contains (64 * (i % 64) + b) then 2 ^ b else 0)).foldl (· + ·) 0)))

/-- Outlier tables in use on a mast: plies of the plan in force with designated channels (log entry 81). -/
def tablesInUse (s : State) (m : Nat) : Nat :=
  ((upTo 16).map (fun c => ((s.pliesOf c).filter (fun p => decide (p.mast = m) && !p.dch.isEmpty)).length)).foldl (· + ·) 0

/-- MAST_LSQ_STAT (Table 8.10). -/
def lsqStat (s : State) (m : Nat) : Nat :=
  let x := s.stream m
  let wait := if s.reloadWait m then 4 else x.wait.toNat
  at_ x.op 48 + at_ x.ctx 44 + at_ x.group 40 + at_ x.layer 30 + at_ x.block 26 + (wait <<< 22) + bit_ x.busy 0

/-- The registers of mast m below its blocks (Tables 1.6, 2.14, 4.7, 5.6, 8.9, 12.9). -/
def regMastLow (s : State) (m o : Nat) : RegVal :=
  let x := s.mast m
  let t := s.stream m
  let n := s.spn m
  (lookReg o [(0x40, .w64 (at_ x.cause 60 + at_ x.tokens 32 + at_ x.duration 0)), (0x100, .w32 x.hostInt.toNat),
    (0x104, .w32 (at_ x.effInt 12 + at_ x.ageInt 8 + at_ x.tempInt 4 + bit_ x.rstFail 0)), (0x108, .w64 x.rstCycles.toNat),
    (0x130, .w32 (((x.wrQueue.length % 65536) <<< 16) + (s.runningWrites m).length % 256)),
    (0x140, .w32 x.splNonfin.toNat), (0x144, .w32 x.splZero.toNat), (0x148, .w32 (s.tablesInUse m)),
    (0x14C, .w32 (at_ x.splDed 16 + at_ x.splSec 0)), (0x180, .w32 x.kover.toNat), (0x184, .w32 x.accNonfin.toNat), (0x188, .w32 x.accSat.toNat),
    (0x190, .w64 x.accStall.toNat), (0x1C0, .w64 (s.lsqStat m)), (0x1C8, .w32 t.tmo.toNat), (0x1CC, .w32 t.subst.toNat),
    (0x1D0, .w64 t.rlstall.toNat), (0x1D8, .w32 (at_ t.errCause 28 + at_ t.errOp 0)),
    (0x200, .w32 ((min 64 (s.attBusy m) <<< 25) + bit_ t.buf1.isSome 24 + bit_ t.buf0.isSome 23 + min 65535 (s.attWaiting m))),
    (0x204, .w32 t.attEmpty.toNat), (0x208, .w64 t.attTokens.toNat), (0x210, .w32 t.vecSlow.toNat),
    (0x220, .w32 (bit_ n.opEn 31 + at_ n.opCount 16 + at_ n.opCtx 0)), (0x224, .w32 (at_ n.opState 30 + at_ n.fwLive 16 + at_ n.dropped 0)),
    (0x228, .w32 n.wdog.toNat), (0x230, .w64 (trapWord n))]).or
    (regArray o 0x110 4 8 (fun d => .w32 (bit_ ((s.die m d).powered && (s.die m d).valid) 31 + at_ (s.die m d).temp 0)))

/-- The array block of an array (Tables 2.15, 2.21 to 2.28). -/
def regArr (s : State) (m p o : Nat) : RegVal :=
  let a := s.arr m p
  lookReg o [(0, .w32 0),
    (4, .w32 ((arrStateCode a.st <<< 28) + bit_ a.retirePend 27 + bit_ a.queued 26 + bit_ a.cmdBusy 25 + at_ a.cmdStatus 16 + at_ a.cmdLast 12
      + at_ a.lmap 4 + at_ a.span 0)),
    (8, .w64 a.src.toNat), (0x10, .w32 (at_ a.colP 16 + at_ a.colL 6 + at_ a.cfgLmap 4 + at_ a.cfgSpan 0)), (0x14, .w32 (bit_ a.retired 0)),
    (0x18, .w32 a.clip.toNat), (0x1C, .w32 (at_ a.q4 16 + at_ a.q8 0)), (0x20, .w32 a.wcnt.toNat)]

/-- The splice block of an array (Tables 4.12, 4.13). -/
def regSpl (s : State) (m p o : Nat) : RegVal :=
  let x := s.spl m p
  lookReg o [(0, .w32 0), (4, .w32 ((splStateCode x.st <<< 30) + at_ x.lmap 28 + bit_ x.busy 27 + at_ x.maxCount 20 + at_ x.status 12
    + at_ x.entries 0)), (8, .w64 x.src.toNat)]

/-- The accumulator block of an accumulator (Tables 5.9, 5.10). -/
def regAcc (s : State) (m n o : Nat) : RegVal :=
  let a := s.acc m n
  lookReg o [(0, .w32 (bit_ a.bound 31 + bit_ (decide (256 < a.terms.toNat)) 30 + (tileCode a.t1.st <<< 28) + (tileCode a.t0.st <<< 26) + at_ a.outFmt 21 + at_ a.act 19
    + at_ a.terms 10 + at_ a.ply 0)), (8, .w64 (if a.bound then a.seed.toNat else 0)), (0x10, .w64 a.tiles.toNat)]

/-- A mast window (Table 21.3). -/
def regMast (s : State) (m o : Nat) : RegVal :=
  if o < 0x400000 then s.regMastLow m o
  else if o < 0x510000 then s.regArr m ((o - 0x400000) / 0x40) (o % 0x40)
  else if 0x600000 ≤ o ∧ o < 0x644000 then s.regSpl m ((o - 0x600000) / 0x10) (o % 0x10)
  else if 0x700000 ≤ o ∧ o < 0x702000 then s.regAcc m ((o - 0x700000) / 0x20) (o % 0x20)
  else .none

/-- The register at an offset of BAR0 (Table 21.1). -/
def bar0Reg (s : State) (spindle : Bool) (o : Nat) : RegVal :=
  if o < 0x100000 then s.regGlobal o spindle
  else if o < 0x200000 then s.regLink (o - 0x100000)
  else if o < 0x400000 then s.regSeq (o - 0x200000)
  else if o < 0x600000 then s.regKv (o - 0x400000)
  else if o < 0x800000 then s.regSmp (o - 0x600000)
  else if o < 0x880000 then s.regTrim (o - 0x800000)
  else if o < 0xA00000 then s.regAdc (o - 0x880000)
  else if o < 0xC00000 then s.regInt (o - 0xA00000)
  else if o < 0xE00000 then s.regPwr (o - 0xC00000)
  else if o < 0x1000000 then s.regRig (o - 0xE00000)
  else if o < 0x2000000 then s.regSail (o - 0x1000000)
  else if o < 0x4000000 then s.regMast ((o - 0x2000000) / 0x800000) (o % 0x800000)
  else .none

/-- The register at an offset of BAR2 (Table 21.4). -/
def bar2Reg (s : State) (o : Nat) : RegVal :=
  ((regArray o 0 8 4 (fun i => .w64 (s.sail.opkey.getD i 0).toNat)).or (if o = 0x20 then .w32 (bit_ s.sail.locked 0) else .none)).or
    (if 0x1000 ≤ o ∧ o < 0x2000 then s.regMbx (16 + (o - 0x1000) / 0x200) (o % 0x200) else .none)

/-- The register that a requester reaches. -/
def regAt (s : State) (bar2 spindle : Bool) (o : Nat) : RegVal := if bar2 then s.bar2Reg o else s.bar0Reg spindle o

/-- A 32-bit read of an aligned offset (R8, R9). -/
def read32 (s : State) (bar2 spindle : Bool) (o : Nat) : Nat :=
  match s.regAt bar2 spindle o with
  | .w32 v => v
  | .w64 v => v % 2 ^ 32
  | .none =>
    if o % 8 = 4 then
      match s.regAt bar2 spindle (o - 4) with
      | .w64 v => v / 2 ^ 32
      | _ => 0
    else 0

/-- A read of an access width: all ones where the access is not 32 or 64 bits wide and aligned (R8); two halves of 32 bits where no
64-bit register lies there (R462). -/
def readReg (s : State) (bar2 spindle : Bool) (o width : Nat) : Nat :=
  if width = 32 ∧ o % 4 = 0 then s.read32 bar2 spindle o
  else if width = 64 ∧ o % 8 = 0 then
    match s.regAt bar2 spindle o with
    | .w64 v => v
    | _ => s.read32 bar2 spindle o + s.read32 bar2 spindle (o + 4) * 2 ^ 32
  else 2 ^ width - 1

/-! Writes. Each function answers the state after the write, or none where no register of that width is written there. A command that
takes an operand from outside is left to its own row. -/

/-- A 4 KiB-aligned address field. -/
def addr4k (v : W64) : W64 := v &&& ~~~0xFFF

/-- A bit of a written word. -/
def wbit (v : W32) (i : Nat) : BitVec 1 := fld v i 1

def setGlobal32 (s : State) (o : Nat) (v : W32) (spindle : Bool) : Option State :=
  if o = 0x10 then some { s with clk := { s.clk with scratch := v } }
  else if !spindle && 0x10000 ≤ o && o < 0x10110 then
    let k := (o - 0x10000) / 16
    if o % 16 = 8 then some (s.setVec k { s.vec k with data := v })
    else if o % 16 = 12 then some (s.maskVec k (v.getLsbD 0))
    else none
  else none

/-- A write of a mailbox's registers; a spindle's behaves as the host's (R288). -/
def setMbx32 (s : State) (k o : Nat) (v : W32) : Option State :=
  if o = 8 then some (s.noticeField k 1 (v.setWidth 64))
  else if o = 0xC then some (s.noticeField k 2 (v.setWidth 64))
  else if o = 0x10 then
    let s := if v.getLsbD 1 then s.ack k else s
    some (if v.getLsbD 0 then s.doorbell k else s)
  else if o = 0x14 then some (s.modMbx k (fun x => { x with
    overrun := w1cB x.overrun (wbit v 28)
    wrRej := w1cB x.wrRej (wbit v 27)
    cleatRej := w1cB x.cleatRej (wbit v 26) }))
  else if 0x100 ≤ o ∧ o < 0x200 then some (s.cleatWrite k v)
  else none

def setLink32 (s : State) (o : Nat) (v : W32) : Option State :=
  if o = 8 then some { s with genCause := w1c s.genCause (fld v 0 11) }
  else if o = 0xC then
    let s' : State := { s with genEn := fld v 0 11 }
    some (if s.genCause &&& s'.genEn &&& ~~~s.genEn = 0 then s' else s'.raise 3)
  else if o = 0x10 then some { s with link := { s.link with secRej := v } }
  else if 0x40 ≤ o ∧ o < 0x84 then
    let k := (o - 0x40) / 4
    some (s.setVec k { s.vec k with holdoff := fld v 0 16 })
  else if 0x1000 ≤ o ∧ o < 0x3000 then s.setMbx32 ((o - 0x1000) / 0x200) (o % 0x200) v
  else none

def setSeq32 (s : State) (o : Nat) (v : W32) : Option State :=
  let q := s.seq
  if o = 0 then some (s.seqCtlWrite v [] 0)
  else if o = 4 then some { s with seq := { q with
    cqErr := w1cB q.cqErr (wbit v 31)
    fetchErr := w1cB q.fetchErr (wbit v 29)
    cplErr := w1cB q.cplErr (wbit v 28) } }
  else if o = 0x10 then some (if q.enable then s else { s with seq := { q with cqSize := fld v 0 17 } })
  else if o = 0x1C then some (if q.enable then s else { s with seq := { q with cplSize := fld v 0 17 } })
  else if o = 0x4C then some { s with seq := { q with sel := fld v 0 17 } }
  else if o = 0x50 then some { s with seq := { q with expired := v } }
  else if o = 0x54 then some { s with seq := { q with promoted := v } }
  else if o = 0x100 then some { s with xregs := { s.xregs with handle := v } }
  else if o = 0x104 then
    let c := (fld v 0 4).toNat
    some (if c = 0 then s else if c = 1 then s.xApply else if c = 2 then s.xFetch
      else ({ s with xregs := { s.xregs with status := sBadCommand } }).cause gSeqx)
  else none

def setKv32 (s : State) (o : Nat) (v : W32) : Option State :=
  let k := s.kv
  if o = 0 then some { s with kv := { k with
    starved := w1cB k.starved (wbit v 30)
    lost := w1cB k.lost (wbit v 29)
    wrRej := w1cB k.wrRej (wbit v 28) } }
  else if o = 4 then some { s with kv := { k with retain := fld v 0 16 } }
  else if o = 0x10 then some (s.kvHostWrite true (v.setWidth 64))
  else if o = 0x1C then some { s with kv := { k with starve := v } }
  else if 0x20 ≤ o ∧ o < 0x40 then some { s with kv := { k with floors := k.floors.set ((o - 0x20) / 4) (fld v 0 22) } }
  else if o = 0x98 then some { s with kv := { k with ctxSel := fld v 0 4 } }
  else if o = 0xC8 then some { s with kv := { k with psel := fld v 0 25 } }
  else if o = 0xCC then some { s with kv := { k with lostCnt := v } }
  else if o = 0x100 then
    let c := (fld v 0 4).toNat
    some (if c = 0 then s else if c = 1 then s.pfxLoad (fld v 16 13).toNat else if c = 2 then s.pfxClear else s.pfxRefuse sBadCommand)
  else if o = 0x110 then some { s with kv := { k with
    pfxSelCtx := fld v 28 4
    pfxSelSlot := fld v 0 12 } }
  else none

def setSmp32 (s : State) (o : Nat) (v : W32) : Option State :=
  let m := s.smp
  if o = 4 then some { s with smp := { m with faults := v } }
  else if o = 8 then some { s with smp := { m with full := v } }
  else if o = 0x1000 then some { s with smp := { m with pollUs := fld v 0 16 } }
  else if o = 0x1004 then some { s with smp := { m with
    badHead := w1cB m.badHead (wbit v 31)
    wrErr := w1cB m.wrErr (wbit v 30)
    kickRej := w1cB m.kickRej (wbit v 29)
    headErr := w1cB m.headErr (wbit v 28) } }
  else if o = 0x1020 then some { s with smp := { m with err := v } }
  else none

def setTrim32 (s : State) (o : Nat) (v : W32) : Option State :=
  let t := s.trim
  let c := (fld v 0 4).toNat
  if o = 0 then some (if c = 0 then s else if c = 1 then s.trimSave else if c = 2 then s.trimRestore else s.trimRefuse sBadCommand)
  else if o = 4 then some { s with trim := { t with
    wrRej := w1cB t.wrRej (wbit v 27)
    skipped := w1cB t.skipped (wbit v 26) } }
  else if o = 8 then some { s with trim := { t with mask := v } }
  else if o = 0x18 then some { s with trim := { t with sel := v &&& 0xFFFF87FF } }
  else if o = 0x1C then some (s.setHold (v.getLsbD 0))
  else if o = 0x30 then some { s with trim := { t with voidCnt := v } }
  else if o = 0x40008 then some (if c = 1 then s.ageSave else if 3 ≤ c then s.ageRefuse sBadCommand else s)
  else if o = 0x40018 then some { s with age := { s.age with sel := v &&& 0xF800007F } }
  else none

def setAdc32 (s : State) (o : Nat) (v : W32) : Option State :=
  let a := s.adc
  let c := (fld v 0 4).toNat
  if o = 0 then some (if c = 0 then s else if c = 1 then s.selfcal else if c = 2 then s.adcAbort else if c = 3 then s.adcSave
    else if c = 4 then s.adcRestore else s.adcRefuse sBadCommand)
  else if o = 4 then some { s with adc := { a with wrRej := w1cB a.wrRej (wbit v 27) } }
  else if o = 8 then some { s with adc := { a with mask := v } }
  else if o = 0x18 then some { s with adc := { a with sel := v &&& 0xFFFF80FF } }
  else if o = 0x28 then some (s.adcMap v)
  else if 0x30 ≤ o ∧ o < 0x40 then some (s.modMast ((o - 0x30) / 4) (fun x => { x with adcMeta := v }))
  else none

def setInt32 (s : State) (o : Nat) (v : W32) : Option State :=
  let g := s.integ
  let r := s.recorder
  if o = 0 then some { s with integ := { g with
    plausWide := fld v 16 8
    refMult := fld v 8 8
    kakTol := fld v 0 8 } }
  else if o = 4 then some { s with integ := { g with
    logOvf := w1cB g.logOvf (wbit v 31)
    fatalFull := w1cB g.fatalFull (wbit v 30)
    restartTmo := w1cB g.restartTmo (wbit v 28)
    ctxFatal := w1c g.ctxFatal (fld v 0 16) } }
  else if o = 0xC then some (s.logHeadWrite v)
  else if o = 0x14 then some { s with integ := { g with lost := v } }
  else if o = 0x18 then some { s with integ := { g with sel := v } }
  else if o = 0x48 then some { s with integ := { g with jobTmo := v } }
  else if o = 0x4C then some { s with integ := { g with foreign := v } }
  else if o = 0x60 then some { s with integ := { g with
    digEn := v.getLsbD 31
    digLog2 := fld v 0 6 } }
  else if o = 0x100 then some (s.recCtlWrite v)
  else if o = 0x104 then some { s with recorder := { r with
    ovf := w1cB r.ovf (wbit v 31)
    armRej := w1cB r.armRej (wbit v 30) } }
  else if o = 0x108 then some (if r.en then s else { s with recorder := { r with size := fld v 0 9 } })
  else if o = 0x110 then some (s.recHeadWrite v)
  else if o = 0x114 then some (s.recArm v)
  else if o = 0x118 then some (s.recDisarm v)
  else if o = 0x11C then some { s with recorder := { r with dropped := v } }
  else if o = 0x120 then
    let c := (fld v 0 4).toNat
    some (if c = 0 then s else if c = 1 then s.replay else if c = 2 then s.rplAbort else s.rplRefuse sBadCommand)
  else if o = 0x130 then some { s with rpl := { s.rpl with len := v } }
  else if o = 0x134 then some { s with rpl := { s.rpl with gap := fld v 0 8 } }
  else none

def setPwr32 (s : State) (o : Nat) (v : W32) : Option State :=
  let p := s.pwr
  let l := s.lan
  if o = 0 then some { s with pwr := { p with autoMax := fld v 30 2 } }
  else if o = 4 then
    let c := (fld v 0 4).toNat
    some (if c = 1 then s.pwrSail (fld v 8 4) else if c = 2 then s.pwrReef (fld v 8 4) else if c = 3 then s.pwrDouse (fld v 8 4)
      else if c = 4 then s.pwrFurl else s.pwrBadCommand (fld v 0 4))
  else if o = 8 then some { s with pwr := { p with
    uv := w1cB p.uv (wbit v 21)
    therm := w1cB p.therm (wbit v 20)
    limitSeen := w1cB p.limitSeen (wbit v 19) } }
  else if o = 0xC then some { s with pwr := { p with limit := fld v 0 12 } }
  else if o = 0x20 then some { s with pwr := { p with retain := fld v 0 16 } }
  else if o = 0x24 then some { s with pwr := { p with throttled := v } }
  else if o = 0x40 then some { s with lan := { l with
    resetEn := v.getLsbD 2
    sleepEn := v.getLsbD 1
    wakeEn := v.getLsbD 0 } }
  else if o = 0x44 then some { s with lan := { l with
    stuckSeen := w1cB l.stuckSeen (wbit v 30)
    noisySeen := w1cB l.noisySeen (wbit v 28) } }
  else if o = 0x48 then some { s with lan := { l with bad := v } }
  else if o = 0x4C then some { s with lan := { l with rej := v } }
  else none

def setRig32 (s : State) (o : Nat) (v : W32) : Option State :=
  let r := s.rig
  if o = 8 then some { s with rig := { r with
    noRoute := w1cB r.noRoute (wbit v 31)
    flowGap := w1cB r.flowGap (wbit v 30)
    foreign := w1cB r.foreign (wbit v 29)
    portDis := w1cB r.portDis (wbit v 28) } }
  else if o = 0x10 then some { s with rig := { r with cntNoRoute := v } }
  else if o = 0x14 then some { s with rig := { r with cntMisroute := v } }
  else if o = 0x18 then some { s with rig := { r with cntHdrErr := v } }
  else if o = 0x1C then some { s with rig := { r with cntDropped := v } }
  else if o = 0x20 then some { s with rig := { r with cntFlowGap := v } }
  else if o = 0x28 then some { s with rig := { r with routeSel := fld v 0 17 } }
  else if 0x1000 ≤ o ∧ o < 0x1800 then
    let p := (o - 0x1000) / 0x40
    if o % 0x40 = 0 then some (if v.getLsbD 30 then s.portRetrain p (v.getLsbD 31) else s.portEn p (v.getLsbD 31))
    else if o % 0x40 = 0x10 then some (s.modPort p (fun x => { x with uncor := v }))
    else if o % 0x40 = 0x14 then some (s.modPort p (fun x => { x with resend := v }))
    else none
  else none

def setSail32 (s : State) (o : Nat) (v : W32) : Option State :=
  if o = 0 then
    let c := (fld v 0 4).toNat
    some (if c = 2 then s.sailAbort else if 3 ≤ c then s.sailBadCommand else s)
  else if o = 0x10 then some { s with sail := { s.sail with len := v } }
  else if 0x10000 ≤ o ∧ o < 0x11000 then
    let c := (o - 0x10000) / 0x100
    let r := o % 0x100
    if r = 0x18 then
      let k := (fld v 0 4).toNat
      some (if k = 0 then s else if k = 1 then s.wload c else if k = 2 then s.start c else if k = 3 then s.stop c else if k = 4 then s.wabort c
        else s.ctxBadCommand c)
    else if r = 0x1C then some (s.modCtx c (fun x => { x with postRej := w1cB x.postRej (wbit v 26) }))
    else if r = 0x20 then some (s.modCtx c (fun x => { x with loadTmo := v }))
    else none
  else none

def setMastLow32 (s : State) (m o : Nat) (v : W32) : Option State :=
  if o = 0x100 then some (s.modMast m (fun x => { x with hostInt := fld v 0 2 }))
  else if o = 0x140 then some (s.modMast m (fun x => { x with splNonfin := v }))
  else if o = 0x144 then some (s.modMast m (fun x => { x with splZero := v }))
  else if o = 0x14C then some (s.modMast m (fun x => { x with
    splDed := fld v 16 16
    splSec := fld v 0 16 }))
  else if o = 0x180 then some (s.modMast m (fun x => { x with kover := v }))
  else if o = 0x184 then some (s.modMast m (fun x => { x with accNonfin := v }))
  else if o = 0x188 then some (s.modMast m (fun x => { x with accSat := v }))
  else if o = 0x1C8 then some (s.modStream m (fun x => { x with tmo := v }))
  else if o = 0x1CC then some (s.modStream m (fun x => { x with subst := v }))
  else if o = 0x204 then some (s.modStream m (fun x => { x with attEmpty := v }))
  else if o = 0x210 then some (s.modStream m (fun x => { x with vecSlow := v }))
  else if o = 0x220 then some (s.spnCtlWrite m v)
  else if o = 0x228 then some (s.modSpn m (fun x => { x with wdog := v }))
  else none

/-- A write in an array block; `host`: the host issues its command, not firmware (R50). -/
def setArr32 (s : State) (m p o : Nat) (v : W32) (host : Bool) : Option State :=
  if o = 0 then
    let c := (fld v 0 4).toNat
    some (if c = 0 then s else if c = 1 then s.writeCmd m p host else if c = 2 then s.colwriteCmd m p host else if c = 3 then s.abortCmd m p host
      else if c = 4 then s.discardCmd m p host else s.arrBadCommand m p host)
  else if o = 0x10 then some (s.modArr m p (fun a => { a with
    colP := fld v 16 11
    colL := fld v 6 10
    cfgLmap := fld v 4 2
    cfgSpan := fld v 0 4 }))
  else if o = 0x14 then some (if v.getLsbD 0 then s.retire m p else s.unretire m p)
  else if o = 0x18 then some (s.modArr m p (fun a => { a with clip := v }))
  else none

/-- A write in a splice block; `host`: the host issues its command, not firmware, which may issue to any region (R92). -/
def setSpl32 (s : State) (m p o : Nat) (v : W32) (host : Bool) : Option State :=
  if o = 0 then
    let c := (fld v 0 4).toNat
    some (if c = 0 then s else if c = 1 then s.splLoad m p (fld v 4 2) host else if c = 2 then s.splClear m p host
      else s.splRefuse m p host sBadCommand)
  else none

def setMast32 (s : State) (m o : Nat) (v : W32) (host : Bool) : Option State :=
  if o < 0x400000 then s.setMastLow32 m o v
  else if o < 0x510000 then s.setArr32 m ((o - 0x400000) / 0x40) (o % 0x40) v host
  else if 0x600000 ≤ o ∧ o < 0x644000 then s.setSpl32 m ((o - 0x600000) / 0x10) (o % 0x10) v host
  else none

/-- A write of a 32-bit register. -/
def set32 (s : State) (bar2 spindle : Bool) (o : Nat) (v : W32) : Option State :=
  if bar2 then (if 0x1000 ≤ o ∧ o < 0x2000 then s.setMbx32 (16 + (o - 0x1000) / 0x200) (o % 0x200) v else none)
  else if o < 0x100000 then s.setGlobal32 o v spindle
  else if o < 0x200000 then s.setLink32 (o - 0x100000) v
  else if o < 0x400000 then s.setSeq32 (o - 0x200000) v
  else if o < 0x600000 then s.setKv32 (o - 0x400000) v
  else if o < 0x800000 then s.setSmp32 (o - 0x600000) v
  else if o < 0x880000 then s.setTrim32 (o - 0x800000) v
  else if o < 0xA00000 then s.setAdc32 (o - 0x880000) v
  else if o < 0xC00000 then s.setInt32 (o - 0xA00000) v
  else if o < 0xE00000 then s.setPwr32 (o - 0xC00000) v
  else if o < 0x1000000 then s.setRig32 (o - 0xE00000) v
  else if o < 0x2000000 then s.setSail32 (o - 0x1000000) v
  else if o < 0x4000000 then s.setMast32 ((o - 0x2000000) / 0x800000) (o % 0x800000) v (!spindle)
  else none

/-- The four registers that take only whole writes (R9): CTX_SHARD, SEQ_HINT, ADC_FACTOR, SAIL_OPKEY. -/
def wholeOnly (bar2 : Bool) (o : Nat) : Bool :=
  if bar2 then decide (o < 0x20)
  else decide (o = 0x200038) || decide (o = 0x880020) || (decide (0x1010000 ≤ o) && decide (o < 0x1011000) && decide (o % 0x100 = 0x28))

/-- A write of a 64-bit register. -/
def set64 (s : State) (bar2 spindle : Bool) (o : Nat) (v : W64) : Option State :=
  if bar2 then
    if o < 0x20 then some (s.opkeyWrite (o / 8) v)
    else if 0x1000 ≤ o ∧ o < 0x2000 ∧ o % 0x200 = 0 then
      let k := 16 + (o - 0x1000) / 0x200
      some (s.noticeField k 0 v)
    else none
  else if o < 0x100000 then
    if !spindle && 0x10000 ≤ o && o < 0x10110 && o % 16 = 0 then
      let k := (o - 0x10000) / 16
      some (s.setVec k { s.vec k with addr := v })
    else none
  else if 0x101000 ≤ o ∧ o < 0x103000 ∧ o % 0x200 = 0 then
    let k := (o - 0x101000) / 0x200
    some (s.noticeField k 0 v)
  else if o = 0x200008 then some (if s.seq.enable then s else { s with seq := { s.seq with cqBase := addr4k v } })
  else if o = 0x200020 then some (if s.seq.enable then s else { s with seq := { s.seq with cplBase := addr4k v } })
  else if o = 0x200038 then some (s.hintWrite v)
  else if 0x200110 ≤ o ∧ o < 0x200150 then
    some { s with xregs := { s.xregs with ranges := s.xregs.ranges.set ((o - 0x200110) / 8) (v &&& 0x801FFFFF001FFFFF) } }
  else if o = 0x400008 then some (s.kvHostWrite false v)
  else if o = 0x400108 then some { s with kv := { s.kv with pfxSrc := addr4k v } }
  else if o = 0x800010 then some { s with trim := { s.trim with buf := addr4k v } }
  else if o = 0x800020 then some (s.trimColWrite v)
  else if o = 0x840010 then some { s with age := { s.age with buf := addr4k v } }
  else if o = 0x880010 then some { s with adc := { s.adc with buf := addr4k v } }
  else if o = 0x880020 then some (s.adcFactor v)
  else if o = 0xA00068 then some { s with integ := { s.integ with digBuf := addr4k v } }
  else if o = 0xA00128 then some { s with rpl := { s.rpl with src := addr4k v } }
  else if o = 0x1000008 then some { s with sail := { s.sail with src := addr4k v } }
  else if 0x1010000 ≤ o ∧ o < 0x1011000 then
    let c := (o - 0x1010000) / 0x100
    if o % 0x100 = 0x10 then some (s.wbaseWrite c v)
    else if o % 0x100 = 0x28 then some (s.shardPost c v)
    else none
  else if 0x2000000 ≤ o ∧ o < 0x4000000 then
    let m := (o - 0x2000000) / 0x800000
    let r := o % 0x800000
    if 0x400000 ≤ r ∧ r < 0x510000 ∧ r % 0x40 = 8 then some (s.modArr m ((r - 0x400000) / 0x40) (fun a => { a with src := addr4k v }))
    else if 0x600000 ≤ r ∧ r < 0x644000 ∧ r % 0x10 = 8 then some (s.modSpl m ((r - 0x600000) / 0x10) (fun x => { x with src := addr4k v }))
    else none
  else none

/-- The value that a 64-bit register holds for a write of one half (R9): what it reads, or what an earlier write left waiting: of TRIM_COL
for the next boundary (R121), of CTX_WBASE for the end of the drain (R199). -/
def heldValue (s : State) (b old : Nat) : Nat :=
  if b = 0x800020 then
    (if s.trimSelOk then
      let w := s.latestCol s.trimMast s.trimArr s.trimWord
      at_ w.cg 40 + at_ w.co 24
    else old)
  else if 0x1010000 ≤ b ∧ b < 0x1011000 ∧ b % 0x100 = 0x10 then
    (match (s.ctx ((b - 0x1010000) / 0x100)).heldWbase with
      | some a => a.toNat
      | none => old)
  else old

/-- A 32-bit write: of a 32-bit register, or of one half of a 64-bit one, whose other half keeps its value (R9). -/
def write32 (s : State) (bar2 spindle : Bool) (o : Nat) (v : W32) : State :=
  match s.set32 bar2 spindle o v with
  | some t => t
  | none =>
    let b := o / 8 * 8
    match s.regAt bar2 spindle b with
    | .w64 old =>
      if wholeOnly bar2 b then s
      else
        let old := if bar2 then old else s.heldValue b old
        let new := if o % 8 = 0 then old / 2 ^ 32 * 2 ^ 32 + v.toNat else v.toNat * 2 ^ 32 + old % 2 ^ 32
        (s.set64 bar2 spindle b (BitVec.ofNat 64 new)).getD s
    | _ => s

/-- Blocks of BAR0 that answer in RECOVERY (R432). -/
def answersInRecovery (o : Nat) : Bool := decide (o < 0x200000) || (decide (0xC00000 ≤ o) && decide (o < 0xE00000))

/-- REGISTER_WRITE (R5 to R9, R462, R334, R388, R432): a write of `width` bits at an offset of BAR0 or BAR2, by the host or a spindle. -/
def registerWrite (s : State) (bar2 spindle : Bool) (o width : Nat) (v : W64) : State :=
  if s.devFatal ∨ s.clk.state = 0 ∨ s.pwr.furled ∨ (bar2 ∧ spindle) then s
  else if bar2 ∧ !s.link.bound then s.bar2Reject 0
  else if s.clk.state = 2 ∧ !bar2 ∧ !answersInRecovery o then s
  else if width = 32 ∧ o % 4 = 0 then s.write32 bar2 spindle o (v.setWidth 32)
  else if width = 64 ∧ o % 8 = 0 then
    match s.set64 bar2 spindle o v with
    | some t => t
    | none =>
      match s.regAt bar2 spindle o with
      | .w64 _ => s
      | _ => (s.write32 bar2 spindle o (v.setWidth 32)).write32 bar2 spindle (o + 4) ((v >>> 32).setWidth 32)
  else s

end State

end Sys2Proof.Machine
end

