-- ==== Sys2Proof/Machine/RunBeat.lean ====
section
/-! DEFINITION. Commands on the device as a whole: a register write, the end of a beat, the end of a slice. -/

namespace Sys2Proof.Machine

/-- REGISTER_WRITE (R5 to R9, R462): `width` bits of `v` at offset `o` of BAR2 or of BAR0, written by a spindle or by the
host. -/
def execRegisterWrite (bar2 : Bool) (spindle : Bool) (o : Nat) (width : Nat) (v : W64)
    (s : State) : Host.Outcome State Fault Refusal :=
  act (decide (o < 2 ^ 32)) s (fun s => s.registerWrite bar2 spindle o width v)

/-- BEAT_BOUNDARY (R15, R469): the beat ends once every batch has completed its work; `terms` are what it measured of the
masts (R470), `stores` the failures of the sequence engine's stores that were met. A formation that needs a sleeping mast
wakes it (Table 18.3). -/
def execBeatBoundary (terms : List MastTerms) (stores : List StoreFault) (s : State) : Host.Outcome State Fault Refusal :=
  act (true) s (fun s => ((stores.foldl State.storeFault s).beatBoundary terms).wakeForWork)

/-- SLICE_EXPIRED (R159). -/
def execSliceExpired (s : State) : Host.Outcome State Fault Refusal :=
  act (true) s (fun s => s.sliceExpired)

end Sys2Proof.Machine
end

