-- ==== Sys2Proof/Machine/RunBoot.lean ====
section
/-! DEFINITION. Clock failures, resets, the ROM and the cores (chapter 19). -/

namespace Sys2Proof.Machine

/-- CRYSTAL_FAILURE (R421). -/
def execCrystalFailure (s : State) : Host.Outcome State Fault Refusal :=
  act (true) s (fun s => s.crystalFailure)

/-- ROOT_PLL_UNLOCK (R421). -/
def execRootPllUnlock (s : State) : Host.Outcome State Fault Refusal :=
  act (true) s (fun s => s.rootUnlock)

/-- HBM_PLL_UNLOCK (R421). -/
def execHbmPllUnlock (k : Nat) (s : State) : Host.Outcome State Fault Refusal :=
  act (okStack k) s (fun s => s.hbmUnlock k)

/-- OPTICAL_PLL_UNLOCK (R421). -/
def execOpticalPllUnlock (e : Nat) (s : State) : Host.Outcome State Fault Refusal :=
  act (okEngine e) s (fun s => s.opticalUnlock e)

/-- OPTICAL_PLL_LOCK (R421). -/
def execOpticalPllLock (e : Nat) (s : State) : Host.Outcome State Fault Refusal :=
  act (okEngine e) s (fun s => s.opticalLock e)

/-- COLD_RESET (R423). -/
def execColdReset (s : State) : Host.Outcome State Fault Refusal :=
  actReset (true) s (fun s => s.coldState)

/-- ROM_BOOT (R432, R434). -/
def execRomBoot (s : State) : Host.Outcome State Fault Refusal :=
  actFlash (true) s (fun s => s.romBoot)

/-- FIRMWARE_RELEASE (R433). -/
def execFirmwareRelease (s : State) : Host.Outcome State Fault Refusal :=
  actBoot (true) s (fun s => s.firmwareRelease)

/-- MGMT_WATCHDOG (R437). -/
def execMgmtWatchdog (s : State) : Host.Outcome State Fault Refusal :=
  act (true) s (fun s => s.mgmtWatchdog)

/-- SECURITY_CORE_FAULT (R437). -/
def execSecurityCoreFault (s : State) : Host.Outcome State Fault Refusal :=
  act (true) s (fun s => s.securityFault)

end Sys2Proof.Machine
end

