-- ==== Sys2Proof/Machine/RunConvert.lean ====
section
/-! DEFINITION. Commands and events of the converters (chapter 3). -/

namespace Sys2Proof.Machine

/-- ADC_SELFCAL (R63, R64, R68). -/
def execAdcSelfcal (s : State) : Host.Outcome State Fault Refusal :=
  act (s.hostMay) s (fun s => s.selfcal)

/-- ADC_SELFCAL_PHASE_END (R64 to R66): the readings of the converters are operands. -/
def execAdcSelfcalPhaseEnd (meas : List ArrMeas) (dflt : CalMeas) (last : Bool)
    (s : State) : Host.Outcome State Fault Refusal :=
  act (true) s (fun s => s.selfcalPhaseEnd meas dflt last)

/-- ADC_ABORT (R68). -/
def execAdcAbort (s : State) : Host.Outcome State Fault Refusal :=
  act (s.hostMay) s (fun s => s.adcAbort)

/-- ADC_SAVE (R71). -/
def execAdcSave (s : State) : Host.Outcome State Fault Refusal :=
  act (s.hostMay) s (fun s => s.adcSave)

/-- ADC_SAVE_COMPLETE (R71). -/
def execAdcSaveComplete (s : State) : Host.Outcome State Fault Refusal :=
  act (true) s (fun s => s.adcSaveComplete)

/-- ADC_RESTORE (R72). -/
def execAdcRestore (s : State) : Host.Outcome State Fault Refusal :=
  act (s.hostMay) s (fun s => s.adcRestore)

/-- ADC_RESTORE_COMPLETE (R72): the set as read, none for a link error. -/
def execAdcRestoreComplete (set : Option (List Byte)) (s : State) : Host.Outcome State Fault Refusal :=
  act (true) s (fun s => s.adcRestoreComplete set)

/-- ADC_FACTOR_WRITE (R73). -/
def execAdcFactorWrite (v : W64) (s : State) : Host.Outcome State Fault Refusal :=
  act (s.hostMay) s (fun s => s.adcFactor v)

/-- ADC_MAP_WRITE (R54, R73). -/
def execAdcMapWrite (v : W32) (s : State) : Host.Outcome State Fault Refusal :=
  act (s.hostMay) s (fun s => s.adcMap v)

end Sys2Proof.Machine
end

