-- ==== Sys2Proof/Machine/RunInteg.lean ====
section
/-! DEFINITION. Commands and events of the error log, the digests and the job halt (chapter 14). -/

namespace Sys2Proof.Machine

/-- INT_LOG_HEAD_WRITE (R336). -/
def execIntLogHeadWrite (v : W32) (s : State) : Host.Outcome State Fault Refusal :=
  act (s.hostMay) s (fun s => s.logHeadWrite v)

/-- INT_LOG_DATA_READ (R463). -/
def execIntLogDataRead (s : State) : Host.Outcome State Fault Refusal :=
  act (s.hostReads) s (fun s => s.logRead)

/-- DIGEST_ROUND_END (R326): arrays whose digest mismatched once, and whether again; shards likewise, with the second digest where that
mismatches. -/
def execDigestRoundEnd (cells : List (Nat × Nat × Bool)) (shards : List (Nat × Nat × Option (List Byte)))
    (s : State) : Host.Outcome State Fault Refusal :=
  act (true) s (fun s => s.digestRoundEnd cells shards)

/-- JOB_HALT (R339): a delivered message, or an error found here that no other row brings (R318, R319; log entry 138). -/
def execJobHalt (found : Option Found) (s : State) : Host.Outcome State Fault Refusal :=
  act (found.all okFound) s (fun s => s.jobHalt found)

/-- VERIFY_COMPLETE (R340, Table 14.8): pages that fail their check values, and whether again. -/
def execVerifyComplete (pages : List (Nat × Bool)) (s : State) : Host.Outcome State Fault Refusal :=
  act (true) s (fun s => s.verifyComplete pages)

/-- RESTART_READY (R340, R372). -/
def execRestartReady (s : State) : Host.Outcome State Fault Refusal :=
  act (true) s (fun s => s.restartReady)

/-- RESUME_MESSAGE (R340). -/
def execResumeMessage (s : State) : Host.Outcome State Fault Refusal :=
  act (true) s (fun s => s.resumeMessage)

/-- RESTART_TIMEOUT (R342). -/
def execRestartTimeout (s : State) : Host.Outcome State Fault Refusal :=
  act (true) s (fun s => s.restartTimeout)

/-- RESTART_READY_RESEND (R372). -/
def execRestartReadyResend (s : State) : Host.Outcome State Fault Refusal :=
  act (true) s (fun s => s.readyResend)

/-- JOB_HALT_RESEND (R372). -/
def execJobHaltResend (s : State) : Host.Outcome State Fault Refusal :=
  act (true) s (fun s => s.haltResend)

end Sys2Proof.Machine
end

