-- ==== Sys2Proof/Machine/RunLanyard.lean ====
section
/-! DEFINITION. Frames and events of the lanyard (chapter 18). -/

namespace Sys2Proof.Machine

/-- NOP (R414): ADDR_KIND and ADDR of the frame, as for the frames below. -/
def execNop (kind : Nat) (addr : Nat) (s : State) : Host.Outcome State Fault Refusal :=
  act (decide (kind < 4) && decide (addr < 131072)) s (fun s => s.lanNop kind addr)

/-- WAKE (R414). -/
def execWake (kind : Nat) (addr : Nat) (s : State) : Host.Outcome State Fault Refusal :=
  act (decide (kind < 4) && decide (addr < 131072)) s (fun s => s.lanWake kind addr)

/-- REEF (R414). -/
def execReef (kind : Nat) (addr : Nat) (s : State) : Host.Outcome State Fault Refusal :=
  act (decide (kind < 4) && decide (addr < 131072)) s (fun s => s.lanReef kind addr)

/-- DOUSE (R414). -/
def execDouse (kind : Nat) (addr : Nat) (s : State) : Host.Outcome State Fault Refusal :=
  act (decide (kind < 4) && decide (addr < 131072)) s (fun s => s.lanDouse kind addr)

/-- FURL (R414). -/
def execFurl (kind : Nat) (addr : Nat) (s : State) : Host.Outcome State Fault Refusal :=
  act (decide (kind < 4) && decide (addr < 131072)) s (fun s => s.lanFurl kind addr)

/-- RESET (R414). -/
def execReset (kind : Nat) (addr : Nat) (payload : Nat) (s : State) : Host.Outcome State Fault Refusal :=
  actReset (decide (kind < 4) && decide (addr < 131072)) s (fun s => s.lanReset kind addr payload)

/-- LANYARD_BAD_FRAME (R413). -/
def execLanyardBadFrame (s : State) : Host.Outcome State Fault Refusal :=
  act (true) s (fun s => s.lanBad)

/-- LANYARD_STUCK (R415); whether a frame was in progress. -/
def execLanyardStuck (inFrame : Bool) (s : State) : Host.Outcome State Fault Refusal :=
  act (true) s (fun s => s.lanStuck inFrame)

/-- LANYARD_UNSTUCK (R415). -/
def execLanyardUnstuck (s : State) : Host.Outcome State Fault Refusal :=
  act (true) s (fun s => s.lanUnstuck)

/-- LANYARD_WINDOW_END (R416). -/
def execLanyardWindowEnd (s : State) : Host.Outcome State Fault Refusal :=
  act (true) s (fun s => s.lanWindow)

/-- LANYARD_RESERVED_CMD (R414). -/
def execLanyardReservedCmd (kind : Nat) (addr : Nat) (s : State) : Host.Outcome State Fault Refusal :=
  act (decide (kind < 4) && decide (addr < 131072)) s (fun s => s.lanReserved kind addr)

end Sys2Proof.Machine
end

