-- ==== Sys2Proof/Machine/RunLayer.lean ====
section
/-! DEFINITION. The operations of layer programs (chapter 8). -/

namespace Sys2Proof.Machine

/-- PLY_MVM (R169); `bad`: a block that fails its check value when the operation reads it (R317), as for the operations below.
-/
def execPlyMvm (m : Nat) (bad : Option BlkFail) (s : State) : Host.Outcome State Fault Refusal :=
  act (okMast m && s.mastRuns m) s (fun s => s.runPlies m cPlyMvm bad)

/-- SPLICE (R172). -/
def execSplice (m : Nat) (bad : Option BlkFail) (s : State) : Host.Outcome State Fault Refusal :=
  act (okMast m && s.mastRuns m) s (fun s => s.runPlies m cSplice bad)

/-- ATTEND (R173, R282). -/
def execAttend (m : Nat) (bad : Option BlkFail) (s : State) : Host.Outcome State Fault Refusal :=
  act (okMast m && s.mastRuns m) s (fun s => s.attend m bad)

/-- ATTEND_JOB_START (R282, R275 to R281): the next job runs whole; `pages` fail their check values when read, and whether
again. -/
def execAttendJobStart (m : Nat) (pages : List (Nat × Bool)) (s : State) : Host.Outcome State Fault Refusal :=
  act (okMast m && s.mastRuns m) s (fun s => s.attendJob m pages)

/-- EXPAND (R173). -/
def execExpand (m : Nat) (bad : Option BlkFail) (s : State) : Host.Outcome State Fault Refusal :=
  act (okMast m && s.mastRuns m) s (fun s => s.expand m bad)

/-- NORM (R174); `slow` elements took the slow path (MAST_VEC_SLOW), as in ROPE and ACT. -/
def execNorm (m : Nat) (bad : Option BlkFail) (slow : Nat) (s : State) : Host.Outcome State Fault Refusal :=
  act (okMast m && s.mastRuns m) s (fun s => s.norm m bad slow)

/-- ROPE (R174). -/
def execRope (m : Nat) (bad : Option BlkFail) (slow : Nat) (s : State) : Host.Outcome State Fault Refusal :=
  act (okMast m && s.mastRuns m) s (fun s => s.rope m bad slow)

/-- ACT (R174). -/
def execAct (m : Nat) (bad : Option BlkFail) (slow : Nat) (s : State) : Host.Outcome State Fault Refusal :=
  act (okMast m && s.mastRuns m) s (fun s => s.act m bad slow)

/-- ADD (R174). -/
def execAdd (m : Nat) (bad : Option BlkFail) (s : State) : Host.Outcome State Fault Refusal :=
  act (okMast m && s.mastRuns m) s (fun s => s.addOp m bad)

/-- SCALE (R174). -/
def execScale (m : Nat) (bad : Option BlkFail) (s : State) : Host.Outcome State Fault Refusal :=
  act (okMast m && s.mastRuns m) s (fun s => s.scale m bad)

/-- SEND (R175). -/
def execSend (m : Nat) (bad : Option BlkFail) (s : State) : Host.Outcome State Fault Refusal :=
  act (okMast m && s.mastRuns m) s (fun s => s.send m bad)

/-- RECV (R175). -/
def execRecv (m : Nat) (bad : Option BlkFail) (s : State) : Host.Outcome State Fault Refusal :=
  act (okMast m && s.mastRuns m) s (fun s => s.recv m bad)

/-- RECV_TIMEOUT (R176). -/
def execRecvTimeout (m : Nat) (s : State) : Host.Outcome State Fault Refusal :=
  act (okMast m && s.mastRuns m) s (fun s => s.recvTimeout m)

/-- GATHER (R177). -/
def execGather (m : Nat) (bad : Option BlkFail) (s : State) : Host.Outcome State Fault Refusal :=
  act (okMast m && s.mastRuns m) s (fun s => s.gather m bad)

/-- LOGITS (R178). -/
def execLogits (m : Nat) (bad : Option BlkFail) (s : State) : Host.Outcome State Fault Refusal :=
  act (okMast m && s.mastRuns m) s (fun s => s.runPlies m cLogits bad)

/-- SAMPLE (R179). -/
def execSample (m : Nat) (s : State) : Host.Outcome State Fault Refusal :=
  act (okMast m && s.mastRuns m) s (fun s => s.sampleOp m)

/-- CHECK (R180, R331). -/
def execCheck (m : Nat) (bad : Option BlkFail) (s : State) : Host.Outcome State Fault Refusal :=
  act (okMast m && s.mastRuns m) s (fun s => s.checkOp m bad)

/-- BARRIER (R180). -/
def execBarrier (m : Nat) (s : State) : Host.Outcome State Fault Refusal :=
  act (okMast m && s.mastRuns m) s (fun s => s.barrier m)

/-- REPEAT (R167, R184). -/
def execRepeatBody (m : Nat) (s : State) : Host.Outcome State Fault Refusal :=
  act (okMast m && s.mastRuns m) s (fun s => s.repeatOp m)

end Sys2Proof.Machine
end

