-- ==== Sys2Proof/Machine/RunLink.lean ====
section
/-! DEFINITION. Commands and events of the host link and the mailboxes (chapter 17). -/

namespace Sys2Proof.Machine

/-- CXL_LINK_RESET (R379). -/
def execCxlLinkReset (s : State) : Host.Outcome State Fault Refusal :=
  act (true) s (fun s => s.cxlLinkReset)

/-- HOST_LINK_UP (R376); the order of the lane pairs found. -/
def execHostLinkUp (pairs : Byte) (s : State) : Host.Outcome State Fault Refusal :=
  act (true) s (fun s => s.hostLinkUp pairs)

/-- HOST_LINK_TRAIN_RETRY (R376). -/
def execHostLinkTrainRetry (s : State) : Host.Outcome State Fault Refusal :=
  act (true) s (fun s => s.trainRetry)

/-- BM_STOP (R380): Bus Master Enable and D3hot as the host sets them. -/
def execBmStop (bme : Bool) (d3hot : Bool) (ring : RingGoes) (s : State) : Host.Outcome State Fault Refusal :=
  act (true) s (fun s => s.busMaster bme d3hot ring.cmds ring.written)

/-- VECTOR_HOLDOFF_END (R384). -/
def execVectorHoldoffEnd (v : Nat) (s : State) : Host.Outcome State Fault Refusal :=
  act (okVector v) s (fun s => s.holdoffEnd v)

/-- DOE_REQUEST (R385). -/
def execDoeRequest (q : DoeReq) (s : State) : Host.Outcome State Fault Refusal :=
  act (true) s (fun s => s.doeRequest q)

/-- GET_MEASUREMENTS (R386). -/
def execGetMeasurements (s : State) : Host.Outcome State Fault Refusal :=
  act (true) s (fun s => s.getMeasurements)

/-- IDE_KM (R387). -/
def execIdeKm (sess : Nat) (memId : Byte) (ioId : Byte) (s : State) : Host.Outcome State Fault Refusal :=
  act (true) s (fun s => s.ideKm sess memId ioId)

/-- IDE_INTEGRITY_FAILURE (R387). -/
def execIdeIntegrityFailure (s : State) : Host.Outcome State Fault Refusal :=
  act (true) s (fun s => s.ideFailure)

/-- END_SESSION (R387). -/
def execEndSession (n : Nat) (s : State) : Host.Outcome State Fault Refusal :=
  act (true) s (fun s => s.endSession n)

/-- BAR2_REJECT (R388): a read of `width` bits, or a write, 0. -/
def execBar2Reject (width : Nat) (s : State) : Host.Outcome State Fault Refusal :=
  act (decide (width ≤ 64)) s (fun s => s.bar2Reject width)

/-- DOORBELL (R390) of the host. -/
def execDoorbell (k : Nat) (s : State) : Host.Outcome State Fault Refusal :=
  act (okMbx k && s.mailboxMay) s (fun s => s.doorbell k)

/-- ACK (R390) of the host. -/
def execAck (k : Nat) (s : State) : Host.Outcome State Fault Refusal :=
  act (okMbx k && s.mailboxMay) s (fun s => s.ack k)

/-- MBX_CLEAT_READ (R394) by agent a; a device that has halted answers, and claims nothing (R334, log entry 87). -/
def execMbxCleatRead (k : Nat) (a : Nat) (s : State) : Host.Outcome State Fault Refusal :=
  act (okMbx k && decide (a < 1024) && s.mailboxReads) s (fun s => s.cleatRead k (if s.devFatal then 0 else a))

/-- MBX_CLEAT_WRITE (R394). -/
def execMbxCleatWrite (k : Nat) (v : W32) (s : State) : Host.Outcome State Fault Refusal :=
  act (okMbx k && s.mailboxMay) s (fun s => s.cleatWrite k v)

/-- INFO (R392): the message as read from host memory, where it lies there. -/
def execInfo (k : Nat) (msg : Option (List Byte)) (s : State) : Host.Outcome State Fault Refusal :=
  act (okMbx k) s (fun s => s.info k msg)

/-- LINK (R392). -/
def execLink (k : Nat) (msg : Option (List Byte)) (s : State) : Host.Outcome State Fault Refusal :=
  act (okMbx k) s (fun s => s.linkService k msg)

/-- CXL_MEM_WINDOW_WRITE (R382). -/
def execCxlMemWindowWrite (o : Nat) (b : List Byte) (s : State) : Host.Outcome State Fault Refusal :=
  act (decide (o + b.length ≤ 2 ^ 31) && s.windowMay) s (fun s => s.windowWrite o b)

end Sys2Proof.Machine
end

