-- ==== Sys2Proof/Machine/RunPages.lean ====
section
/-! DEFINITION. Commands and events of pages, prefixes and exclusion ranges (chapters 11 and 12). -/

namespace Sys2Proof.Machine

/-- PAGE_COPY_COMPLETE (R260). -/
def execPageCopyComplete (s : State) : Host.Outcome State Fault Refusal :=
  act (true) s (fun s => s.copyDone)

/-- DEFERRED_FREE (R262). -/
def execDeferredFree (p : Nat) (s : State) : Host.Outcome State Fault Refusal :=
  act (okPage p) s (fun s => s.deferredFree p)

/-- FRAME_MOVE (R247). -/
def execFrameMove (p : Nat) (s : State) : Host.Outcome State Fault Refusal :=
  act (okPage p) s (fun s => s.frameMove p)

/-- PFX_LOAD (R257) of LEN tokens into the slot that KV_PFX_SEL names. -/
def execPfxLoad (len : Nat) (s : State) : Host.Outcome State Fault Refusal :=
  act (decide (len < 8192) && s.hostMay) s (fun s => s.pfxLoad len)

/-- PFX_LOAD_COMPLETE (R257): the image as read, none for a link error. -/
def execPfxLoadComplete (bytes : Option (List Byte)) (s : State) : Host.Outcome State Fault Refusal :=
  act (true) s (fun s => s.pfxLoadComplete bytes)

/-- PFX_CLEAR (R257). -/
def execPfxClear (s : State) : Host.Outcome State Fault Refusal :=
  act (s.hostMay) s (fun s => s.pfxClear)

/-- KV_HOST_BASE_WRITE (R248): KV_HOST_BASE, or with `pages` KV_HOST_PAGES. -/
def execKvHostBaseWrite (pages : Bool) (v : W64) (s : State) : Host.Outcome State Fault Refusal :=
  act (s.hostMay) s (fun s => s.kvHostWrite pages v)

/-- APPLY (R294). -/
def execApply (s : State) : Host.Outcome State Fault Refusal :=
  act (s.hostMay) s (fun s => s.xApply)

/-- FETCH (R294). -/
def execFetch (s : State) : Host.Outcome State Fault Refusal :=
  act (s.hostMay) s (fun s => s.xFetch)

end Sys2Proof.Machine
end

