-- ==== Sys2Proof/Machine/RunPly.lean ====
section
/-! DEFINITION. Events of a ply on its arrays (chapters 1, 5 and 14) and the commands of the splice regions (chapter 4). -/

namespace Sys2Proof.Machine

/-- PLY_TOKEN_STEP (R80, R28, R109 to R111, R328): the next token of accumulator n. `codes` are raw codes that differ from the
ideal ones (array, column, phase, code), `faults` what path checks find. -/
def execPlyTokenStep (m : Nat) (n : Nat) (codes : List RawCode) (faults : List PathFault)
    (s : State) : Host.Outcome State Fault Refusal :=
  act (okAcc m n && s.mastRuns m) s (fun s => s.tokenStep m n codes faults)

/-- TILE_DRAIN_START (R109). -/
def execTileDrainStart (m : Nat) (n : Nat) (t : Nat) (s : State) : Host.Outcome State Fault Refusal :=
  act (okTile m n t && s.mastRuns m) s (fun s => s.drainStart m n t)

/-- TILE_DRAINED (R108, R109). -/
def execTileDrained (m : Nat) (n : Nat) (t : Nat) (s : State) : Host.Outcome State Fault Refusal :=
  act (okTile m n t && s.mastRuns m) s (fun s => s.tileDrained m n t)

/-- TOKEN_REPEAT (R329). -/
def execTokenRepeat (m : Nat) (n : Nat) (tau : Nat) (codes : List RawCode) (faults : List PathFault)
    (s : State) : Host.Outcome State Fault Refusal :=
  act (okAcc m n && s.mastRuns m) s (fun s => s.tokenRepeat m n tau codes faults)

/-- PLAUSIBILITY_ARBITRATION (R330). -/
def execPlausibilityArbitration (m : Nat) (n : Nat) (tau : Nat) (s : State) : Host.Outcome State Fault Refusal :=
  act (okAcc m n && s.mastRuns m) s (fun s => s.arbitration m n tau)

/-- SPL_LOAD (R89, R95). -/
def execSplLoad (m : Nat) (p : Nat) (lmap : BitVec 2) (host : Bool) (s : State) : Host.Outcome State Fault Refusal :=
  act (okArr m p && s.hostMay) s (fun s => s.splLoad m p lmap host)

/-- SPL_LOAD_COMPLETE (R89); whether each block of the image fails its check value, and whether again. -/
def execSplLoadComplete (m : Nat) (p : Nat) (blocks : List (Bool × Bool)) (s : State) : Host.Outcome State Fault Refusal :=
  act (okArr m p) s (fun s => (s.splLoadComplete m p blocks).arrNext m p)

/-- SPL_CLEAR (R89, R95). -/
def execSplClear (m : Nat) (p : Nat) (host : Bool) (s : State) : Host.Outcome State Fault Refusal :=
  act (okArr m p && s.hostMay) s (fun s => s.splClear m p host)

end Sys2Proof.Machine
end

