-- ==== Sys2Proof/Machine/RunPower.lean ====
section
/-! DEFINITION. Commands and events of the power manager (chapter 18). -/

namespace Sys2Proof.Machine

/-- PWR_SAIL (R403) of the groups of `w`. -/
def execPwrSail (w : BitVec 4) (s : State) : Host.Outcome State Fault Refusal :=
  act (s.mailboxMay) s (fun s => s.pwrSail w)

/-- PWR_REEF (R403). -/
def execPwrReef (w : BitVec 4) (s : State) : Host.Outcome State Fault Refusal :=
  act (s.mailboxMay) s (fun s => s.pwrReef w)

/-- PWR_DOUSE (R403). -/
def execPwrDouse (w : BitVec 4) (s : State) : Host.Outcome State Fault Refusal :=
  act (s.mailboxMay) s (fun s => s.pwrDouse w)

/-- PWR_FURL (R403). -/
def execPwrFurl (s : State) : Host.Outcome State Fault Refusal :=
  act (s.mailboxMay) s (fun s => s.pwrFurl)

/-- POWER_CHOOSER (R401). -/
def execPowerChooser (s : State) : Host.Outcome State Fault Refusal :=
  act (true) s (fun s => s.chooser)

/-- REEF_ENTRY (R398). -/
def execReefEntry (g : Nat) (s : State) : Host.Outcome State Fault Refusal :=
  act (okGroup g) s (fun s => s.reefEntry g)

/-- DOUSE_ENTRY (R398). -/
def execDouseEntry (g : Nat) (s : State) : Host.Outcome State Fault Refusal :=
  act (okGroup g) s (fun s => s.douseEntry g)

/-- FURL_ENTRY (R404). -/
def execFurlEntry (s : State) : Host.Outcome State Fault Refusal :=
  actBoot (true) s (fun s => s.furlEntry)

/-- SELF_WAKE (R402). -/
def execSelfWake (s : State) : Host.Outcome State Fault Refusal :=
  act (true) s (fun s => s.selfWake)

/-- FIRST_ACCESS (R405, Table 18.3): 0 an array step or command, 1 an engine, 2 a window, region or spindle, 3 the formation
of a batch, 4 a WRITE to an OFF array. -/
def execFirstAccess (m : Nat) (kind : Nat) (s : State) : Host.Outcome State Fault Refusal :=
  act (okMast m && decide (kind < 5)) s (fun s => s.firstAccess m kind)

/-- DIE_POWER_STABLE (R406). -/
def execDiePowerStable (m : Nat) (d : Nat) (s : State) : Host.Outcome State Fault Refusal :=
  act (okDie m d) s (fun s => s.diePowerStable m d)

/-- DOUSE_WAKE (R407): the next stage of Table 18.4. -/
def execDouseWake (s : State) : Host.Outcome State Fault Refusal :=
  act (true) s (fun s => s.douseWake)

/-- FURL_WAKE (R408): the next stage of Table 18.5. -/
def execFurlWake (s : State) : Host.Outcome State Fault Refusal :=
  actFlash (true) s (fun s => if s.furlAtRom then s.furlWake else s.keepFlash s.furlWake)

/-- WAKE_SLOT_DELAY_END (R409). -/
def execWakeSlotDelayEnd (s : State) : Host.Outcome State Fault Refusal :=
  act (true) s (fun s => s.slotDelayEnd)

/-- POWER_SAMPLE (R410, R411, R134). -/
def execPowerSample (volts : W16) (amps : W16) (watts : W16) (told : PowerTold) (s : State) : Host.Outcome State Fault Refusal :=
  act (true) s (fun s => s.powerSample volts amps watts told.avg10 told.bias)

/-- INPUT_UNDERVOLTAGE (R397). -/
def execInputUndervoltage (s : State) : Host.Outcome State Fault Refusal :=
  act (true) s (fun s => s.undervoltage)

/-- INPUT_FAULT (R397). -/
def execInputFault (s : State) : Host.Outcome State Fault Refusal :=
  actReset (true) s (fun s => s.inputFault)

/-- RETURN_TO_RETENTION (R405). -/
def execReturnToRetention (m : Nat) (s : State) : Host.Outcome State Fault Refusal :=
  act (okMast m) s (fun s => s.toRetention m)

end Sys2Proof.Machine
end

