-- ==== Sys2Proof/Machine/RunRecorder.lean ====
section
/-! DEFINITION. Commands and events of the recorder and of replay (chapter 15). -/

namespace Sys2Proof.Machine

/-- INT_REC_ARM (R345). -/
def execIntRecArm (h : W32) (s : State) : Host.Outcome State Fault Refusal :=
  act (s.hostMay) s (fun s => s.recArm h)

/-- INT_REC_DISARM (R346). -/
def execIntRecDisarm (h : W32) (s : State) : Host.Outcome State Fault Refusal :=
  act (s.hostMay) s (fun s => s.recDisarm h)

/-- INT_REC_CTL_WRITE (R346, R347). -/
def execIntRecCtlWrite (v : W32) (s : State) : Host.Outcome State Fault Refusal :=
  act (s.hostMay) s (fun s => s.recCtlWrite v)

/-- INT_REC_HEAD_WRITE (R347). -/
def execIntRecHeadWrite (v : W32) (s : State) : Host.Outcome State Fault Refusal :=
  act (s.hostMay) s (fun s => s.recHeadWrite v)

/-- REPLAY (R353). -/
def execReplay (s : State) : Host.Outcome State Fault Refusal :=
  act (s.hostMay) s (fun s => s.replay)

/-- REPLAY_STEP_COMPLETE (R355). -/
def execReplayStepComplete (s : State) : Host.Outcome State Fault Refusal :=
  act (true) s (fun s => s.replayStep)

/-- RPL_ABORT (R356). -/
def execRplAbort (s : State) : Host.Outcome State Fault Refusal :=
  act (s.hostMay) s (fun s => s.rplAbort)

/-- REPLAY_CHAIN_READ (R353): the chain as read, none where a read failed. -/
def execReplayChainRead (bytes : Option (List Byte)) (s : State) : Host.Outcome State Fault Refusal :=
  act (true) s (fun s => s.replayChainRead bytes)

end Sys2Proof.Machine
end

