-- ==== Sys2Proof/Machine/RunReels.lean ====
section
/-! DEFINITION. Commands and events of the reels and the sampler records (chapter 13). -/

namespace Sys2Proof.Machine

/-- REEL_RECORD_WRITE (R309, R310): whether the record and TAIL are written without an error. -/
def execReelRecordWrite (i : Nat) (ok : Bool) (tailOk : Bool) (s : State) : Host.Outcome State Fault Refusal :=
  act (okEntry i) s (fun s => s.reelWrite i ok tailOk)

/-- REEL_HEAD_READ (R308): HEAD as read, none where the read failed twice. -/
def execReelHeadRead (i : Nat) (head : Option W32) (s : State) : Host.Outcome State Fault Refusal :=
  act (okEntry i && s.reelMay) s (fun s => s.headRead i head)

/-- REEL_POLL (R308). -/
def execReelPoll (i : Nat) (head : Option W32) (s : State) : Host.Outcome State Fault Refusal :=
  act (okEntry i && s.reelMay) s (fun s => s.reelPoll i head)

/-- REEL_KICK (R308, R310). -/
def execReelKick (h : W32) (head : Option W32) (tailOk : Bool) (s : State) : Host.Outcome State Fault Refusal :=
  act (s.hostMay) s (fun s => s.reelKick h head tailOk)

/-- SMP_REC_READ (R463). -/
def execSmpRecRead (s : State) : Host.Outcome State Fault Refusal :=
  act (s.hostReads) s (fun s => s.smpRecRead)

end Sys2Proof.Machine
end

