-- ==== Sys2Proof/Machine/RunRig.lean ====
section
/-! DEFINITION. Commands, events and packets of the rigging (chapter 16). -/

namespace Sys2Proof.Machine

/-- LINK_FRAME (R359): the 256 bytes, the codewords corrected, and whether one was uncorrectable. -/
def execLinkFrame (p : Nat) (b : List Byte) (corrected : Nat) (uncor : Bool) (s : State) : Host.Outcome State Fault Refusal :=
  act (okPort p && decide (b.length = 256)) s (fun s => s.linkFrame p b corrected uncor)

/-- LINK_RESEND (R359). -/
def execLinkResend (p : Nat) (s : State) : Host.Outcome State Fault Refusal :=
  act (okPort p) s (fun s => s.linkResend p)

/-- LANE_LOCK_LOSS (R361). -/
def execLaneLockLoss (p : Nat) (l : Nat) (s : State) : Host.Outcome State Fault Refusal :=
  act (okPort p && decide (l < 8)) s (fun s => s.laneLoss p l)

/-- PORT_IDLE_TIMEOUT (R361). -/
def execPortIdleTimeout (p : Nat) (s : State) : Host.Outcome State Fault Refusal :=
  act (okPort p) s (fun s => s.portIdle p)

/-- PORT_TRAINING_DONE (R361). -/
def execPortTrainingDone (p : Nat) (lanes : Byte) (inTime : Bool) (s : State) : Host.Outcome State Fault Refusal :=
  act (okPort p) s (fun s => s.trainingDone p lanes inTime)

/-- EN (R361). -/
def execEn (p : Nat) (v : Bool) (s : State) : Host.Outcome State Fault Refusal :=
  act (okPort p && s.hostMay) s (fun s => s.portEn p v)

/-- RETRAIN (R361); `on` is EN as the same write gives it. -/
def execRetrain (p : Nat) (on : Bool) (s : State) : Host.Outcome State Fault Refusal :=
  act (okPort p && s.hostMay) s (fun s => s.portRetrain p on)

/-- PACKET_TRANSIT (R366). -/
def execPacketTransit (s : State) : Host.Outcome State Fault Refusal :=
  act (true) s (fun s => s.packetTransit)

/-- ROW (R369). -/
def execRow (s : State) : Host.Outcome State Fault Refusal :=
  act (true) s (fun s => s.rowPacket)

/-- LOGIT (R369). -/
def execLogit (s : State) : Host.Outcome State Fault Refusal :=
  act (true) s (fun s => s.logitPacket)

/-- INPUT (R370). -/
def execInput (c : Nat) (s : State) : Host.Outcome State Fault Refusal :=
  act (okCtx c) s (fun s => s.memberInput c)

/-- BATCH (R238). -/
def execBatch (c : Nat) (s : State) : Host.Outcome State Fault Refusal :=
  act (okCtx c) s (fun s => s.memberBatch c)

/-- COMMIT (R239). -/
def execCommit (c : Nat) (s : State) : Host.Outcome State Fault Refusal :=
  act (okCtx c) s (fun s => s.memberCommit c)

/-- RESERVE (R239). -/
def execReserve (x : ReserveFor) (s : State) : Host.Outcome State Fault Refusal :=
  act (okCtx x.ctx) s (fun s => s.memberReserve x.ctx x.fork)

/-- RESERVE_ACK (R239). -/
def execReserveAck (ok : Bool) (s : State) : Host.Outcome State Fault Refusal :=
  act (true) s (fun s => (s.reserveAck ok).pfxResume)

/-- REFUSE (R239). -/
def execRefuse (ok : Bool) (s : State) : Host.Outcome State Fault Refusal :=
  act (true) s (fun s => (s.refuseItem ok).pfxResume)

/-- HEAD_RELEASE (R370). -/
def execHeadRelease (x : ReleaseFor) (s : State) : Host.Outcome State Fault Refusal :=
  act (okCtx x.ctx) s (fun s => s.memberRelease x.ctx x.whole)

/-- PAGE_LOST (R239). -/
def execPageLost (s : State) : Host.Outcome State Fault Refusal :=
  act (true) s (fun s => s.pageLost)

/-- RANGES (R370). -/
def execRanges (c : Nat) (s : State) : Host.Outcome State Fault Refusal :=
  act (okCtx c) s (fun s => s.memberRanges c)

/-- RIG_ROUTE_READ (R463). -/
def execRigRouteRead (s : State) : Host.Outcome State Fault Refusal :=
  act (s.hostReads) s (fun s => s.routeRead)

end Sys2Proof.Machine
end

