-- ==== Sys2Proof/Machine/RunSail.lean ====
section
/-! DEFINITION. Commands and events of the sail plan (chapter 7). -/

namespace Sys2Proof.Machine

/-- SAIL_OPKEY_WRITE (R144): a 64-bit write in BAR2, which only the bound stream reaches (R388). -/
def execSailOpkeyWrite (n : Nat) (v : W64) (s : State) : Host.Outcome State Fault Refusal :=
  act (decide (n < 4) && s.hostMay) s (fun s => if s.link.bound then s.opkeyWrite n v else s.bar2Reject 0)

/-- SAIL_LOAD (R154, R160); `named` are the contexts that the plan in host memory names. -/
def execSailLoad (named : List Nat) (s : State) : Host.Outcome State Fault Refusal :=
  act (s.hostMay) s (fun s => s.sailLoad named)

/-- SAIL_PLAN_READ (R154 to R158): the plan as read, none for a link error. -/
def execSailPlanRead (bytes : Option (List Byte)) (s : State) : Host.Outcome State Fault Refusal :=
  act (true) s (fun s => s.sailPlanRead bytes)

/-- SAIL_ABORT (R160). -/
def execSailAbort (s : State) : Host.Outcome State Fault Refusal :=
  act (s.hostMay) s (fun s => s.sailAbort)

end Sys2Proof.Machine
end

