-- ==== Sys2Proof/Machine/RunSeq.lean ====
section
/-! DEFINITION. Commands and events of the sequence engine (chapters 10, 12, 13 and 15). -/

namespace Sys2Proof.Machine

/-- SEQ_CQ_TAIL_WRITE (R212, R467): the command slots that the engine then fetches, none for a read that failed, and how many
held completions the host memory takes. -/
def execSeqCqTailWrite (v : W16) (slots : List (Option (List Byte))) (written : Nat)
    (s : State) : Host.Outcome State Fault Refusal :=
  act (s.hostMay) s (fun s => s.cqTailWrite v slots written)

/-- SEQ_CPL_HEAD_WRITE (R212, R467). -/
def execSeqCplHeadWrite (v : W16) (slots : List (Option (List Byte))) (written : Nat)
    (s : State) : Host.Outcome State Fault Refusal :=
  act (s.hostMay) s (fun s => s.cplHeadWrite v slots written)

/-- COMPLETION_RETRY (R467). -/
def execCompletionRetry (slots : List (Option (List Byte))) (written : Nat) (s : State) : Host.Outcome State Fault Refusal :=
  act (true) s (fun s => s.completionRetry slots written)

/-- SEQ_CTL_WRITE (R212, R242, R467). -/
def execSeqCtlWrite (v : W32) (slots : List (Option (List Byte))) (written : Nat)
    (s : State) : Host.Outcome State Fault Refusal :=
  act (s.hostMay) s (fun s => s.seqCtlWrite v slots written)

/-- SEQ_HINT_WRITE (R240). -/
def execSeqHintWrite (v : W64) (s : State) : Host.Outcome State Fault Refusal :=
  act (s.hostMay) s (fun s => s.hintWrite v)

/-- SEQ_ENTRY_READ (R463). -/
def execSeqEntryRead (s : State) : Host.Outcome State Fault Refusal :=
  act (s.hostReads) s (fun s => s.seqEntryRead)

/-- SUBMIT (R217, R218): the descriptor, the reel descriptor and sampler record as read from host memory, and whether the
write of a completion succeeds. -/
def execSubmit (d : Desc) (reel : Option (List Byte)) (smp : Option (List Byte)) (ok : Bool)
    (s : State) : Host.Outcome State Fault Refusal :=
  act (decide (d.opcode = 1) && s.seqMay d) s (fun s => (s.submit d reel smp ok).pfxResume)

/-- APPEND (R220). -/
def execAppend (d : Desc) (ok : Bool) (s : State) : Host.Outcome State Fault Refusal :=
  act (decide (d.opcode = 2) && s.seqMay d) s (fun s => s.append d ok)

/-- RESUME (R215). -/
def execResume (d : Desc) (ok : Bool) (s : State) : Host.Outcome State Fault Refusal :=
  act (decide (d.opcode = 3) && s.seqMay d) s (fun s => s.resume d ok)

/-- CANCEL (R230). -/
def execCancel (d : Desc) (ok : Bool) (s : State) : Host.Outcome State Fault Refusal :=
  act (decide (d.opcode = 4) && s.seqMay d) s (fun s => s.cancel d ok)

/-- FORK (R236). -/
def execFork (d : Desc) (reel : Option (List Byte)) (smp : Option (List Byte)) (ok : Bool)
    (s : State) : Host.Outcome State Fault Refusal :=
  act (decide (d.opcode = 5) && s.seqMay d) s (fun s => s.fork d reel smp ok)

/-- SPILL (R264). -/
def execSpill (d : Desc) (ok : Bool) (s : State) : Host.Outcome State Fault Refusal :=
  act (decide (d.opcode = 6) && s.seqMay d) s (fun s => s.spill d ok)

/-- RECALL (R265). -/
def execRecall (d : Desc) (ok : Bool) (s : State) : Host.Outcome State Fault Refusal :=
  act (decide (d.opcode = 7) && s.seqMay d) s (fun s => s.recallCmd d ok)

/-- MOVE_COMPLETE (R266, R267): how the next pages of the move in progress fare. -/
def execMoveComplete (pages : List PageMove) (ok : Bool) (s : State) : Host.Outcome State Fault Refusal :=
  act (true) s (fun s => s.moveComplete pages ok)

/-- RELEASE (R235). -/
def execRelease (d : Desc) (ok : Bool) (s : State) : Host.Outcome State Fault Refusal :=
  act (decide (d.opcode = 8) && s.seqMay d) s (fun s => s.release d ok)

/-- SET_PRIORITY (R215). -/
def execSetPriority (d : Desc) (ok : Bool) (s : State) : Host.Outcome State Fault Refusal :=
  act (decide (d.opcode = 9) && s.seqMay d) s (fun s => s.setPriority d ok)

/-- INPUT_COPY_COMPLETE (R219): the tokens, none where the copy failed. -/
def execInputCopyComplete (i : Nat) (toks : Option (List Nat)) (ok : Bool) (s : State) : Host.Outcome State Fault Refusal :=
  act (okEntry i) s (fun s => s.inputCopy i toks ok)

/-- DEADLINE_EXPIRY (R231). -/
def execDeadlineExpiry (i : Nat) (s : State) : Host.Outcome State Fault Refusal :=
  act (okEntry i) s (fun s => s.deadlineExpiry i)

/-- SAMPLER_FINISH (R305). -/
def execSamplerFinish (c : Nat) (s : State) : Host.Outcome State Fault Refusal :=
  act (okCtx c) s (fun s => s.samplerFinish c)

/-- COMMIT_SWEEP (R226); how many completion writes the host takes (R467). -/
def execCommitSweep (x : SweepOf) (s : State) : Host.Outcome State Fault Refusal :=
  act (okCtx x.ctx) s (fun s => s.sweep x.ctx x.written)

/-- MATCH_UPDATE (R303). -/
def execMatchUpdate (i : Nat) (s : State) : Host.Outcome State Fault Refusal :=
  act (okEntry i) s (fun s => s.matchUpdate i)

/-- NOTICE_WRITE (R292). -/
def execNoticeWrite (s : State) : Host.Outcome State Fault Refusal :=
  act (true) s (fun s => s.noticeWrite)

/-- RECORDER_WRITE (R349). -/
def execRecorderWrite (s : State) : Host.Outcome State Fault Refusal :=
  act (true) s (fun s => s.recorderWrite)

end Sys2Proof.Machine
end

