-- ==== Sys2Proof/Machine/RunServices.lean ====
section
/-! DEFINITION. The services of the security core (chapter 19). -/

namespace Sys2Proof.Machine

/-- FW_STATUS (R436); `busy`: another firmware service runs, as for the services below. -/
def execFwStatus (k : Nat) (msg : Option (List Byte)) (busy : Bool) (s : State) : Host.Outcome State Fault Refusal :=
  act (okMbx k) s (fun s => s.fwStatus k msg busy)

/-- FW_WRITE (R436). -/
def execFwWrite (k : Nat) (msg : Option (List Byte)) (busy : Bool) (s : State) : Host.Outcome State Fault Refusal :=
  actFlash (okMbx k) s (fun s => s.fwWrite k msg busy)

/-- FW_ACTIVATE (R436). -/
def execFwActivate (k : Nat) (msg : Option (List Byte)) (busy : Bool) (s : State) : Host.Outcome State Fault Refusal :=
  actFlash (okMbx k) s (fun s => s.fwActivate k msg busy)

/-- FW_COMMIT (R436). -/
def execFwCommit (k : Nat) (msg : Option (List Byte)) (busy : Bool) (s : State) : Host.Outcome State Fault Refusal :=
  actFlash (okMbx k) s (fun s => s.fwCommit k msg busy)

/-- ID_INFO (R436). -/
def execIdInfo (k : Nat) (msg : Option (List Byte)) (busy : Bool) (s : State) : Host.Outcome State Fault Refusal :=
  act (okMbx k) s (fun s => s.idInfo k msg busy)

end Sys2Proof.Machine
end

