-- ==== Sys2Proof/Machine/RunSpindle.lean ====
section
/-! DEFINITION. Instructions and events of the spindles (chapter 12). -/

namespace Sys2Proof.Machine

/-- KW.CRC32C (R287). -/
def execKwCrc32c (m : Nat) (i : Nat) (rd : Nat) (rs1 : Nat) (rs2 : Nat) (s : State) : Host.Outcome State Fault Refusal :=
  act (okSpindle m i && okReg rd && okReg rs1 && okReg rs2 && s.engineRuns m) s (fun s => s.kwCrc m i rd rs1 rs2)

/-- KW.KECCAK (R287). -/
def execKwKeccak (m : Nat) (i : Nat) (rd : Nat) (rs1 : Nat) (s : State) : Host.Outcome State Fault Refusal :=
  act (okSpindle m i && okReg rd && okReg rs1 && s.engineRuns m) s (fun s => s.kwKeccak m i rd rs1)

/-- KW.TWIST (R287, R304); `ext`: the 14 bytes at rs1 where they lie in host memory or the view of BAR0. -/
def execKwTwist (m : Nat) (i : Nat) (rd : Nat) (rs1 : Nat) (rs2 : Nat) (ext : List Byte)
    (s : State) : Host.Outcome State Fault Refusal :=
  act (okSpindle m i && okReg rd && okReg rs1 && okReg rs2 && s.engineRuns m) s (fun s => s.kwTwist m i rd rs1 rs2 ext)

/-- KW.PGWALK (R287). -/
def execKwPgwalk (m : Nat) (i : Nat) (rd : Nat) (rs1 : Nat) (rs2 : Nat) (s : State) : Host.Outcome State Fault Refusal :=
  act (okSpindle m i && okReg rd && okReg rs1 && okReg rs2 && s.engineRuns m) s (fun s => s.kwPgwalk m i rd rs1 rs2)

/-- KW.WAITEV (R287). -/
def execKwWaitev (m : Nat) (i : Nat) (rd : Nat) (rs1 : Nat) (s : State) : Host.Outcome State Fault Refusal :=
  act (okSpindle m i && okReg rd && okReg rs1 && s.engineRuns m) s (fun s => s.kwWaitev m i rd rs1)

/-- KW.SIGNAL (R287). -/
def execKwSignal (m : Nat) (i : Nat) (rs1 : Nat) (rs2 : Nat) (s : State) : Host.Outcome State Fault Refusal :=
  act (okSpindle m i && okReg rs1 && okReg rs2 && s.engineRuns m) s (fun s => s.kwSignal m i rs1 rs2)

/-- SPINDLE_WATCHDOG (R290, R319): the task goes to the spindle that `heir` names. -/
def execSpindleWatchdog (m : Nat) (i : Nat) (heir : Heir) (s : State) : Host.Outcome State Fault Refusal :=
  act (okSpindle m i && decide (heir.spindle < 128) && s.engineRuns m) s (fun s => s.spindleWatchdog m i heir.spindle heir.ecc)

/-- MAST_SPN_CTL_WRITE (R291). -/
def execMastSpnCtlWrite (m : Nat) (v : W32) (s : State) : Host.Outcome State Fault Refusal :=
  act (okMast m && s.hostMay) s (fun s => s.spnCtlWrite m v)

/-- OPERATOR_TRAP (R291). -/
def execOperatorTrap (m : Nat) (i : Nat) (code : Byte) (pc : W64) (s : State) : Host.Outcome State Fault Refusal :=
  act (okSpindle m i && s.engineRuns m) s (fun s => s.operatorTrap m i code pc)

/-- ECALL_CANCEL (R292). -/
def execEcallCancel (m : Nat) (i : Nat) (s : State) : Host.Outcome State Fault Refusal :=
  act (okSpindle m i && s.engineRuns m) s (fun s => s.ecallCancel m i)

/-- ECALL_SET_PRIORITY (R292). -/
def execEcallSetPriority (m : Nat) (i : Nat) (s : State) : Host.Outcome State Fault Refusal :=
  act (okSpindle m i && s.engineRuns m) s (fun s => s.ecallSetPriority m i)

/-- NOTIFY (R391). -/
def execNotify (m : Nat) (i : Nat) (s : State) : Host.Outcome State Fault Refusal :=
  act (okSpindle m i && s.engineRuns m) s (fun s => s.notify m i)

/-- TIME_COMPARE (R287). -/
def execTimeCompare (m : Nat) (i : Nat) (s : State) : Host.Outcome State Fault Refusal :=
  act (okSpindle m i && s.engineRuns m) s (fun s => s.timeCompare m i)

end Sys2Proof.Machine
end

