-- ==== Sys2Proof/Machine/RunTrim.lean ====
section
/-! DEFINITION. Commands and events of trim, ageing and the lasers (chapters 6 and 20). -/

namespace Sys2Proof.Machine

/-- TRIM_CYCLE_END (R118, R321): the readings of the cycle are operands. -/
def execTrimCycleEnd (m : Nat) (probes : List TrimProbe) (s : State) : Host.Outcome State Fault Refusal :=
  act (okMast m && s.mastRuns m) s (fun s => s.trimCycle m probes)

/-- TRIM_COL_WRITE (R121). -/
def execTrimColWrite (v : W64) (s : State) : Host.Outcome State Fault Refusal :=
  act (s.hostMay) s (fun s => s.trimColWrite v)

/-- TRIM_SAVE (R129). -/
def execTrimSave (s : State) : Host.Outcome State Fault Refusal :=
  act (s.hostMay) s (fun s => s.trimSave)

/-- TRIM_SAVE_COMPLETE (R129). -/
def execTrimSaveComplete (s : State) : Host.Outcome State Fault Refusal :=
  act (true) s (fun s => s.trimSaveComplete)

/-- TRIM_RESTORE (R130). -/
def execTrimRestore (s : State) : Host.Outcome State Fault Refusal :=
  act (s.hostMay) s (fun s => s.trimRestore)

/-- TRIM_RESTORE_COMPLETE (R130): the set as read, none for a link error. -/
def execTrimRestoreComplete (set : Option (List Byte)) (s : State) : Host.Outcome State Fault Refusal :=
  act (true) s (fun s => s.trimRestoreComplete set)

/-- AGE_SAVE (R138). -/
def execAgeSave (s : State) : Host.Outcome State Fault Refusal :=
  act (s.hostMay) s (fun s => s.ageSave)

/-- AGE_RESTORE (R138): the record as read, none for a link error. -/
def execAgeRestore (r : Option (List Byte)) (s : State) : Host.Outcome State Fault Refusal :=
  act (s.hostMay) s (fun s => s.ageRestore r)

/-- LASER_WARN (R139). -/
def execLaserWarn (e : Nat) (bias : W16) (s : State) : Host.Outcome State Fault Refusal :=
  act (okEngine e) s (fun s => s.laserWarn e bias)

/-- LASER_END_OF_LIFE (R450). -/
def execLaserEndOfLife (e : Nat) (s : State) : Host.Outcome State Fault Refusal :=
  act (okEngine e) s (fun s => s.laserEnd e)

end Sys2Proof.Machine
end

