-- ==== Sys2Proof/Machine/RunWeights.lean ====
section
/-! DEFINITION. Commands and events of contexts and their weights (chapters 7 and 9). -/

namespace Sys2Proof.Machine

/-- WLOAD (R201). -/
def execWload (c : Nat) (s : State) : Host.Outcome State Fault Refusal :=
  act (okCtx c && s.hostMay) s (fun s => s.wload c)

/-- WLOAD_MANIFEST_READ (R201): the manifest as read, none for a link error. -/
def execWloadManifestRead (c : Nat) (bytes : Option (List Byte)) (s : State) : Host.Outcome State Fault Refusal :=
  act (okCtx c) s (fun s => s.wloadManifest c bytes)

/-- CTX_SHARD_POST (R202). -/
def execCtxShardPost (c : Nat) (v : W64) (s : State) : Host.Outcome State Fault Refusal :=
  act (okCtx c && s.hostMay) s (fun s => s.shardPost c v)

/-- SHARD_FETCH_COMPLETE (R202) on stack k: the shard as it arrived, none for a link error. -/
def execShardFetchComplete (k : Nat) (bytes : Option (List Byte)) (s : State) : Host.Outcome State Fault Refusal :=
  act (okStack k) s (fun s => s.shardFetched k bytes)

/-- WLOAD_TIMEOUT (R203). -/
def execWloadTimeout (c : Nat) (s : State) : Host.Outcome State Fault Refusal :=
  act (okCtx c) s (fun s => s.wloadTimeout c)

/-- DERIVED_IMAGE_BUILT (R204): the image of slot x, relative to the context, on mast m. -/
def execDerivedImageBuilt (c : Nat) (m : Nat) (x : Nat) (s : State) : Host.Outcome State Fault Refusal :=
  act (okCtx c && okMast m) s (fun s => s.derivedBuilt c m x)

/-- WLOAD_COMPLETE (R201). -/
def execWloadComplete (c : Nat) (s : State) : Host.Outcome State Fault Refusal :=
  act (okCtx c) s (fun s => s.wloadComplete c)

/-- START (R198). -/
def execStart (c : Nat) (s : State) : Host.Outcome State Fault Refusal :=
  act (okCtx c && s.hostMay) s (fun s => s.start c)

/-- STOP (R198, R200). -/
def execStop (c : Nat) (s : State) : Host.Outcome State Fault Refusal :=
  act (okCtx c && s.hostMay) s (fun s => s.stop c)

/-- CTX_DRAIN_COMPLETE (R200). -/
def execCtxDrainComplete (c : Nat) (s : State) : Host.Outcome State Fault Refusal :=
  act (okCtx c) s (fun s => s.drainComplete c)

/-- WABORT (R198). -/
def execWabort (c : Nat) (s : State) : Host.Outcome State Fault Refusal :=
  act (okCtx c && s.hostMay) s (fun s => s.wabort c)

/-- CTX_WBASE_WRITE (R199). -/
def execCtxWbaseWrite (c : Nat) (v : W64) (s : State) : Host.Outcome State Fault Refusal :=
  act (okCtx c && s.hostMay) s (fun s => s.wbaseWrite c v)

end Sys2Proof.Machine
end

