-- ==== Sys2Proof/Machine/Dispatch.lean ====
section
/-! DEFINITION. The meaning of each command, one arm for one row of the table. -/

namespace Sys2Proof.Machine

def exec (i : Instr) (s : State) : Host.Outcome State Fault Refusal :=
  match i with
  | .registerWrite bar2 spindle o width v => Sys2Proof.Machine.execRegisterWrite bar2 spindle o width v s
  | .beatBoundary terms stores => Sys2Proof.Machine.execBeatBoundary terms stores s
  | .sliceExpired => Sys2Proof.Machine.execSliceExpired s
  | .arrayStepSlot m codes => Sys2Proof.Machine.execArrayStepSlot m codes s
  | .maintenanceSlot m senses codes => Sys2Proof.Machine.execMaintenanceSlot m senses codes s
  | .restoreCycleEnd m scrubbed => Sys2Proof.Machine.execRestoreCycleEnd m scrubbed s
  | .restoreFailure m p => Sys2Proof.Machine.execRestoreFailure m p s
  | .dieTempSample m temps => Sys2Proof.Machine.execDieTempSample m temps s
  | .write m p host => Sys2Proof.Machine.execWrite m p host s
  | .writeDequeue m => Sys2Proof.Machine.execWriteDequeue m s
  | .writeRowWindow m p r => Sys2Proof.Machine.execWriteRowWindow m p r s
  | .writeComplete m p bad => Sys2Proof.Machine.execWriteComplete m p bad s
  | .colwrite m p host => Sys2Proof.Machine.execColwrite m p host s
  | .colwriteComplete m p fails => Sys2Proof.Machine.execColwriteComplete m p fails s
  | .abort m p host => Sys2Proof.Machine.execAbort m p host s
  | .discard m p host => Sys2Proof.Machine.execDiscard m p host s
  | .mastArrRetWrite m p retired => Sys2Proof.Machine.execMastArrRetWrite m p retired s
  | .adcSelfcal => Sys2Proof.Machine.execAdcSelfcal s
  | .adcSelfcalPhaseEnd meas dflt last => Sys2Proof.Machine.execAdcSelfcalPhaseEnd meas dflt last s
  | .adcAbort => Sys2Proof.Machine.execAdcAbort s
  | .adcSave => Sys2Proof.Machine.execAdcSave s
  | .adcSaveComplete => Sys2Proof.Machine.execAdcSaveComplete s
  | .adcRestore => Sys2Proof.Machine.execAdcRestore s
  | .adcRestoreComplete set => Sys2Proof.Machine.execAdcRestoreComplete set s
  | .adcFactorWrite v => Sys2Proof.Machine.execAdcFactorWrite v s
  | .adcMapWrite v => Sys2Proof.Machine.execAdcMapWrite v s
  | .plyTokenStep m n codes faults => Sys2Proof.Machine.execPlyTokenStep m n codes faults s
  | .tileDrainStart m n t => Sys2Proof.Machine.execTileDrainStart m n t s
  | .tileDrained m n t => Sys2Proof.Machine.execTileDrained m n t s
  | .tokenRepeat m n tau codes faults => Sys2Proof.Machine.execTokenRepeat m n tau codes faults s
  | .plausibilityArbitration m n tau => Sys2Proof.Machine.execPlausibilityArbitration m n tau s
  | .splLoad m p lmap host => Sys2Proof.Machine.execSplLoad m p lmap host s
  | .splLoadComplete m p blocks => Sys2Proof.Machine.execSplLoadComplete m p blocks s
  | .splClear m p host => Sys2Proof.Machine.execSplClear m p host s
  | .trimCycleEnd m probes => Sys2Proof.Machine.execTrimCycleEnd m probes s
  | .trimColWrite v => Sys2Proof.Machine.execTrimColWrite v s
  | .trimSave => Sys2Proof.Machine.execTrimSave s
  | .trimSaveComplete => Sys2Proof.Machine.execTrimSaveComplete s
  | .trimRestore => Sys2Proof.Machine.execTrimRestore s
  | .trimRestoreComplete set => Sys2Proof.Machine.execTrimRestoreComplete set s
  | .ageSave => Sys2Proof.Machine.execAgeSave s
  | .ageRestore r => Sys2Proof.Machine.execAgeRestore r s
  | .laserWarn e bias => Sys2Proof.Machine.execLaserWarn e bias s
  | .laserEndOfLife e => Sys2Proof.Machine.execLaserEndOfLife e s
  | .sailOpkeyWrite n v => Sys2Proof.Machine.execSailOpkeyWrite n v s
  | .sailLoad named => Sys2Proof.Machine.execSailLoad named s
  | .sailPlanRead bytes => Sys2Proof.Machine.execSailPlanRead bytes s
  | .sailAbort => Sys2Proof.Machine.execSailAbort s
  | .plyMvm m bad => Sys2Proof.Machine.execPlyMvm m bad s
  | .splice m bad => Sys2Proof.Machine.execSplice m bad s
  | .attend m bad => Sys2Proof.Machine.execAttend m bad s
  | .attendJobStart m pages => Sys2Proof.Machine.execAttendJobStart m pages s
  | .expand m bad => Sys2Proof.Machine.execExpand m bad s
  | .norm m bad slow => Sys2Proof.Machine.execNorm m bad slow s
  | .rope m bad slow => Sys2Proof.Machine.execRope m bad slow s
  | .act m bad slow => Sys2Proof.Machine.execAct m bad slow s
  | .add m bad => Sys2Proof.Machine.execAdd m bad s
  | .scale m bad => Sys2Proof.Machine.execScale m bad s
  | .send m bad => Sys2Proof.Machine.execSend m bad s
  | .recv m bad => Sys2Proof.Machine.execRecv m bad s
  | .recvTimeout m => Sys2Proof.Machine.execRecvTimeout m s
  | .gather m bad => Sys2Proof.Machine.execGather m bad s
  | .logits m bad => Sys2Proof.Machine.execLogits m bad s
  | .sample m => Sys2Proof.Machine.execSample m s
  | .check m bad => Sys2Proof.Machine.execCheck m bad s
  | .barrier m => Sys2Proof.Machine.execBarrier m s
  | .repeatBody m => Sys2Proof.Machine.execRepeatBody m s
  | .wload c => Sys2Proof.Machine.execWload c s
  | .wloadManifestRead c bytes => Sys2Proof.Machine.execWloadManifestRead c bytes s
  | .ctxShardPost c v => Sys2Proof.Machine.execCtxShardPost c v s
  | .shardFetchComplete k bytes => Sys2Proof.Machine.execShardFetchComplete k bytes s
  | .wloadTimeout c => Sys2Proof.Machine.execWloadTimeout c s
  | .derivedImageBuilt c m x => Sys2Proof.Machine.execDerivedImageBuilt c m x s
  | .wloadComplete c => Sys2Proof.Machine.execWloadComplete c s
  | .start c => Sys2Proof.Machine.execStart c s
  | .stop c => Sys2Proof.Machine.execStop c s
  | .ctxDrainComplete c => Sys2Proof.Machine.execCtxDrainComplete c s
  | .wabort c => Sys2Proof.Machine.execWabort c s
  | .ctxWbaseWrite c v => Sys2Proof.Machine.execCtxWbaseWrite c v s
  | .seqCqTailWrite v slots written => Sys2Proof.Machine.execSeqCqTailWrite v slots written s
  | .seqCplHeadWrite v slots written => Sys2Proof.Machine.execSeqCplHeadWrite v slots written s
  | .completionRetry slots written => Sys2Proof.Machine.execCompletionRetry slots written s
  | .seqCtlWrite v slots written => Sys2Proof.Machine.execSeqCtlWrite v slots written s
  | .seqHintWrite v => Sys2Proof.Machine.execSeqHintWrite v s
  | .seqEntryRead => Sys2Proof.Machine.execSeqEntryRead s
  | .submit d reel smp ok => Sys2Proof.Machine.execSubmit d reel smp ok s
  | .append d ok => Sys2Proof.Machine.execAppend d ok s
  | .resume d ok => Sys2Proof.Machine.execResume d ok s
  | .cancel d ok => Sys2Proof.Machine.execCancel d ok s
  | .fork d reel smp ok => Sys2Proof.Machine.execFork d reel smp ok s
  | .spill d ok => Sys2Proof.Machine.execSpill d ok s
  | .recall d ok => Sys2Proof.Machine.execRecall d ok s
  | .moveComplete pages ok => Sys2Proof.Machine.execMoveComplete pages ok s
  | .release d ok => Sys2Proof.Machine.execRelease d ok s
  | .setPriority d ok => Sys2Proof.Machine.execSetPriority d ok s
  | .inputCopyComplete n toks ok => Sys2Proof.Machine.execInputCopyComplete n toks ok s
  | .deadlineExpiry n => Sys2Proof.Machine.execDeadlineExpiry n s
  | .samplerFinish c => Sys2Proof.Machine.execSamplerFinish c s
  | .commitSweep x => Sys2Proof.Machine.execCommitSweep x s
  | .matchUpdate n => Sys2Proof.Machine.execMatchUpdate n s
  | .noticeWrite => Sys2Proof.Machine.execNoticeWrite s
  | .recorderWrite => Sys2Proof.Machine.execRecorderWrite s
  | .reelRecordWrite n ok tailOk => Sys2Proof.Machine.execReelRecordWrite n ok tailOk s
  | .reelHeadRead n head => Sys2Proof.Machine.execReelHeadRead n head s
  | .reelPoll n head => Sys2Proof.Machine.execReelPoll n head s
  | .reelKick h head tailOk => Sys2Proof.Machine.execReelKick h head tailOk s
  | .smpRecRead => Sys2Proof.Machine.execSmpRecRead s
  | .pageCopyComplete => Sys2Proof.Machine.execPageCopyComplete s
  | .deferredFree p => Sys2Proof.Machine.execDeferredFree p s
  | .frameMove p => Sys2Proof.Machine.execFrameMove p s
  | .pfxLoad len => Sys2Proof.Machine.execPfxLoad len s
  | .pfxLoadComplete bytes => Sys2Proof.Machine.execPfxLoadComplete bytes s
  | .pfxClear => Sys2Proof.Machine.execPfxClear s
  | .kvHostBaseWrite pages v => Sys2Proof.Machine.execKvHostBaseWrite pages v s
  | .apply => Sys2Proof.Machine.execApply s
  | .fetch => Sys2Proof.Machine.execFetch s
  | .kwCrc32c m n rd rs1 rs2 => Sys2Proof.Machine.execKwCrc32c m n rd rs1 rs2 s
  | .kwKeccak m n rd rs1 => Sys2Proof.Machine.execKwKeccak m n rd rs1 s
  | .kwTwist m n rd rs1 rs2 ext => Sys2Proof.Machine.execKwTwist m n rd rs1 rs2 ext s
  | .kwPgwalk m n rd rs1 rs2 => Sys2Proof.Machine.execKwPgwalk m n rd rs1 rs2 s
  | .kwWaitev m n rd rs1 => Sys2Proof.Machine.execKwWaitev m n rd rs1 s
  | .kwSignal m n rs1 rs2 => Sys2Proof.Machine.execKwSignal m n rs1 rs2 s
  | .spindleWatchdog m n heir => Sys2Proof.Machine.execSpindleWatchdog m n heir s
  | .mastSpnCtlWrite m v => Sys2Proof.Machine.execMastSpnCtlWrite m v s
  | .operatorTrap m n code pc => Sys2Proof.Machine.execOperatorTrap m n code pc s
  | .ecallCancel m n => Sys2Proof.Machine.execEcallCancel m n s
  | .ecallSetPriority m n => Sys2Proof.Machine.execEcallSetPriority m n s
  | .notify m n => Sys2Proof.Machine.execNotify m n s
  | .intLogHeadWrite v => Sys2Proof.Machine.execIntLogHeadWrite v s
  | .intLogDataRead => Sys2Proof.Machine.execIntLogDataRead s
  | .digestRoundEnd cells shards => Sys2Proof.Machine.execDigestRoundEnd cells shards s
  | .jobHalt found => Sys2Proof.Machine.execJobHalt found s
  | .verifyComplete pages => Sys2Proof.Machine.execVerifyComplete pages s
  | .restartReady => Sys2Proof.Machine.execRestartReady s
  | .resumeMessage => Sys2Proof.Machine.execResumeMessage s
  | .restartTimeout => Sys2Proof.Machine.execRestartTimeout s
  | .restartReadyResend => Sys2Proof.Machine.execRestartReadyResend s
  | .jobHaltResend => Sys2Proof.Machine.execJobHaltResend s
  | .intRecArm h => Sys2Proof.Machine.execIntRecArm h s
  | .intRecDisarm h => Sys2Proof.Machine.execIntRecDisarm h s
  | .intRecCtlWrite v => Sys2Proof.Machine.execIntRecCtlWrite v s
  | .intRecHeadWrite v => Sys2Proof.Machine.execIntRecHeadWrite v s
  | .replay => Sys2Proof.Machine.execReplay s
  | .replayStepComplete => Sys2Proof.Machine.execReplayStepComplete s
  | .rplAbort => Sys2Proof.Machine.execRplAbort s
  | .linkFrame p b corrected uncor => Sys2Proof.Machine.execLinkFrame p b corrected uncor s
  | .linkResend p => Sys2Proof.Machine.execLinkResend p s
  | .laneLockLoss p l => Sys2Proof.Machine.execLaneLockLoss p l s
  | .portIdleTimeout p => Sys2Proof.Machine.execPortIdleTimeout p s
  | .portTrainingDone p lanes inTime => Sys2Proof.Machine.execPortTrainingDone p lanes inTime s
  | .en p v => Sys2Proof.Machine.execEn p v s
  | .retrain p on => Sys2Proof.Machine.execRetrain p on s
  | .packetTransit => Sys2Proof.Machine.execPacketTransit s
  | .row => Sys2Proof.Machine.execRow s
  | .logit => Sys2Proof.Machine.execLogit s
  | .input c => Sys2Proof.Machine.execInput c s
  | .batch c => Sys2Proof.Machine.execBatch c s
  | .commit c => Sys2Proof.Machine.execCommit c s
  | .reserve x => Sys2Proof.Machine.execReserve x s
  | .reserveAck ok => Sys2Proof.Machine.execReserveAck ok s
  | .refuse ok => Sys2Proof.Machine.execRefuse ok s
  | .headRelease x => Sys2Proof.Machine.execHeadRelease x s
  | .pageLost => Sys2Proof.Machine.execPageLost s
  | .ranges c => Sys2Proof.Machine.execRanges c s
  | .rigRouteRead => Sys2Proof.Machine.execRigRouteRead s
  | .cxlLinkReset => Sys2Proof.Machine.execCxlLinkReset s
  | .hostLinkUp pairs => Sys2Proof.Machine.execHostLinkUp pairs s
  | .hostLinkTrainRetry => Sys2Proof.Machine.execHostLinkTrainRetry s
  | .bmStop bme d3hot ring => Sys2Proof.Machine.execBmStop bme d3hot ring s
  | .vectorHoldoffEnd v => Sys2Proof.Machine.execVectorHoldoffEnd v s
  | .doeRequest q => Sys2Proof.Machine.execDoeRequest q s
  | .getMeasurements => Sys2Proof.Machine.execGetMeasurements s
  | .ideKm sess memId ioId => Sys2Proof.Machine.execIdeKm sess memId ioId s
  | .ideIntegrityFailure => Sys2Proof.Machine.execIdeIntegrityFailure s
  | .endSession n => Sys2Proof.Machine.execEndSession n s
  | .bar2Reject width => Sys2Proof.Machine.execBar2Reject width s
  | .doorbell k => Sys2Proof.Machine.execDoorbell k s
  | .ack k => Sys2Proof.Machine.execAck k s
  | .mbxCleatRead k a => Sys2Proof.Machine.execMbxCleatRead k a s
  | .mbxCleatWrite k v => Sys2Proof.Machine.execMbxCleatWrite k v s
  | .info k msg => Sys2Proof.Machine.execInfo k msg s
  | .link k msg => Sys2Proof.Machine.execLink k msg s
  | .fwStatus k msg busy => Sys2Proof.Machine.execFwStatus k msg busy s
  | .fwWrite k msg busy => Sys2Proof.Machine.execFwWrite k msg busy s
  | .fwActivate k msg busy => Sys2Proof.Machine.execFwActivate k msg busy s
  | .fwCommit k msg busy => Sys2Proof.Machine.execFwCommit k msg busy s
  | .idInfo k msg busy => Sys2Proof.Machine.execIdInfo k msg busy s
  | .pwrSail w => Sys2Proof.Machine.execPwrSail w s
  | .pwrReef w => Sys2Proof.Machine.execPwrReef w s
  | .pwrDouse w => Sys2Proof.Machine.execPwrDouse w s
  | .pwrFurl => Sys2Proof.Machine.execPwrFurl s
  | .powerChooser => Sys2Proof.Machine.execPowerChooser s
  | .reefEntry g => Sys2Proof.Machine.execReefEntry g s
  | .douseEntry g => Sys2Proof.Machine.execDouseEntry g s
  | .furlEntry => Sys2Proof.Machine.execFurlEntry s
  | .selfWake => Sys2Proof.Machine.execSelfWake s
  | .firstAccess m kind => Sys2Proof.Machine.execFirstAccess m kind s
  | .diePowerStable m d => Sys2Proof.Machine.execDiePowerStable m d s
  | .douseWake => Sys2Proof.Machine.execDouseWake s
  | .furlWake => Sys2Proof.Machine.execFurlWake s
  | .wakeSlotDelayEnd => Sys2Proof.Machine.execWakeSlotDelayEnd s
  | .powerSample volts amps watts told => Sys2Proof.Machine.execPowerSample volts amps watts told s
  | .inputUndervoltage => Sys2Proof.Machine.execInputUndervoltage s
  | .inputFault => Sys2Proof.Machine.execInputFault s
  | .nop kind addr => Sys2Proof.Machine.execNop kind addr s
  | .wake kind addr => Sys2Proof.Machine.execWake kind addr s
  | .reef kind addr => Sys2Proof.Machine.execReef kind addr s
  | .douse kind addr => Sys2Proof.Machine.execDouse kind addr s
  | .furl kind addr => Sys2Proof.Machine.execFurl kind addr s
  | .reset kind addr payload => Sys2Proof.Machine.execReset kind addr payload s
  | .lanyardBadFrame => Sys2Proof.Machine.execLanyardBadFrame s
  | .lanyardStuck inFrame => Sys2Proof.Machine.execLanyardStuck inFrame s
  | .lanyardUnstuck => Sys2Proof.Machine.execLanyardUnstuck s
  | .lanyardWindowEnd => Sys2Proof.Machine.execLanyardWindowEnd s
  | .crystalFailure => Sys2Proof.Machine.execCrystalFailure s
  | .rootPllUnlock => Sys2Proof.Machine.execRootPllUnlock s
  | .hbmPllUnlock k => Sys2Proof.Machine.execHbmPllUnlock k s
  | .opticalPllUnlock e => Sys2Proof.Machine.execOpticalPllUnlock e s
  | .coldReset => Sys2Proof.Machine.execColdReset s
  | .romBoot => Sys2Proof.Machine.execRomBoot s
  | .firmwareRelease => Sys2Proof.Machine.execFirmwareRelease s
  | .mgmtWatchdog => Sys2Proof.Machine.execMgmtWatchdog s
  | .securityCoreFault => Sys2Proof.Machine.execSecurityCoreFault s
  | .cxlMemWindowWrite o b => Sys2Proof.Machine.execCxlMemWindowWrite o b s
  | .returnToRetention m => Sys2Proof.Machine.execReturnToRetention m s
  | .opticalPllLock e => Sys2Proof.Machine.execOpticalPllLock e s
  | .timeCompare m n => Sys2Proof.Machine.execTimeCompare m n s
  | .replayChainRead bytes => Sys2Proof.Machine.execReplayChainRead bytes s
  | .lanyardReservedCmd kind addr => Sys2Proof.Machine.execLanyardReservedCmd kind addr s

end Sys2Proof.Machine
end

