-- ==== Sys2Proof/Machine/Tick.lean ====
section
/-! DEFINITION. What a device does while no command waits (log entry 48). -/

namespace Sys2Proof.Machine

/-- One tick of LOCAL_TIME (R422), which stands still while the crystal is off; VERIFY begins in a job halt (Table 14.8), and
masts in line for power-up take their turn (R406). -/
def State.tick (s : State) : State :=
  if s.clk.xtalOk then
    let s : State := { s with time := s.time + 1 }
    s.keepBoot (s.beginVerify.pumpPower 4)
  else s

end Sys2Proof.Machine
end

