-- ==== Sys2Proof/Safety.lean ====
section
/-! DEFINITION. What statements say of the device: that a command completes, the canonical form of its memories, the bounds of
its flash, and what a command leaves alone. -/

namespace Sys2Proof.Machine

/-- The canonical form of a memory of bytes whose unlisted bytes read as `d`: addresses strictly rising, no entry equal to
`d`. -/
def Memory.wf (d : Byte) (l : List Host.Cell) : Bool := tabWf d l

/-- A command completes: it answers a next state, of which `P` holds. -/
def Completes (i : Instr) (s : State) (P : State → Prop) : Prop := ∃ t, exec i s = .next t ∧ P t

/-- Bytes of the flash (R428). -/
def flashBytes : Nat := 67108864

/-- The flash is in canonical form and lists no byte beyond its 64 MiB. -/
def State.FlashOk (s : State) : Prop := Memory.wf 0xFF s.flash = true ∧ s.flash.all (fun ab => decide (ab.1 < flashBytes)) = true

/-- What every command leaves alone but those of resets, of the ROM, of the firmware services and of FURL: LOCAL_TIME, the
flash, the identity key, the boot state. -/
def State.BootKept (s t : State) : Prop :=
  t.time = s.time ∧ t.flash = s.flash ∧ t.clk.idKey = s.clk.idKey ∧ t.clk.state = s.clk.state

/-- The stream of mast m, at operation `a` before, has gone on to the next operation of its pass. -/
def State.WentOn (t : State) (m : Nat) (a : State.At) : Prop :=
  (t.stream m).busy = true ∧ (t.stream m).pos = a.pos + 1 ∧ (t.stream m).iter = a.iter ∧ (t.stream m).started = false

/-- The pass of mast m's stream, at operation `a`, has ended: the pass of the next block begins, or the mast has completed the batch's work
of the beat (R162, R163). -/
def State.PassEnded (s t : State) (m : Nat) (a : State.At) : Prop :=
  if a.blk + 1 < ceilDiv (batchToks a.b) 1024 then
    (t.stream m).busy = true ∧ (t.stream m).block = BitVec.ofNat 4 (a.blk + 1) ∧ (t.stream m).started = false ∧ t.batches = s.batches ∧
    (s.isReload a.b.ctx = false → (t.stream m).pos = 0 ∧ (t.stream m).iter = 0)
  else (t.stream m).busy = false ∧ ∀ y ∈ t.batches, y.step = a.b.step → y.ctx = a.b.ctx → y.finished = false → m ∈ y.doneMasts

/-- The rows that a class V operation over the block leaves in the activation store, each token's from a function of what the store then
holds (R174). -/
def State.vectorRows (s : State) (m : Nat) (a : State.At) (f : State → Nat → Nat × Nat → List W32) : State :=
  ((State.blockToks a.b a.blk).mapIdx (fun t kj => (t, kj))).foldl (fun u x =>
    u.writeRow m (opDst a.op) (opWidth a.op) (opFmtD a.op) x.1 ((f u x.1 x.2).map (fun v => (convTo (opFmtD a.op) v).bits))) s

/-- A completion can be written at once: the engine is enabled, its ring has room and none waits, and host memory takes requests
(R212, R467). -/
def State.ringTakes (s : State) : Bool := s.seq.held.isEmpty && !s.cplFull && s.seq.enable && !s.bmStop

/-- Command d has completed with a status, a state code and a byte 11: the completion stands in its ring slot, or waits. -/
def State.Answered (s t : State) (d : Desc) (h : W32) (st : Byte) (code b11 : Nat) : Prop :=
  if s.ringTakes then
    .hostWrite (s.seq.cplBase.toNat + 16 * s.seq.cplTail.toNat) (cplBytes ⟨d.tag, h, st, d.opcode, code, b11⟩) ∈ t.out ∧
    t.seq.cplTail = BitVec.ofNat 16 ((s.seq.cplTail.toNat + 1) % s.seq.cplSize.toNat)
  else t.seq.held = s.seq.held ++ [⟨d.tag, h, st, d.opcode, code, b11⟩] ∧ t.seq.cplTail = s.seq.cplTail

end Sys2Proof.Machine
end

