-- ==== Sys2Proof/Certificates/Slice0/Obligations.lean ====
section
/-! DEFINITION. The statements put forward for proof. `Completes i s P`: command i answers a next state, of which P holds. The
frame of a statement is written as an equation: the next state with the parts that may change taken from it is the state
before. -/

open Sys2Proof Sys2Proof.Machine

/-! The device as a whole. -/

/-- The step takes the command at the front of the queue (this model's own form, log entry 1). With no command waiting, LOCAL_TIME advances by
one tick while the crystal runs, and stands still otherwise (R422; the tick as the step of an empty queue is the model's choice, log entry
48). -/
def Obligations.StepRunsTheFront : Prop :=
  (∀ (s : State) (c : Instr) (rest : List Instr), s.pending = c :: rest → step s = exec c { s with pending := rest }) ∧
  (∀ s : State, s.pending = [] →
     (s.clk.xtalOk = true → ∃ t, step s = .next t ∧ t.time = s.time + 1 ∧ t.pending = [] ∧ t.flash = s.flash) ∧
     (s.clk.xtalOk = false → step s = .next s))

/-- No command alters the queue, whatever it does (the model's own form, log entry 1). R422: no command but a cold reset touches LOCAL_TIME.
R144: the operator key, once locked, stays as it is until a cold reset. -/
def Obligations.OnlyAColdResetChanges : Prop :=
  (∀ (i : Instr) (s t : State), exec i s = .next t → t.pending = s.pending) ∧
  (∀ (i : Instr) (s t : State), exec i s = .next t → i ≠ .coldReset → i ≠ .inputFault → t.time = s.time) ∧
  (∀ (i : Instr) (s t : State), exec i s = .next t → s.sail.locked = true →
     i ≠ .coldReset → i ≠ .inputFault → t.sail.locked = true ∧ t.sail.opkey = s.sail.opkey)

/-- R427: only a warm or cold reset ends DEVICE_FATAL: whatever else is commanded, a CXL link reset among it, the device stays halted. A lanyard
RESET frame that is accepted ends it (while the crystal runs, R421), and so does removing power. -/
def Obligations.OnlyAResetEndsDeviceFatal : Prop :=
  (∀ (i : Instr) (s t : State), exec i s = .next t → s.devFatal = true →
    i ≠ .coldReset → i ≠ .inputFault → (∀ kind addr payload, i ≠ .reset kind addr payload) → t.devFatal = true) ∧
  (∀ s : State,
    Completes .coldReset s (fun t => t.devFatal = false) ∧ Completes .inputFault s (fun t => t.devFatal = false) ∧
    (∀ kind addr, kind < 4 → addr < 131072 → s.lan.stuck = false → s.addressed kind addr = true → s.lan.resetEn = true →
      s.clk.xtalOk = true → Completes (.reset kind addr 0xC33C3C) s (fun t => t.devFatal = false)) ∧
    (∀ kind addr payload, s.devFatal = true →
      (s.lan.stuck = true ∨ s.addressed kind addr = false ∨ s.lan.resetEn = false ∨ payload ≠ 0xC33C3C) →
      Completes (.reset kind addr payload) s (fun t => t.devFatal = true)))

/-- R428, R432, R434: the commands other than resets, the ROM, the firmware services and FURL leave the flash, the identity key and the boot
state alone. -/
def Obligations.BootStateIsTheRomsAlone : Prop :=
  ∀ (i : Instr) (s t : State), exec i s = .next t →
    i ≠ .coldReset → i ≠ .inputFault → (∀ kind addr payload, i ≠ .reset kind addr payload) →
    i ≠ .romBoot → i ≠ .firmwareRelease → i ≠ .furlEntry → i ≠ .furlWake →
    (∀ k msg busy, i ≠ .fwWrite k msg busy) → (∀ k msg busy, i ≠ .fwActivate k msg busy) →
    (∀ k msg busy, i ≠ .fwCommit k msg busy) → s.BootKept t

/-- Every step keeps the flash in canonical form and within its 64 MiB (R428). -/
def Obligations.FlashStaysWellFormed : Prop :=
  ∀ s t : State, s.FlashOk → step s = .next t → t.FlashOk

/-- The flash of a device just reset is in canonical form. The model's own choices in it: log entry 7. -/
def Obligations.FlashWellFormedAtReset : Prop :=
  State.reset.FlashOk

/-- R334: a halted device takes no command of the host: register writes and commands of its registers complete without effect. -/
def Obligations.HaltedDeviceTakesNoCommand : Prop :=
  ∀ s : State, s.devFatal = true →
    (∀ bar2 spindle o width v, exec (.registerWrite bar2 spindle o width v) s = .next s) ∧
    (∀ m p host, exec (.write m p host) s = .next s ∧ exec (.colwrite m p host) s = .next s ∧
      exec (.abort m p host) s = .next s ∧ exec (.discard m p host) s = .next s) ∧
    (∀ m p r, exec (.mastArrRetWrite m p r) s = .next s) ∧
    (exec .adcSelfcal s = .next s ∧ exec .adcAbort s = .next s ∧ exec .adcSave s = .next s ∧ exec .adcRestore s = .next s) ∧
    (exec .trimSave s = .next s ∧ exec .trimRestore s = .next s ∧ exec .ageSave s = .next s) ∧
    (∀ named, exec (.sailLoad named) s = .next s) ∧ exec .sailAbort s = .next s ∧
    (∀ c, exec (.wload c) s = .next s ∧ exec (.start c) s = .next s ∧ exec (.stop c) s = .next s ∧ exec (.wabort c) s = .next s) ∧
    (∀ d reel smp ok, exec (.submit d reel smp ok) s = .next s ∧ exec (.fork d reel smp ok) s = .next s) ∧
    (∀ d ok, exec (.append d ok) s = .next s ∧ exec (.resume d ok) s = .next s ∧ exec (.cancel d ok) s = .next s ∧
      exec (.spill d ok) s = .next s ∧ exec (.recall d ok) s = .next s ∧ exec (.release d ok) s = .next s ∧
      exec (.setPriority d ok) s = .next s) ∧
    (∀ w, exec (.pwrSail w) s = .next s ∧ exec (.pwrReef w) s = .next s ∧ exec (.pwrDouse w) s = .next s) ∧
    exec .pwrFurl s = .next s ∧ (∀ k, exec (.doorbell k) s = .next s ∧ exec (.ack k) s = .next s)

/-! The beat and the register map (chapters 1 and 21). -/

/-- R15: while a batch in the running beat has not completed its work, BEAT_BOUNDARY changes nothing of the beat, nor does it while the device
is halted or in DEVICE_FATAL: at most masts that sleep and have work are woken. Once every batch has completed its work, the boundary is
taken: a beat runs from now on exactly if a batch has work to do in it. With no batch in flight, rolled back or received from a head, and no
context RUNNING, no batch is in flight after it and no beat runs. R159: when the slice of the rotation's holder has run for the SLICE
milliseconds of its panel, it is over; until then, and with no holder, nothing changes. The model's own choices in it: log entries 89, 121
and 139. -/
def Obligations.BeatsAndSlices : Prop :=
  (∀ (s : State) (terms : List MastTerms),
     ((s.beatOn = true ∧ ∃ b ∈ s.batches, s.beatDone b = false) ∨ s.integ.phase ≠ 0 ∨ s.devFatal = true →
       Completes (.beatBoundary terms []) s (fun t => t = { s with
         pwr := t.pwr
         dies := t.dies
         genCause := t.genCause
         vecs := t.vecs
         out := t.out })) ∧
     (s.integ.phase = 0 → s.devFatal = false → (s.beatOn = true → ∀ b ∈ s.batches, s.beatDone b = true) →
       Completes (.beatBoundary terms []) s (fun t => t.beatOn = t.batches.any (fun b => !b.finished) ∧ t.beatStart = s.time)) ∧
     (s.integ.phase = 0 → s.devFatal = false → s.batches = [] → s.rolled = [] → s.remoteWait = [] → (∀ c, (s.ctx c).st ≠ .running) →
       Completes (.beatBoundary terms []) s (fun t => t.batches = [] ∧ t.beatOn = false))) ∧
  (∀ s : State,
     (∀ c, (upTo 16).find? (fun c => (s.ctx c).sliced && (s.ctx c).holder) = some c →
       let due := (s.ctx c).sliceStart + 100000 * (((s.ctx c).sect.map (·.panel.slice)).getD 0)
       ((s.ctx c).sliceOn = true → due ≤ s.now → Completes .sliceExpired s (fun t =>
         t.ctx c = { s.ctx c with sliceOver := true } ∧ (∀ d, d ≠ c → t.ctx d = s.ctx d) ∧ t = { s with ctxs := t.ctxs })) ∧
       ((s.ctx c).sliceOn = false ∨ s.now < due → Completes .sliceExpired s (fun t => t = s))) ∧
     ((upTo 16).find? (fun c => (s.ctx c).sliced && (s.ctx c).holder) = none → Completes .sliceExpired s (fun t => t = s)))

/-- R5, R8: each of the counter and value registers listed, which software may write whole, takes the value written by the host or by a spindle
with a 32-bit access, and a read returns it; arrays, entries, HBM and flash stay as they are. The model's own choices in it: log entry 85. -/
def Obligations.RegisterWriteReadsBack : Prop :=
  ∀ (s : State) (spindle : Bool) (v : W32) (o : Nat), s.hostMay = true →
    o ∈ [0x10, 0x100010, 0x200050, 0x200054, 0x200100, 0x40001C, 0x4000CC, 0x600004, 0x600008, 0x601020, 0x800008, 0x800030, 0x880008,
      0xA00014, 0xA00018, 0xA00048, 0xA0004C, 0xA0011C, 0xA00130, 0xC00024, 0xC00048, 0xC0004C, 0xE00010, 0xE00014, 0xE00018,
      0xE0001C, 0xE00020, 0x1000010, 0x2000140, 0x2800144, 0x3000180, 0x3800184, 0x2000188, 0x28001C8, 0x30001CC, 0x3800204,
      0x2000210, 0x2800228] →
    Completes (.registerWrite false spindle o 32 (v.setWidth 64)) s (fun t =>
      t.readReg false spindle o 32 = v.toNat ∧ t.arrs = s.arrs ∧ t.entries = s.entries ∧ t.hbm = s.hbm ∧ t.flash = s.flash)

/-! Charge arrays (chapter 2). -/

/-- R41, R58, R115: a step slot of a mast whose clocks run advances the array step counter by one. Of the raw codes latched in it, each whose
bit decision had not resolved, in a READY or ACTIVE array of a die that does not calibrate, adds one to ADC_META, which stays at its largest
value, and one to the count of the converter that serves its column. Nothing else of the device changes. R45: with every die of a mast
powered and no die at 120 °C, each die reports its hottest sensor; the row of Table 2.9 follows the hottest, up at once and down only past 3
°C, and the temperature setting is the shortest interval of that row over the level maps in use on the mast (the 63-level map where no array
uses one). The other masts and their dies stay as they are, and so does everything else. The model's own choices in it: log entry 88. -/
def Obligations.StepSlotsAndTemperature : Prop :=
  (∀ (s : State) (m : Nat) (codes : List RawCode), m < 4 → s.mastRuns m = true →
     (∀ x ∈ codes, x.p < 17408 ∧ x.col < 1040 ∧ x.phase < 4) →
     let met := (codes.filter (fun x => s.measures m x.p && x.unresolved.isSome)).map (fun x => (x.p, convOf (s.cal m x.p).map (x.col / 8)))
     Completes (.arrayStepSlot m codes) s (fun t =>
       t.mast m = { s.mast m with
         stepCtr := (s.mast m).stepCtr + 1
         slotDone := false
         adcMeta := BitVec.ofNat 32 (min (2 ^ 32 - 1) ((s.mast m).adcMeta.toNat + met.length)) } ∧
       (∀ p g, p < 17408 → g < 132 → t.meta_ m p g = s.meta_ m p g + met.count (p, g)) ∧
       (∀ k, k ≠ m → t.mast k = s.mast k) ∧
       t = { s with
         masts := t.masts
         metas := t.metas })) ∧
  (∀ (s : State) (m : Nat) (temps : List W16), m < 4 → temps.length = 8 → (∀ d, d < 8 → (s.die m d).powered = true) →
     (∀ x ∈ temps, x.toInt < 1920) → (∀ k d, (s.die k d).valid = true → (s.die k d).temp.toInt < 1920) →
     ∀ h, (temps.map (·.toInt)).max? = some h →
     let b := State.nextBand h (s.mast m).band
     let maps := if (s.mapsInUse m).isEmpty then [0] else s.mapsInUse m
     Completes (.dieTempSample m temps) s (fun t =>
       (∀ d, d < 8 → (t.die m d).powered = true ∧ (t.die m d).valid = true ∧ (t.die m d).temp = temps.getD d 0) ∧
       (∀ k d, d < 8 → k ≠ m → t.die k d = s.die k d) ∧
       t.mast m = { s.mast m with
         band := b
         tempInt := State.shortest (maps.map (State.bandInterval b)) } ∧ (∀ k, k ≠ m → t.mast k = s.mast k) ∧
       t = { s with
         dies := t.dies
         masts := t.masts }))

/-- R36, R37, R46: a WRITE that nothing refuses latches LMAP, SPAN, the image's address and the column map in force, and the array is WRITING.
It waits in its mast's queue, behind those that wait already, exactly where its die is off or runs ADC_SELFCAL, where 128 writes run, or
where an earlier write that could start waits; otherwise it runs. Every other array, and every cell, stays as it is. R50: a WRITE that is
refused completes with the first status that applies, in the order of Table 2.12, of which ARR_OWNED is the host's alone. CMD_LAST and
CMD_STATUS show it, a command in progress goes on, and MBX_GEN_CAUSE.ARR is set for the host. Every other array, and every cell, stays as it
is. -/
def Obligations.WriteIsTakenOrRefused : Prop :=
  (∀ (s : State) (m p : Nat) (host : Bool), m < 4 → p < 17408 → s.hostMay = true → (host = true → (s.arr m p).slot = none) →
     (s.arr m p).cmdBusy = false → (s.arr m p).st ≠ .active → (s.arr m p).st ≠ .retired → (s.arr m p).cfgLmap ≠ 3 →
     4 ≤ (s.arr m p).cfgSpan.toNat → (s.arr m p).cfgSpan.toNat ≤ 10 → State.srcOk m (s.arr m p).src.toNat 1048576 = true →
     let u := (s.arrAccept m p 1).modArr m p (fun a => { a with byHost := host })
     let q := !(s.die m (dieOf p)).powered || s.dieCal m (dieOf p) || decide (128 ≤ (u.runningWrites m).length) || (u.startable m).isSome
     Completes (.write m p host) s (fun t =>
       t.arr m p = { s.arr m p with
         st := .writing
         cmdLast := 1
         cmdBusy := true
         byHost := host
         queued := q
         write := some {
           lmap := (s.arr m p).cfgLmap
           span := (s.arr m p).cfgSpan
           src := (s.arr m p).src
           colMap := s.colMapOf m p
           row := 0
           failed := []
           pattern := false
           restart := false } } ∧
       t.mast m = { s.mast m with wrQueue := (s.mast m).wrQueue ++ (if q then [p] else []) } ∧
       (∀ k, k ≠ m → t.mast k = s.mast k) ∧
       (∀ k j, kArr k j ≠ kArr m p → t.arr k j = s.arr k j) ∧
       t = { s with
         arrs := t.arrs
         masts := t.masts
         pwr := t.pwr
         dies := t.dies
         genCause := t.genCause
         vecs := t.vecs
         out := t.out })) ∧
  (∀ (s : State) (m p : Nat) (host : Bool), m < 4 → p < 17408 → s.hostMay = true →
     ∀ st, (if host = true ∧ (s.arr m p).slot.isSome then st = sArrOwned
       else if (s.arr m p).cmdBusy then st = sArrBusy
       else if (s.arr m p).st = .active then st = sArrActive
       else if (s.arr m p).st = .retired then st = sArrRetired
       else ((s.arr m p).cfgLmap = 3 ∨ (s.arr m p).cfgSpan.toNat < 4 ∨ 10 < (s.arr m p).cfgSpan.toNat ∨
         State.srcOk m (s.arr m p).src.toNat 1048576 = false) ∧ st = sBadConfig) →
       Completes (.write m p host) s (fun t =>
         t.arr m p = { s.arr m p with
           cmdLast := 1
           cmdStatus := st } ∧ (host = true → t.genCause.getLsbD 10 = true) ∧
         (∀ k j, kArr k j ≠ kArr m p → t.arr k j = s.arr k j) ∧
         t = { s with
           arrs := t.arrs
           pwr := t.pwr
           dies := t.dies
           genCause := t.genCause
           vecs := t.vecs
           out := t.out }))

/-- R36, R37, R39, R40: the row windows of a write that a command issued and that runs, on an array where firmware has no other command to
issue. A row within the latched map is written whole, by the column map as latched and with the reference patterns, and the result of
reading the row before it back is noted; nothing else changes but the sums of the columns. A row that holds an index outside the map stops
the write with BAD_CODE, and one whose image block fails its check value with BAD_IMAGE, which is logged; the array becomes BLANK. The
model's own choices in it: log entries 22 and 108. -/
def Obligations.WriteRowWindow : Prop :=
  ∀ (s : State) (m p : Nat) (j : WriteJob), m < 4 → p < 17408 → (s.arr m p).write = some j → (s.arr m p).st = .writing →
    (s.arr m p).queued = false → (s.arr m p).fw = none → j.pattern = false → j.restart = false → j.row < 1024 →
    let img := s.imageBytes m j.image j.src.toNat (1024 * j.row) 1024
    (img.all (State.inMap j.lmap) = true →
      ∀ back, Completes (.writeRowWindow m p ⟨true, false, back⟩) s (fun t =>
        t.row m p j.row = slice (State.physRow j j.row img) 0 1040 ∧
        (∀ k y r, r < 1024 → kRow k y r ≠ kRow m p j.row → t.row k y r = s.row k y r) ∧
        t.arr m p = { s.arr m p with write := some { j with
          row := j.row + 1
          failed := if 0 < j.row ∧ back = false then j.failed ++ [j.row - 1] else j.failed } } ∧
        (∀ k y, kArr k y ≠ kArr m p → t.arr k y = s.arr k y) ∧
        t = { s with
          rows := t.rows
          sums := t.sums
          arrs := t.arrs })) ∧
    (img.all (State.inMap j.lmap) = false →
      ∀ back, Completes (.writeRowWindow m p ⟨true, false, back⟩) s (fun t =>
        t.arr m p = { s.arr m p with
          st := .blank
          write := none
          cmdBusy := false
          byHost := false
          cmdStatus := sBadCode } ∧
        (∀ k y, kArr k y ≠ kArr m p → t.arr k y = s.arr k y) ∧ ((s.arr m p).byHost = true → t.genCause.getLsbD 10 = true) ∧
        t = { s with
          arrs := t.arrs
          genCause := t.genCause
          vecs := t.vecs
          out := t.out })) ∧
    (j.image = none → ∀ again back, Completes (.writeRowWindow m p ⟨false, again, back⟩) s (fun t =>
      (t.arr m p).st = .blank ∧ (t.arr m p).write = none ∧ (t.arr m p).cmdBusy = false ∧ (t.arr m p).cmdStatus = sBadImage ∧
      (∀ k y, kArr k y ≠ kArr m p → t.arr k y = s.arr k y) ∧
      t.integ.tail = s.integ.tail + 1 ∧ t.rows = s.rows ∧ t.sums = s.sums))

/-- R37, R38: the first queued write that can start runs. A write that a command issued, and whose failed rows all read back once rewritten,
makes its array READY with the latched map and span and completes with OK. One with a row that fails again completes with VERIFY_FAIL:
RETIRED is set, the array is RETIRED and the event is logged. On an array where firmware has no other command to issue. R40: COLWRITE of a
spare column that serves no logical column, on a READY or ACTIVE array, is taken, and the array stays as it is. One issued by a command, on
an array where neither firmware nor trim has another command to issue, writes its column from the image; it completes with OK, or with
VERIFY_FAIL where a row fails twice, and the spare column is then unusable. No other array changes. The model's own choices in it: log
entries 21, 108 and 118. -/
def Obligations.WritesEnd : Prop :=
  (∀ (s : State) (m p : Nat), m < 4 → p < 17408 →
     (s.startable m = some p → Completes (.writeDequeue m) s (fun t =>
       t.arr m p = { s.arr m p with queued := false } ∧ (∀ k y, kArr k y ≠ kArr m p → t.arr k y = s.arr k y) ∧
       t.mast m = { s.mast m with wrQueue := (s.mast m).wrQueue.filter (· ≠ p) } ∧ (∀ k, k ≠ m → t.mast k = s.mast k) ∧
       t = { s with
         masts := t.masts
         arrs := t.arrs })) ∧
     ∀ (j : WriteJob) (bad : List Nat), (s.arr m p).write = some j → (s.arr m p).queued = false → (s.arr m p).fw = none → j.row = 1025 →
       j.restart = false →
       ((∀ r ∈ j.failed, r ∉ bad) → Completes (.writeComplete m p bad) s (fun t =>
         t.arr m p = { s.arr m p with
           st := .ready
           lmap := j.lmap
           span := j.span
           wcnt := (s.arr m p).wcnt + 1
           write := none
           image := j.image
           digest := j.digest
           pattern := j.pattern
           run4 := 0
           run8 := 0
           cmdStatus := sOK
           cmdBusy := false
           byHost := false } ∧ (∀ k y, kArr k y ≠ kArr m p → t.arr k y = s.arr k y) ∧ (t.atrim m p).unusable = 0 ∧
         (∀ k y, kArr k y ≠ kArr m p → t.atrim k y = s.atrim k y) ∧ ((s.arr m p).byHost = true → t.genCause.getLsbD 10 = true) ∧
         t = { s with
           arrs := t.arrs
           trims := t.trims
           genCause := t.genCause
           vecs := t.vecs
           out := t.out })) ∧
       ((∃ r ∈ j.failed, r ∈ bad) → Completes (.writeComplete m p bad) s (fun t =>
         (t.arr m p).st = .retired ∧ (t.arr m p).retired = true ∧ (t.arr m p).cmdStatus = sVerifyFail ∧ (t.arr m p).cmdBusy = false ∧
         (t.arr m p).write = none ∧ (t.arr m p).slot = none ∧ (∀ k y, kArr k y ≠ kArr m p → t.arr k y = s.arr k y) ∧
         t.integ.tail = s.integ.tail + 1 ∧ t.rows = s.rows ∧ t.sums = s.sums))) ∧
  (∀ (s : State) (m p : Nat), m < 4 → p < 17408 →
     (∀ host, s.hostMay = true → (host = true → (s.arr m p).slot = none) → (s.arr m p).cmdBusy = false →
       ((s.arr m p).st = .ready ∨ (s.arr m p).st = .active) → 1026 ≤ (s.arr m p).colP.toNat → (s.arr m p).colP.toNat ≤ 1039 →
       s.spareAssigned m p ((s.arr m p).colP.toNat - 1026) = false → State.srcOk m (s.arr m p).src.toNat 1048576 = true →
       Completes (.colwrite m p host) s (fun t =>
         t.arr m p = { s.arr m p with
           cmdLast := 2
           cmdBusy := true
           byHost := host
           col := some {
             colP := (s.arr m p).colP.toNat
             colL := (s.arr m p).colL.toNat
             src := (s.arr m p).src
             row := 0
             failed := []
             swap := false } } ∧ (∀ k y, kArr k y ≠ kArr m p → t.arr k y = s.arr k y) ∧
         t = { s with arrs := t.arrs })) ∧
     (∀ j fails, (s.arr m p).col = some j → (s.arr m p).fw = none → (s.atrim m p).colTodo = [] → j.swap = false → j.pattern = false →
       1026 ≤ j.colP → j.colP ≤ 1039 →
       Completes (.colwriteComplete m p fails) s (fun t =>
         t.arr m p = { s.arr m p with
           col := none
           cmdBusy := false
           byHost := false
           cmdStatus := if fails then sVerifyFail else sOK } ∧ (∀ k y, kArr k y ≠ kArr m p → t.arr k y = s.arr k y) ∧
         t.atrim m p = { s.atrim m p with unusable :=
           if fails then (s.atrim m p).unusable ||| BitVec.ofNat 14 (2 ^ (j.colP - 1026)) else (s.atrim m p).unusable } ∧
         (∀ k y, kArr k y ≠ kArr m p → t.atrim k y = s.atrim k y) ∧
         (∀ i, i < 1024 → t.row m p i = (s.row m p i).set j.colP ((s.imageCol m j.image j.src.toNat j.colL).getD i 0)) ∧
         (∀ k y r, r < 1024 → kArr k y ≠ kArr m p → t.row k y r = s.row k y r) ∧
         ((s.arr m p).byHost = true → t.genCause.getLsbD 10 = true) ∧
         t = { s with
           arrs := t.arrs
           rows := t.rows
           sums := t.sums
           trims := t.trims
           genCause := t.genCause
           vecs := t.vecs
           out := t.out })))

/-- R46, R50, Table 2.13: ABORT ends a write in progress or queued, the array becomes BLANK, and ABORT completes with OK. DISCARD makes a READY
array BLANK, where firmware has no command to issue there, and completes with OK. An array in a slot takes neither of the host. No other
array and no cell changes. R48, Table 2.11, Table 6.19: writing 1 to RETIRED while an array is ACTIVE sets RETIRE_PEND and the array stays
ACTIVE; an array in another state becomes RETIRED at once and leaves its slot, a command in progress ends, a write's or COLWRITE's with
ABORTED, and its ageing group counts it; a RETIRED array stays so. Writing 0 clears RETIRE_PEND, and makes a RETIRED array BLANK, or OFF on
a die that is off. No other array and no cell changes. The model's own choices in it: log entry 26. -/
def Obligations.ArraysLeaveService : Prop :=
  (∀ (s : State) (m p : Nat) (host : Bool), m < 4 → p < 17408 → s.hostMay = true →
     (host = true ∧ (s.arr m p).slot.isSome → (s.arr m p).fw = none → (s.atrim m p).colTodo = [] →
       (∀ i ∈ [Instr.abort m p host, Instr.discard m p host], Completes i s (fun t =>
         t.arr m p = { s.arr m p with
           cmdLast := if i = .abort m p host then 3 else 4
           cmdStatus := sArrOwned } ∧ (∀ k y, kArr k y ≠ kArr m p → t.arr k y = s.arr k y) ∧ t.rows = s.rows ∧ t.masts = s.masts))) ∧
     ((host = true → (s.arr m p).slot = none) → (s.arr m p).st = .writing → (s.arr m p).cmdBusy = true →
       Completes (.abort m p host) s (fun t =>
         t.arr m p = { s.arr m p with
           st := .blank
           write := none
           col := none
           queued := false
           fw := none
           cmdBusy := false
           byHost := false
           cmdLast := 3
           cmdStatus := sOK } ∧ (∀ k y, kArr k y ≠ kArr m p → t.arr k y = s.arr k y) ∧
         t.mast m = { s.mast m with wrQueue := (s.mast m).wrQueue.filter (· ≠ p) } ∧ (∀ k, k ≠ m → t.mast k = s.mast k) ∧
         t = { s with
           masts := t.masts
           arrs := t.arrs
           genCause := t.genCause
           vecs := t.vecs
           out := t.out })) ∧
     ((host = true → (s.arr m p).slot = none) → (s.arr m p).cmdBusy = false → (s.arr m p).st = .ready → (s.arr m p).fw = none →
       Completes (.discard m p host) s (fun t =>
         t.arr m p = { s.arr m p with
           st := .blank
           cmdLast := 4
           cmdStatus := sOK } ∧ (∀ k y, kArr k y ≠ kArr m p → t.arr k y = s.arr k y) ∧
         t = { s with
           arrs := t.arrs
           genCause := t.genCause
           vecs := t.vecs
           out := t.out }))) ∧
  (∀ (s : State) (m p : Nat), m < 4 → p < 17408 → s.hostMay = true →
     ((s.arr m p).st = .active → Completes (.mastArrRetWrite m p true) s (fun t =>
       t.arr m p = { s.arr m p with
         retired := true
         retirePend := true } ∧ (∀ k y, kArr k y ≠ kArr m p → t.arr k y = s.arr k y) ∧
       t = { s with arrs := t.arrs })) ∧
     ((s.arr m p).st ≠ .active → (s.arr m p).st ≠ .retired → Completes (.mastArrRetWrite m p true) s (fun t =>
       (t.arr m p).st = .retired ∧ (t.arr m p).retired = true ∧ (t.arr m p).retirePend = false ∧ (t.arr m p).slot = none ∧
       (t.arr m p).write = none ∧ (t.arr m p).col = none ∧ (t.arr m p).cmdBusy = false ∧ p ∉ (t.mast m).wrQueue ∧
       (t.arr m p).cmdStatus = (if (s.arr m p).cmdBusy then sAborted else (s.arr m p).cmdStatus) ∧
       t.ageGrp m (groupOf p) = { s.ageGrp m (groupOf p) with retired := (s.ageGrp m (groupOf p)).retired + 1 } ∧
       (∀ k y, kArr k y ≠ kArr m p → t.arr k y = s.arr k y) ∧ t.rows = s.rows)) ∧
     ((s.arr m p).st = .retired → Completes (.mastArrRetWrite m p true) s (fun t =>
       t.arr m p = { s.arr m p with retired := true } ∧ (∀ k y, kArr k y ≠ kArr m p → t.arr k y = s.arr k y) ∧
       t = { s with arrs := t.arrs })) ∧
     Completes (.mastArrRetWrite m p false) s (fun t =>
       t.arr m p = { s.arr m p with
         retired := false
         retirePend := false
         perm := false
         st := if (s.arr m p).st = .retired then (if (s.die m (dieOf p)).powered then .blank else .off) else (s.arr m p).st } ∧
       (∀ k y, kArr k y ≠ kArr m p → t.arr k y = s.arr k y) ∧
       t = { s with
         arrs := t.arrs
         ageGrps := t.ageGrps }))

/-- R41, R42, R43: in one of the first 511 maintenance slots of a restore cycle, the row sensed of a READY or ACTIVE array where no COLWRITE
runs is rewritten at its snapped levels, held to the map, and its drifted cells are counted; the slot is then done and the next one is due.
Nothing else changes. At the end of the 781 slots, the effective interval of the mast is the shortest of the host's, the ageing and the
temperature setting, and the slots begin again. R44, R332, R340: a READY array whose restore has failed becomes BLANK, and the event is
logged with severity DEGRADED; an ACTIVE one is charged with a permanent fault, so that it is retired when it leaves its slot, and the event
is logged, with JOB_FATAL and a halt where the array serves a RUNNING or DRAINING context. RST_FAIL of the mast shows either. Every other
array, and every cell, stays as it is. The model's own choices in it: log entries 23, 25 and 109. -/
def Obligations.RestoreRuns : Prop :=
  (∀ (s : State) (m : Nat), m < 4 → s.mastRuns m = true →
     (s.isMaint m = true → (s.mast m).slotDone = false → (s.mast m).slotNo < 511 →
       ∀ y : Sense, y.p < 17408 → State.restored (s.arr m y.p) = true → (s.arr m y.p).col = none → y.levels.length = 1040 →
         (y.row = 2 * (s.mast m).slotNo ∨ y.row = 2 * (s.mast m).slotNo + 1) →
         Completes (.maintenanceSlot m [y] []) s (fun t =>
           t.row m y.p y.row = y.levels.map (State.clampLevel (s.arr m y.p).lmap) ∧
           (∀ k j r, r < 1024 → kRow k j r ≠ kRow m y.p y.row → t.row k j r = s.row k j r) ∧
           t.arr m y.p = { s.arr m y.p with
             run4 := (s.arr m y.p).run4 + y.ge4
             run8 := (s.arr m y.p).run8 + y.ge8 } ∧ (∀ k j, kArr k j ≠ kArr m y.p → t.arr k j = s.arr k j) ∧
           t.mast m = { s.mast m with
             slotNo := (s.mast m).slotNo + 1
             slotDone := true } ∧ (∀ k, k ≠ m → t.mast k = s.mast k) ∧
           t = { s with
             rows := t.rows
             arrs := t.arrs
             masts := t.masts })) ∧
     (781 ≤ (s.mast m).slotNo → ∀ scrubbed, Completes (.restoreCycleEnd m scrubbed) s (fun t =>
       (t.mast m).slotNo = 0 ∧
       (t.mast m).effInt = State.shortest [(t.mast m).hostInt, (t.mast m).ageInt, (t.mast m).tempInt]))) ∧
  (∀ (s : State) (m p : Nat), m < 4 → p < 17408 →
     ((s.arr m p).st = .ready → Completes (.restoreFailure m p) s (fun t =>
       t.arr m p = { s.arr m p with st := .blank } ∧ t.mast m = { s.mast m with rstFail := true } ∧ t.integ.tail = s.integ.tail + 1 ∧
       (∀ k y, kArr k y ≠ kArr m p → t.arr k y = s.arr k y) ∧ (∀ k, k ≠ m → t.mast k = s.mast k) ∧
       t = { s with
         masts := t.masts
         arrs := t.arrs
         integ := t.integ
         vecs := t.vecs
         out := t.out })) ∧
     ((s.arr m p).st = .active → Completes (.restoreFailure m p) s (fun t =>
       t.arr m p = { s.arr m p with
         retired := true
         retirePend := true
         perm := true } ∧ (t.mast m).rstFail = true ∧ t.integ.tail = s.integ.tail + 1 ∧
       (∀ k y, kArr k y ≠ kArr m p → t.arr k y = s.arr k y) ∧ t.rows = s.rows ∧
       (s.servesLive m p = true → s.integ.phase = 0 → t.integ.phase = 1 ∧ t.batches = []))))

/-! Column conversion (chapter 3). -/

/-- R63, R64, R68, R115: ADC_SELFCAL takes the powered dies named, none of which is in use: all their arrays are CALIBRATING, and ZERO begins.
ZERO, SWEEP and VERIFY follow one another; at the end of VERIFY, the temperatures of the dies are taken and COMMIT begins, without the dies
whose temperature has moved by more than 5 °C, whose arrays that were CALIBRATING are INVALID. ADC_ABORT ends a calibration with
ADC_ABORTED: the arrays still CALIBRATING are INVALID, and no factor changes. R64, R65, R66: in COMMIT an array takes the factors fitted to
its readings, with BAD set on the converters that do not pass. Where as many spares pass as group converters do not, it becomes VALID, with
the temperature of the end of VERIFY, and the groups of BAD converters have the spares; otherwise it becomes FAILED, its RETIRED is set and
the event is logged. The model's own choices in it: log entries 27, 112 and 113. -/
def Obligations.CalibrationRuns : Prop :=
  ((∀ s : State, s.hostMay = true → s.adc.busy = false → (∀ k ∈ maskDies s.adc.mask, s.dieInUse k = false) →
     let dies := (maskDies s.adc.mask).filter (fun k => (s.die (k / 8) (k % 8)).powered)
     dies ≠ [] →
     Completes .adcSelfcal s (fun t =>
       t.adc = { s.adc with
         cmdLast := 1
         busy := true
         phase := 1
         done := 0
         latchMask := s.adc.mask
         job := some {
           dies := dies
           temps := dies.map (fun k => (k, (s.die (k / 8) (k % 8)).temp))
           partialFlag := false } } ∧
       (∀ k p, p < 17408 → t.cal k p = if kDie k (dieOf p) ∈ dies then { s.cal k p with
         cal := .calibrating
         committed := false } else s.cal k p) ∧
       (∀ k p, t.atrim k p = { s.atrim k p with calHit := (t.atrim k p).calHit }) ∧
       t = { s with
         adc := t.adc
         cals := t.cals
         trims := t.trims })) ∧
   (∀ (s : State) (j : CalJob) (dflt : CalMeas) (last : Bool), s.adc.job = some j → s.adc.phase.toNat < 3 →
     Completes (.adcSelfcalPhaseEnd [] dflt last) s (fun t => t = { s with adc := { s.adc with phase := s.adc.phase + 1 } })) ∧
   (∀ (s : State) (j : CalJob) (dflt : CalMeas) (last : Bool), s.adc.job = some j → s.adc.phase = 3 →
     let rest := j.dies.filter (fun k => !s.tempMoved j k)
     Completes (.adcSelfcalPhaseEnd [] dflt last) s (fun t =>
       t.adc.phase = 4 ∧ t.adc.job.map (·.dies) = some rest ∧
       t.adc.job.map (·.temps) = some (rest.map (fun k => (k, (s.die (k / 8) (k % 8)).temp))) ∧
       (∀ k p, p < 17408 → t.cal k p = if kDie k (dieOf p) ∈ j.dies ∧ s.tempMoved j (kDie k (dieOf p)) = true ∧
         (s.cal k p).cal = .calibrating then { s.cal k p with cal := .invalid } else s.cal k p) ∧
       t = { s with
         adc := t.adc
         cals := t.cals })) ∧
   (∀ (s : State) (j : CalJob), s.hostMay = true → s.adc.job = some j →
     Completes .adcAbort s (fun t =>
       t.adc.busy = false ∧ t.adc.phase = 0 ∧ t.adc.job = none ∧ t.adc.status = sAdcAborted ∧ t.adc.cmdLast = 2 ∧
       (∀ k p, p < 17408 → t.cal k p = if kDie k (dieOf p) ∈ j.dies ∧ (s.cal k p).cal = .calibrating then
         { s.cal k p with cal := .invalid } else s.cal k p) ∧
       t = { s with
         adc := t.adc
         cals := t.cals
         genCause := t.genCause
         vecs := t.vecs
         out := t.out }))) ∧
  (∀ (s : State) (j : CalJob) (m p : Nat) (temp : W16) (convs : List CalMeas) (dflt : CalMeas),
     m < 4 → p < 17408 → s.adc.job = some j → s.adc.phase = 4 → kDie m (dieOf p) ∈ j.dies →
     j.temps.find? (fun x => x.1 = kDie m (dieOf p)) = some (kDie m (dieOf p), temp) → (s.cal m p).cal = .calibrating →
     let meas (g : Nat) : CalMeas := (convs.find? (fun x => x.conv = g)).getD { dflt with conv := g }
     let bad := (upTo 130).filter (fun g => !State.convPasses (meas g))
     let good := [130, 131].filter (fun g => State.convPasses (meas g))
     Completes (.adcSelfcalPhaseEnd [⟨m, p, convs⟩] dflt false) s (fun t =>
       t.cal m p = { s.cal m p with
         cal := if bad.length ≤ good.length then .valid else .failed
         calTemp := temp
         map := State.assignSpares bad good {}
         committed := true } ∧
       (∀ g, g < 132 → t.fac m p g = State.facWord (State.calFit (meas g)) (!State.convPasses (meas g))) ∧
       (∀ k q g, kArr k q ≠ kArr m p → g < 132 → t.fac k q g = s.fac k q g ∧ t.cal k q = s.cal k q) ∧
       (bad.length ≤ good.length → t = { s with
         cals := t.cals
         facs := t.facs }) ∧
       (good.length < bad.length → (t.arr m p).retired = true ∧ t.integ.tail = s.integ.tail + 1)))

/-- R71, R72, R468: ADC_SAVE and ADC_RESTORE latch the mask and the buffer and are taken where no command runs, and complete with ADC_BUSY where
one does, which goes on. A save writes the factor set of the dies named with its check table to the buffer and completes with OK. A restore
of a set that does not stand, or a link error, leaves every factor and completes with BAD_SET. Of a set that stands, each array of a die
that ADC_DONE names has its CAL and its calibration temperature, and where it is not ACTIVE its map and its factors; the arrays of a die
that the set does not name stay as they are; and it completes with OK where every die named was restored, with ADC_PARTIAL otherwise. R54,
R73, Table 3.5: a write of ADC_FACTOR or ADC_MAP for a selected array that is not CALIBRATING acts at once, or waits for a beat boundary
while the array is ACTIVE, in place of what waited; no other converter or array is touched. On a CALIBRATING array, and of a map that names
a group twice or one above 129, it is rejected: WR_REJ is set and nothing else changes; where ADC_SEL names nothing, nothing changes at all.
The model's own choices in it: log entries 28 and 114. -/
def Obligations.FactorsAreKept : Prop :=
  (∀ s : State,
     (s.hostMay = true → s.adc.busy = false →
       Completes .adcSave s (fun t => t = { s with adc := { s.adc with
         cmdLast := 3
         busy := true
         phase := 5
         latchMask := s.adc.mask
         latchBuf := s.adc.buf } }) ∧
       Completes .adcRestore s (fun t => t = { s with adc := { s.adc with
         cmdLast := 4
         busy := true
         phase := 6
         latchMask := s.adc.mask
         latchBuf := s.adc.buf } })) ∧
     (s.hostMay = true → s.adc.busy = true → ∀ i ∈ [Instr.adcSave, Instr.adcRestore], Completes i s (fun t =>
       t.adc = { s.adc with
         cmdLast := if i = .adcSave then 3 else 4
         status := sAdcBusy } ∧
       t = { s with
         adc := t.adc
         out := t.out
         vecs := t.vecs
         genCause := s.genCause ||| BitVec.ofNat 11 (2 ^ gAdc) })) ∧
     (s.adc.phase = 5 → Completes .adcSaveComplete s (fun t =>
       (∃ o, t.out = s.out ++ [.hostWrite s.adc.latchBuf.toNat (withCheckTable (s.factorSet s.adc.latchMask))] ++ o) ∧
       t.adc = { s.adc with
         busy := false
         phase := 0
         status := sOK
         done := s.adc.latchMask
         job := none } ∧
       t = { s with
         adc := t.adc
         out := t.out
         vecs := t.vecs
         genCause := s.genCause ||| BitVec.ofNat 11 (2 ^ gAdc) })) ∧
     (s.adc.phase = 6 →
       Completes (.adcRestoreComplete none) s (fun t => t.adc.status = sAdcBadSet ∧ t.adc.busy = false ∧ t.facs = s.facs ∧ t.cals = s.cals) ∧
       ∀ set, Completes (.adcRestoreComplete (some set)) s (fun t =>
           t.adc.busy = false ∧ t.adc.phase = 0 ∧
           (let dies := maskDies (BitVec.ofNat 32 (leAt set 8 4))
           if leAt set 0 4 = 0x4346574B ∧ leAt set 4 2 = 1 ∧ blockPasses set (128 + dies.length * 2367488) 0 = true then
             t.adc.status = (if maskDies s.adc.latchMask ⊆ maskDies t.adc.done then sOK else sAdcPartial) ∧
             (∀ k ∈ maskDies t.adc.done, ∀ a, a < 2176 →
               let o := 128 + (dies.filter (fun j => decide (j < k))).length * 2367488 + 1088 * a
               let p := (k % 8) * 2176 + a
               (t.cal (k / 8) p).cal = calOf (leAt set (o + 2) 1) ∧ (t.cal (k / 8) p).calTemp = BitVec.ofNat 16 (leAt set (o + 8) 2) ∧
               ((s.arr (k / 8) p).st ≠ .active → (t.cal (k / 8) p).map = mapOfWord (leAt set (o + 4) 4) ∧
                 ∀ g, g < 132 → t.fac (k / 8) p g = facMask (BitVec.ofNat 64 (leAt set (o + 32 + 8 * g) 8)))) ∧
             (∀ k p g, k < 4 → p < 17408 → g < 132 → kDie k (dieOf p) ∉ dies → t.fac k p g = s.fac k p g ∧ t.cal k p = s.cal k p)
           else t.adc.status = sAdcBadSet ∧ t.facs = s.facs ∧ t.cals = s.cals) ∧
           t = { s with
             adc := t.adc
             facs := t.facs
             cals := t.cals
             out := t.out
             vecs := t.vecs
             genCause := t.genCause }))) ∧
  (∀ s : State, s.hostMay = true →
     let m := s.adcSelMast
     let p := s.adcSelArr
     let g := s.adcSelConv
     (s.adcSelOk = true → (s.cal m p).cal ≠ .calibrating →
       (∀ v : W64,
         ((s.arr m p).st ≠ .active → Completes (.adcFactorWrite v) s (fun t =>
           t.fac m p g = v &&& 0xFFFFFFF1FFFFFFFF ∧
           (∀ k q h, kConv k q h ≠ kConv m p g → t.fac k q h = s.fac k q h) ∧
           t.cal m p = { s.cal m p with
             pendFac := (s.cal m p).pendFac.filter (fun x => x.1 ≠ g)
             trimFac := (s.cal m p).trimFac.filter (fun x => x ≠ g) } ∧
           (∀ k q, kArr k q ≠ kArr m p → t.cal k q = s.cal k q) ∧
           t = { s with
             facs := t.facs
             cals := t.cals })) ∧
         ((s.arr m p).st = .active → Completes (.adcFactorWrite v) s (fun t =>
           t.cal m p = { s.cal m p with
             pendFac := (g, v &&& 0xFFFFFFF1FFFFFFFF) :: (s.cal m p).pendFac.filter (fun x => x.1 ≠ g)
             trimFac := (s.cal m p).trimFac.filter (fun x => x ≠ g) } ∧
           (∀ k q, kArr k q ≠ kArr m p → t.cal k q = s.cal k q) ∧
           t = { s with cals := t.cals }))) ∧
       (∀ v : W32, mapOk (mapOfWord v.toNat) = true →
         Completes (.adcMapWrite v) s (fun t =>
           (if (s.arr m p).st = .active then
             t.cal m p = { s.cal m p with
               pendMap := some (mapOfWord v.toNat)
               trimMap := false }
           else t.cal m p = { s.cal m p with
             map := mapOfWord v.toNat
             pendMap := none
             trimMap := false }) ∧
           (∀ k q, kArr k q ≠ kArr m p → t.cal k q = s.cal k q) ∧
           t = { s with cals := t.cals }))) ∧
     (s.adcSelOk = true → ∀ v w, ((s.cal m p).cal = .calibrating →
         Completes (.adcFactorWrite v) s (fun t => t = { s with adc := { s.adc with wrRej := true } })) ∧
       ((s.cal m p).cal = .calibrating ∨ mapOk (mapOfWord w.toNat) = false →
         Completes (.adcMapWrite w) s (fun t => t = { s with adc := { s.adc with wrRej := true } }))) ∧
     (s.adcSelOk = false → ∀ v w, Completes (.adcFactorWrite v) s (fun t => t = s) ∧ Completes (.adcMapWrite w) s (fun t => t = s)))

/-! Plies: tokens, tiles, repeats, splice regions (chapters 4, 5 and 14). -/

/-- R28, R109, R110, R328: with the filling tile free or filling, a token step issues the next token of the ply into it: the tile takes the
token with the outputs of its step, it passes if its checks find nothing and else a repeat waits, and the tile is CLOSED by its eighth token
or the ply's last; the other tile then fills. Where the tile is CLOSED or DRAINING, the arrays step idle, and only the stall is counted.
R108, R109: a CLOSED tile all of whose tokens have passed begins to drain, and nothing else changes. When the last byte of a tile has left,
its tokens' outputs stand where the operation writes them, the tile is counted and FREE, and the accumulator is released if it was the last
tile of its ply; no cell and no byte of HBM changes. The model's own choices in it: log entries 119, 120 and 135. -/
def Obligations.TokensAndTiles : Prop :=
  (∀ (s : State) (m n : Nat) (a : State.At) (p : PlyPanel) (tau tok : Nat) (rest : List (Nat × Nat)) (codes : List RawCode)
     (faults : List PathFault), m < 4 → n < 256 → s.mastRuns m = true → s.accOp m n = some a → s.accPanel m n = some p →
     (s.acc m n).todo = (tau, tok) :: rest →
     let x := s.acc m n
     let cur := State.getTile x x.fill
     ((cur.st = .closed ∨ cur.st = .draining) →
       Completes (.plyTokenStep m n codes faults) s (fun t => t.mast m = { s.mast m with accStall := (s.mast m).accStall + 1 } ∧
         (∀ k, k ≠ m → t.mast k = s.mast k) ∧ t = { s with masts := t.masts })) ∧
     (cur.st ≠ .closed → cur.st ≠ .draining →
       let v := ((s.slotSpent m x.ply.toNat).tokenVerdict m n a p tau tok codes faults).2
       let last := decide (cur.toks.length + 1 = 8) || rest.isEmpty
       Completes (.plyTokenStep m n codes faults) s (fun t =>
         (t.acc m n).todo = rest ∧
         (State.getTile (t.acc m n) x.fill).toks = cur.toks ++ [State.tileTok tau tok (v.finds.isEmpty && v.wide.isEmpty) v.out] ∧
         (State.getTile (t.acc m n) x.fill).st = (if last then .closed else .filling) ∧
         (t.acc m n).fill = (if last then 1 - x.fill else x.fill) ∧
         (x.fill < 2 → State.getTile (t.acc m n) (1 - x.fill) = State.getTile x (1 - x.fill)) ∧
         (v.finds ≠ [] ∨ v.wide ≠ [] → ∃ r ∈ t.integ.repeats, r.mast = m ∧ r.acc = n ∧ r.tau = tau ∧ r.arbitrating = false) ∧
         t.rows = s.rows ∧ t.store = s.store ∧ t.hbm = s.hbm))) ∧
  (∀ (s : State) (m n k : Nat), m < 4 → n < 256 → k < 2 → s.mastRuns m = true →
     ((State.getTile (s.acc m n) k).st = .closed → (State.getTile (s.acc m n) k).toks.all (·.ok) = true →
       Completes (.tileDrainStart m n k) s (fun t =>
         t.acc m n = State.setTile (s.acc m n) k { State.getTile (s.acc m n) k with st := .draining } ∧
         (∀ i j, j < 256 → kAcc i j ≠ kAcc m n → t.acc i j = s.acc i j) ∧ t = { s with accs := t.accs })) ∧
     (∀ a p, s.accOp m n = some a → s.accPanel m n = some p → (State.getTile (s.acc m n) k).st = .draining →
       let x := s.acc m n
       let done := (State.getTile x k).toks.foldl (fun s (y : TileTok) =>
         s.deliver m a p (State.accPlace a p) y.tok ((State.blockToks a.b a.blk).getD y.tok (0, 0)) y.vals
           (State.getTile x k).nonfin (State.getTile x k).void x.terms.toNat) s
       let last := x.todo.isEmpty && decide ((State.getTile x (1 - k)).st = .free)
       Completes (.tileDrained m n k) s (fun t =>
         t.store = done.store ∧ t.logits = done.logits ∧ t.rig = done.rig ∧
         t.acc m n = (if last then { tiles := x.tiles + 1 } else State.setTile { x with tiles := x.tiles + 1 } k {}) ∧
         (∀ i j, j < 256 → kAcc i j ≠ kAcc m n → t.acc i j = s.acc i j) ∧ t.rows = s.rows ∧ t.hbm = s.hbm)))

/-- R329, R330, R332, R338: repeats are handled one after another. A token whose repeat finds nothing carries on with the outputs of its repeat:
its findings are logged as CORRECTED and counted once, and the repeat is over. One whose repeat's path checks find something is faulty: the
repeat is over, what it did not meet again is logged, and each of its findings is logged for each array it names, or once where it names
none (the records counted where the words of its path pass at once, or partial inputs fail twice). In arbitration, a token whose array terms
all lie within their bounds carries on, logged as data, its values admitted to the band; otherwise each array outside its bound is charged:
its RETIRED is set and the event is logged. The model's own choices in it: log entries 126, 135 and 136. -/
def Obligations.RepeatsResolve : Prop :=
  ∀ (s : State) (m n tau : Nat) (r : Repeat), m < 4 → n < 256 → s.mastRuns m = true → s.integ.repeats.head? = some r →
    r.mast = m → r.acc = n → r.tau = tau →
    let others := s.integ.repeats.filter (fun r => !(r.mast = m && r.acc = n && r.tau = tau))
    (∀ a p k codes faults, s.accOp m n = some a → s.accPanel m n = some p → r.arbitrating = false →
      State.tokOf (s.acc m n) tau = some k →
      let v := ((s.slotSpent m (s.acc m n).ply.toNat).tokenVerdict m n a p tau k.tok codes faults).2
      (v.finds = [] → v.wide = [] → Completes (.tokenRepeat m n tau codes faults) s (fun t =>
        t.acc m n = State.replaceTok (s.acc m n) tau (State.tileTok tau k.tok true v.out) ∧ t.integ.repeats = others ∧
        (faults = [] → t.integ.corrected = s.integ.corrected + 1 ∧ t.integ.tail = s.integ.tail + BitVec.ofNat 32 r.finds.length))) ∧
      (v.finds ≠ [] → Completes (.tokenRepeat m n tau codes faults) s (fun t =>
        (∀ y ∈ t.integ.repeats, y ∈ others) ∧
        ((∀ f ∈ faults, ∃ line, f = .partialIn line true) → t.integ.tail = s.integ.tail + BitVec.ofNat 32 ((State.unconfirmed r.finds v.finds).length +
          (v.finds.map (fun f => max 1 f.arrays.length)).foldl (· + ·) 0))))) ∧
    (r.arbitrating = true →
      (r.outside = [] → Completes (.plausibilityArbitration m n tau) s (fun t =>
        (∀ y ∈ (t.acc m n).t0.toks ++ (t.acc m n).t1.toks, y.tau = tau → y.ok = true) ∧ t.integ.repeats = others ∧
        (t.band m (s.acc m n).ply.toNat).widen = (s.band m (s.acc m n).ply.toNat).widen ++ r.wide ∧
        t.integ.data = s.integ.data + 1 ∧ t.integ.tail = s.integ.tail + BitVec.ofNat 32 (r.finds.dropLast.length + 1))) ∧
      (r.outside ≠ [] → Completes (.plausibilityArbitration m n tau) s (fun t =>
        (∀ q ∈ r.outside, (t.arr m q).retired = true) ∧ (∀ y ∈ t.integ.repeats, y ∈ others) ∧
        t.integ.tail = s.integ.tail + BitVec.ofNat 32 (r.finds.dropLast.length + r.outside.length))))

/-- R81, R89, R91, R95: a LOAD of a splice region is taken for an array that is not ACTIVE or RETIRED. It ends VALID with the image's bytes, or
EMPTY with SPL_OVER, SPL_BAD or, where a block of an image in HBM fails its check value, BAD_IMAGE, which is logged. CLEAR makes the region
EMPTY. Either command is otherwise refused with the first status of R95 that applies. The array's cells are not touched. On an array where
firmware and trim have no command to issue. -/
def Obligations.SpliceRegions : Prop :=
  ∀ (s : State) (m p : Nat), m < 4 → p < 17408 → (s.arr m p).fw = none → (s.atrim m p).colTodo = [] →
    (∀ l host, s.hostMay = true → (host = true → (s.arr m p).slot = none) → (s.spl m p).busy = false → (s.arr m p).st ≠ .active →
      (s.arr m p).st ≠ .retired → l ≠ 3 → State.srcOk m (s.spl m p).src.toNat 16384 = true →
      Completes (.splLoad m p l host) s (fun t =>
        t.spl m p = { s.spl m p with
          st := .loading
          busy := true
          latchLmap := l
          latchSrc := (s.spl m p).src
          byHost := host
          image := none } ∧ (∀ k q, kArr k q ≠ kArr m p → t.spl k q = s.spl k q) ∧ t = { s with spls := t.spls })) ∧
    (∀ l host st, s.hostMay = true → ∀ i ∈ [Instr.splLoad m p l host, Instr.splClear m p host],
      (if host = true ∧ (s.arr m p).slot.isSome then st = sArrOwned
        else if (s.spl m p).busy then st = sArrBusy
        else if (s.arr m p).st = .active then st = sArrActive
        else if (s.arr m p).st = .retired then st = sArrRetired
        else i = .splLoad m p l host ∧ (l = 3 ∨ State.srcOk m (s.spl m p).src.toNat 16384 = false) ∧ st = sBadConfig) →
      Completes i s (fun t => t.spl m p = { s.spl m p with status := st } ∧ (∀ k q, kArr k q ≠ kArr m p → t.spl k q = s.spl k q) ∧
        t.regions = s.regions ∧ t.rows = s.rows ∧ t.arrs = s.arrs)) ∧
    ((s.spl m p).busy = true →
      let x := s.spl m p
      let img := s.imageBytes m x.image x.latchSrc.toNat (if x.image.isSome then 1048576 else 0) 16384
      Completes (.splLoadComplete m p []) s (fun t =>
        (t.spl m p).busy = false ∧
        (t.spl m p).status = (if regOver img x.latchLmap then sSplOver else if regFormed img then sOK else sSplBad) ∧
        (if regOver img x.latchLmap = false ∧ regFormed img = true then
          (t.spl m p).st = .valid ∧ (t.spl m p).lmap = x.latchLmap ∧ t.region m p = slice img 0 16384
        else (t.spl m p).st = .empty ∧ t.region m p = List.replicate 16384 0) ∧
        (∀ k q, kArr k q ≠ kArr m p → t.spl k q = s.spl k q ∧ t.region k q = s.region k q) ∧
        t = { s with
          spls := t.spls
          regions := t.regions
          integ := t.integ
          genCause := t.genCause
          vecs := t.vecs
          out := t.out })) ∧
    ((s.spl m p).busy = true → (s.spl m p).image = none → Completes (.splLoadComplete m p [(false, false)]) s (fun t =>
      (t.spl m p).st = .empty ∧ (t.spl m p).busy = false ∧ (t.spl m p).status = sBadImage ∧ t.region m p = List.replicate 16384 0 ∧
      (∀ k q, kArr k q ≠ kArr m p → t.spl k q = s.spl k q ∧ t.region k q = s.region k q) ∧
      t.integ.tail = s.integ.tail + 1 ∧ t.arrs = s.arrs ∧ t.rows = s.rows)) ∧
    (∀ host, s.hostMay = true → (host = true → (s.arr m p).slot = none) → (s.spl m p).busy = false → (s.arr m p).st ≠ .active →
      (s.arr m p).st ≠ .retired →
      Completes (.splClear m p host) s (fun t =>
        (t.spl m p).st = .empty ∧ (t.spl m p).status = sOK ∧ t.region m p = List.replicate 16384 0 ∧
        (∀ k q, kArr k q ≠ kArr m p → t.spl k q = s.spl k q ∧ t.region k q = s.region k q) ∧ t.arrs = s.arrs ∧ t.rows = s.rows))

/-! Trim and ageing (chapter 6). -/

/-- R58, R118, R119, R128: a trim cycle ends after 16 restore cycles, and before that nothing changes: TRIM_COUNT of the mast advances,
TRIM_LAST_TIME shows LOCAL_TIME, and the metastable counts of its converters, and of no other mast, are zero. Where the mast has one READY
or ACTIVE array and the cycle found nothing to act on: if it was measured in all sixteen and its die's temperature held within 3 °C, its
STALE is 0 and its measurement temperature and SPAN are those of now; otherwise its STALE rises, to 15 at most. The model's own choices in
it: log entries 115, 116 and 117. -/
def Obligations.TrimCycleEnds : Prop :=
  ∀ (s : State) (m : Nat) (probes : List TrimProbe), m < 4 → s.mastRuns m = true →
    (16 ≤ (s.mast m).trimRc → Completes (.trimCycleEnd m probes) s (fun t =>
      (t.mast m).trimCount = (s.mast m).trimCount + 1 ∧ (t.mast m).trimRc = (s.mast m).trimRc - 16 ∧ t.trim.lastTime = s.time ∧
      (∀ p g, p < 17408 → g < 132 → t.meta_ m p g = 0) ∧
      (∀ k p g, k ≠ m → p < 17408 → g < 132 → t.meta_ k p g = s.meta_ k p g) ∧
      (∀ p, p < 17408 → s.arrsOf m State.restored = [p] → probes = [] → (s.atrim m p).colSwaps = [] →
        if 16 ≤ (s.atrim m p).measured ∧ ((s.die m (dieOf p)).trimHi.toInt - (s.die m (dieOf p)).trimLo.toInt).natAbs ≤ 48 then
          (t.atrim m p).stale = 0 ∧ (t.atrim m p).measTemp = (s.die m (dieOf p)).temp ∧ (t.atrim m p).measSpan = (s.arr m p).span
        else (t.atrim m p).stale = (if (s.atrim m p).stale = 15 then 15 else (s.atrim m p).stale + 1) ∧
          (t.atrim m p).measTemp = (s.atrim m p).measTemp))) ∧
    ((s.mast m).trimRc < 16 → Completes (.trimCycleEnd m probes) s (fun t => t = s))

/-- R121, R140: a write of TRIM_COL gives the selected column word its CG and CO, at once or, while the array is ACTIVE, from a beat boundary
on; a CG out of its range is ignored and WR_REJ is set. No other column word changes. Where TRIM_SEL names nothing, nothing does. R127,
R129, R130, R468: TRIM_SAVE and TRIM_RESTORE latch the mask and the buffer and are taken where neither runs, and complete with TRIM_BUSY
where one does, which goes on. A save writes the trim set of the dies named with its check table to the buffer and completes with OK. A
restore of a set that does not stand, or a link error, leaves every column word and completes with BAD_SET. Of a set that stands, each array
of a die that TRIM_DONE names takes its STALE, measurement SPAN and temperature, its measurements of the cycle are discarded, and each
column word takes its value, at once or from a beat boundary on, unless its PCOL differs on a READY or ACTIVE array; the arrays of a die
that the set does not name stay as they are; and it completes with OK where every die named was restored, with TRIM_PARTIAL otherwise. The
model's own choices in it: log entry 91. -/
def Obligations.TrimColumnsAndSets : Prop :=
  (∀ (s : State) (v : W64), s.hostMay = true →
     let m := s.trimMast
     let p := s.trimArr
     let j := s.trimWord
     (s.trimSelOk = true →
       let fits := 3670016 ≤ v.toNat >>> 40 ∧ v.toNat >>> 40 ≤ 5242880
       let w : ColVal := { s.latestCol m p j with
         cg := if fits then BitVec.ofNat 24 (v.toNat >>> 40) else (s.latestCol m p j).cg
         co := BitVec.ofNat 16 (v.toNat >>> 24) }
       Completes (.trimColWrite v) s (fun t =>
         t.colWord m p j = (if (s.arr m p).st = .active then { val := (s.colWord m p j).val, pend := some w } else { val := w }) ∧
         (∀ k q i, kWord k q i ≠ kWord m p j → t.colWord k q i = s.colWord k q i) ∧
         t = { s with
           cols := t.cols
           trim := { s.trim with wrRej := if fits then s.trim.wrRej else true } })) ∧
     (s.trimSelOk = false → Completes (.trimColWrite v) s (fun t => t = s))) ∧
  (∀ s : State,
     (s.hostMay = true → s.trim.busy = false →
       Completes .trimSave s (fun t => t = { s with trim := { s.trim with
         cmdLast := 1
         busy := true
         phase := 1
         latchMask := s.trim.mask
         latchBuf := s.trim.buf } }) ∧
       Completes .trimRestore s (fun t => t = { s with trim := { s.trim with
         cmdLast := 2
         busy := true
         phase := 2
         latchMask := s.trim.mask
         latchBuf := s.trim.buf } })) ∧
     (s.hostMay = true → s.trim.busy = true → ∀ i ∈ [Instr.trimSave, Instr.trimRestore], Completes i s (fun t =>
       t.trim = { s.trim with
         cmdLast := if i = .trimSave then 1 else 2
         status := sTrimBusy } ∧
       t = { s with
         trim := t.trim
         out := t.out
         vecs := t.vecs
         genCause := s.genCause ||| BitVec.ofNat 11 (2 ^ gTrim) })) ∧
     (s.trim.phase = 1 → Completes .trimSaveComplete s (fun t =>
       (∃ o, t.out = s.out ++ [.hostWrite s.trim.latchBuf.toNat (withCheckTable (s.trimSet s.trim.latchMask))] ++ o) ∧
       t.trim = { s.trim with
         busy := false
         phase := 0
         status := sOK
         done := s.trim.latchMask } ∧
       t = { s with
         trim := t.trim
         out := t.out
         vecs := t.vecs
         genCause := s.genCause ||| BitVec.ofNat 11 (2 ^ gTrim) })) ∧
     (s.trim.phase = 2 →
       Completes (.trimRestoreComplete none) s (fun t => t.trim.status = sTrimBadSet ∧ t.trim.busy = false ∧ t.cols = s.cols ∧ t.trims = s.trims) ∧
       ∀ set, Completes (.trimRestoreComplete (some set)) s (fun t =>
           t.trim.busy = false ∧ t.trim.phase = 0 ∧
           (let dies := maskDies (BitVec.ofNat 32 (leAt set 8 4))
           if leAt set 0 4 = 0x5254574B ∧ leAt set 4 2 = 1 ∧ blockPasses set (128 + dies.length * 17895424) 0 = true then
             t.trim.status = (if maskDies s.trim.latchMask ⊆ maskDies t.trim.done then sOK else sTrimPartial) ∧
             (∀ k ∈ maskDies t.trim.done, ∀ a, a < 2176 →
               let o := 128 + (dies.filter (fun j => decide (j < k))).length * 17895424 + 8224 * a
               let p := (k % 8) * 2176 + a
               (t.atrim (k / 8) p).stale = BitVec.ofNat 4 (leAt set (o + 2) 1) ∧
               (t.atrim (k / 8) p).measSpan = BitVec.ofNat 4 (leAt set (o + 3) 1) ∧
               (t.atrim (k / 8) p).measTemp = BitVec.ofNat 16 (leAt set (o + 4) 2) ∧ (t.atrim (k / 8) p).measured = 0 ∧
               ∀ j, j < 1026 →
                 let w := leAt set (o + (if j = 1024 then 8 else if j = 1025 then 16 else 32 + 8 * j)) 8
                 if State.restored (s.arr (k / 8) p) = true ∧ bitsOf w 0 11 ≠ s.physOf (k / 8) p j then
                   t.colWord (k / 8) p j = s.colWord (k / 8) p j ∧ t.trim.skipped = true
                 else (t.latestCol (k / 8) p j).cg = BitVec.ofNat 24 (w >>> 40) ∧ (t.latestCol (k / 8) p j).co = BitVec.ofNat 16 (w >>> 24)) ∧
             (∀ k p j, k < 4 → p < 17408 → j < 1026 → kDie k (dieOf p) ∉ dies → t.colWord k p j = s.colWord k p j ∧ t.atrim k p = s.atrim k p)
           else t.trim.status = sTrimBadSet ∧ t.cols = s.cols ∧ t.trims = s.trims) ∧
           t = { s with
             trim := t.trim
             cols := t.cols
             trims := t.trims
             out := t.out
             vecs := t.vecs
             genCause := t.genCause })))

/-- R138: AGE_SAVE writes the ageing record with its check table to the buffer and completes with OK. AGE_RESTORE of a record that stands takes
its AGE_EPOCH, the ageing settings of the masts, and the map, rung, leak and retired count of every group, and clears every Q4CYC; one that
does not stand, or a link error, changes nothing of them and completes with BAD_SET. While an array is ACTIVE or WRITING it completes with
AGE_BUSY. R139, R450: a laser's WARN is set with its bias, below 1,000 until its end of life holds it there, and the event is logged with
severity DEGRADED the first time. At the end of its life the bias is held at 1,000 and the event is logged, once. No other laser changes. -/
def Obligations.AgeingAndLasers : Prop :=
  (∀ s : State, s.hostMay = true →
     Completes .ageSave s (fun t =>
       (∃ o, t.out = s.out ++ [.hostWrite s.age.buf.toNat (withCheckTable s.ageRecord)] ++ o) ∧
       t.age = { s.age with
         cmdLast := 1
         status := sOK } ∧
       t = { s with
         age := t.age
         out := t.out
         vecs := t.vecs
         genCause := s.genCause ||| BitVec.ofNat 11 (2 ^ gAge) }) ∧
     (let idle := s.age.busy = false ∧
       ∀ m, m < 4 → (s.arrsOf m (fun a => decide (a.st = .active) || decide (a.st = .writing))) = []
     (idle → ∀ r, Completes (.ageRestore (some r)) s (fun t =>
       (if State.ageRecordOk r = true then
         t.age = { s.age with
           cmdLast := 2
           epoch := BitVec.ofNat 64 (leAt r 8 8)
           status := sOK } ∧
         (∀ m, m < 4 → t.mast m = { s.mast m with ageInt := BitVec.ofNat 2 (leAt r (24 + m) 1) }) ∧
         (∀ m g, m < 4 → g < 1024 →
           let w := leAt r (64 + 4 * (1024 * m + g)) 4
           t.ageGrp m g = { s.ageGrp m g with
             lmap := BitVec.ofNat 2 (bitsOf w 30 2)
             rung := BitVec.ofNat 2 (bitsOf w 28 2)
             leak := BitVec.ofNat 8 (bitsOf w 16 8)
             retired := BitVec.ofNat 8 (bitsOf w 0 8)
             hist := [] })
       else t.age = { s.age with
         cmdLast := 2
         status := sAgeBadSet } ∧ t.ageGrps = s.ageGrps ∧ t.masts = s.masts) ∧
       t = { s with
         age := t.age
         masts := t.masts
         ageGrps := t.ageGrps
         out := t.out
         vecs := t.vecs
         genCause := s.genCause ||| BitVec.ofNat 11 (2 ^ gAge) })) ∧
     (∀ r, (idle ∧ r = none) ∨ ¬idle → Completes (.ageRestore r) s (fun t =>
       t.age = { s.age with
         cmdLast := 2
         status := if r = none ∧ idle then sAgeBadSet else sAgeBusy } ∧
       t = { s with
         age := t.age
         out := t.out
         vecs := t.vecs
         genCause := s.genCause ||| BitVec.ofNat 11 (2 ^ gAge) })))) ∧
  (∀ (s : State) (e : Nat), e < 9 →
     (∀ bias, Completes (.laserWarn e bias) s (fun t =>
       t.laser e = (true, if (s.laser e).2 = 1000 then 1000 else if 1000 ≤ bias.toNat then 999 else bias) ∧
       t.integ.tail = (if (s.laser e).1 then s.integ.tail else s.integ.tail + 1) ∧
       (∀ k, k ≠ e → t.laser k = s.laser k) ∧
       t = { s with
         lasers := t.lasers
         integ := t.integ
         vecs := t.vecs
         out := t.out })) ∧
     ((s.laser e).2 ≠ 1000 → Completes (.laserEndOfLife e) s (fun t =>
       t.laser e = ((s.laser e).1, 1000) ∧ t.integ.tail = s.integ.tail + 1 ∧ (∀ k, k ≠ e → t.laser k = s.laser k) ∧
       t = { s with
         lasers := t.lasers
         integ := t.integ
         vecs := t.vecs
         out := t.out })) ∧
     ((s.laser e).2 = 1000 → Completes (.laserEndOfLife e) s (fun t => t = s)))

/-! The sail plan (chapter 7). -/

/-- R144: over the bound stream, a write of SAIL_OPKEY takes its word until word 3 has been written, which locks all four; once they are locked
it changes nothing. Over another stream the write is discarded and MBX_SEC_REJ counts it (R388). R154, R160, Tables 7.8, 7.10: a LOAD of 256
bytes to 16 MiB from a 4 KiB boundary is taken and stands at step 3, where the plan is read; any other completes with BAD_CONFIG at step 2,
and one given while another runs with SAIL_BUSY, the other going on. A link error ends the LOAD with ABORTED; a plan that fails a step ends
it with that step's status, step and offset, and the plan in force stands; one that passes all steps is in force, under the next generation,
with its build tag and its digest. SAIL_ABORT ends a LOAD with ABORTED, and completes with OK where none runs. The model's own choices in
it: log entries 34, 65, 121 and 122. -/
def Obligations.PlanAndOperatorKey : Prop :=
  (∀ (s : State) (i : Nat) (v : W64), i < 4 → s.hostMay = true →
     (s.link.bound = true → s.sail.locked = false → Completes (.sailOpkeyWrite i v) s (fun t =>
       t = { s with sail := { s.sail with
         opkey := s.sail.opkey.set i v
         locked := decide (i = 3) } })) ∧
     (s.link.bound = true → s.sail.locked = true → Completes (.sailOpkeyWrite i v) s (fun t => t = s)) ∧
     (s.link.bound = false → Completes (.sailOpkeyWrite i v) s (fun t =>
       t = { s with link := { s.link with secRej := satAdd s.link.secRej 1 } }))) ∧
  (∀ s : State,
     (∀ named, s.hostMay = true →
       (s.sail.busy = false → s.sail.src.toNat % 4096 = 0 → 256 ≤ s.sail.len.toNat → s.sail.len.toNat ≤ 16777216 →
         Completes (.sailLoad named) s (fun t => t = { s with sail := { s.sail with
           busy := true
           step := 3
           job := some ⟨s.sail.src, s.sail.len.toNat, named⟩ } })) ∧
       (s.sail.busy = false → (s.sail.src.toNat % 4096 ≠ 0 ∨ s.sail.len.toNat < 256 ∨ 16777216 < s.sail.len.toNat) →
         Completes (.sailLoad named) s (fun t => t.sail.busy = false ∧ t.sail.status = sBadConfig ∧ t.sail.errStep = 2 ∧
           t.genCause.getLsbD 0 = true ∧ t = { s with
             sail := t.sail
             genCause := t.genCause
             vecs := t.vecs
             out := t.out })) ∧
       (s.sail.busy = true → Completes (.sailLoad named) s (fun t => t.sail = { s.sail with
           status := sSailBusy
           errStep := 1
           errDetail := 0
           errOffset := 0 } ∧ t.genCause.getLsbD 0 = true ∧ t = { s with
             sail := t.sail
             genCause := t.genCause
             vecs := t.vecs
             out := t.out }))) ∧
     (∀ j, s.sail.job = some j →
       Completes (.sailPlanRead none) s (fun t =>
         t.sail.busy = false ∧ t.sail.job = none ∧ t.sail.status = sSailAborted ∧ t.sail.errStep = 3 ∧ t.sail.inForce = s.sail.inForce ∧
         t.sail.device = s.sail.device ∧ t.sail.routes = s.sail.routes ∧ t.sail.gen = s.sail.gen ∧ t = { s with
           sail := t.sail
           genCause := t.genCause
           vecs := t.vecs
           out := t.out }) ∧
       ∀ bytes, Completes (.sailPlanRead (some bytes)) s (fun t =>
         t.sail.busy = false ∧ t.sail.job = none ∧
         (match s.validate (slice bytes 0 j.len) j.len false with
         | .ok f => t.sail.status = sOK ∧ t.sail.inForce = true ∧ t.sail.gen = s.sail.gen + 1 ∧
           t.sail.tag = BitVec.ofNat 64 f.buildTag ∧ t.sail.digest = shakeDigest (slice bytes 0 j.len)
         | .error e => t.sail.status = e.status ∧ t.sail.errStep = BitVec.ofNat 4 e.step ∧
           t.sail.errOffset = BitVec.ofNat 32 e.offset ∧ t.sail.inForce = s.sail.inForce ∧
           t.sail.device = s.sail.device ∧ t.sail.routes = s.sail.routes ∧ t.sail.gen = s.sail.gen ∧ t = { s with
             sail := t.sail
             genCause := t.genCause
             vecs := t.vecs
             out := t.out }))) ∧
     (s.hostMay = true →
       (s.sail.busy = true → Completes .sailAbort s (fun t =>
         t.sail.busy = false ∧ t.sail.job = none ∧ t.sail.status = sSailAborted ∧ t.sail.device = s.sail.device ∧ t.sail.gen = s.sail.gen ∧
         t = { s with
           sail := t.sail
           genCause := t.genCause
           vecs := t.vecs
           out := t.out })) ∧
       (s.sail.busy = false → Completes .sailAbort s (fun t => t.sail = { s.sail with status := sOK } ∧ t = { s with
           sail := t.sail
           genCause := t.genCause
           vecs := t.vecs
           out := t.out }))))

/-! Layer processing (chapter 8). -/

/-- R108, R169, R172, R178: where no block they read fails its check value, PLY_MVM and LOGITS of one ply, all of whose slots have ACTIVE
arrays, bind the lowest-numbered free accumulator to it, with the ply's seed, its arrays and the operation's tokens to issue, and with none
free they wait; no other accumulator changes. SPLICE writes the rows of its ply in reference mode, and the stream goes on; where a partial
input's tag names another feeder, the job halts. R162, R163, R167, R179, R180, R184: a BARRIER lets its stream go on once every mast it
names has reached it, and waits before. REPEAT goes back to the first operation of the body for the next layer of the group, and on after
the last; in reload mode it ends the pass unless the layer is the group's last. SAMPLE goes on in a pass before the last and once the batch
is swept; in the last pass it waits, and releases the batch to the sampler once its logits are there. R162, R163: after the last operation
of a stream the pass of the next block begins, in native mode at its first operation, and after the last block the mast has completed the
batch's work of the beat. -/
def Obligations.StreamsStartAndTurn : Prop :=
  (∀ (s : State) (m : Nat) (a : State.At) (p : PlyPanel), m < 4 → s.mastRuns m = true → (s.stream m).started = false → State.plyCount a = 1 →
     s.plyOf a.b.ctx m (State.plyFirst a) = some p →
     (∀ ci ∈ [(cPlyMvm, Instr.plyMvm m none), (cLogits, Instr.logits m none)], s.atOp m ci.1 = some a →
       (s.boundArrays a.b.ctx p).any (·.isEmpty) = false → State.plyToks a ≠ [] → a.b.replay = false →
       (∀ n, s.freeAcc m = some n → Completes ci.2 s (fun t =>
         (t.acc m n).bound = true ∧ (t.acc m n).todo = State.plyToks a ∧ (t.acc m n).seed = p.seed ∧
         (t.acc m n).arrays = s.boundArrays a.b.ctx p ∧ (∀ k, k ≠ n → t.acc m k = s.acc m k) ∧
         (t.stream m).started = true ∧ (t.stream m).pos = (s.stream m).pos ∧ t.store = s.store ∧ t.arrs = s.arrs)) ∧
       (s.freeAcc m = none → Completes ci.2 s (fun t =>
         (t.stream m).started = true ∧ (t.stream m).wait = 2 ∧ (t.stream m).pos = (s.stream m).pos ∧ (t.stream m).left = [0] ∧
         t = { s with streams := t.streams }))) ∧
     (s.atOp m cSplice = some a → opCode a.op = cSplice → (s.accsOf m a) = [] → a.pos + 1 < a.ops.length →
       let fits := (State.plyToks a).all (fun x => ((s.plyPins m a p x.2).zip p.pins).all (fun q => State.tagFits q.1.1 q.2))
       (fits = true → Completes (.splice m none) s (fun t =>
         t.WentOn m a ∧
         t.store = ((State.eights (State.plyToks a).length (State.plyToks a)).foldl (State.spliceTile m a p 0) s).store ∧
         t = { s with
           store := t.store
           streams := t.streams
           masts := t.masts })) ∧
       (fits = false → Completes (.splice m none) s (fun t =>
         (t.stream m).errCause = 3 ∧ (t.stream m).errOp = BitVec.ofNat 16 a.num ∧ t.integ.tail = s.integ.tail + 1 ∧ t.integ.phase = 1)))) ∧
  (∀ (s : State) (m : Nat) (a : State.At), m < 4 → s.mastRuns m = true → a.pos + 1 < a.ops.length →
     (s.atOp m cBarrier = some a →
       let k := if (s.stream m).started then (s.stream m).bars else (s.stream m).bars + 1
       let go := ∀ j, j < 4 → (opA10 a.op >>> j) % 2 = 1 → j ≠ m → s.reached a j k = true
       (go → Completes (.barrier m) s (fun t => t.WentOn m a ∧ (t.stream m).bars = k ∧ t = { s with streams := t.streams })) ∧
       (¬go → Completes (.barrier m) s (fun t =>
         (t.stream m).wait = 5 ∧ (t.stream m).bars = k ∧ (t.stream m).pos = (s.stream m).pos ∧ t = { s with streams := t.streams }))) ∧
     (s.atOp m cRepeat = some a →
       let now := s.firstLayer a.b.ctx a.b.group + a.iter
       let last := s.lastLayer a.b.ctx a.b.group
       (s.isReload a.b.ctx = false → now < last → bodyStart a.ops < a.ops.length → Completes (.repeatBody m) s (fun t =>
         (t.stream m).pos = bodyStart a.ops ∧ (t.stream m).iter = a.iter + 1 ∧ (t.stream m).started = false ∧
         t = { s with streams := t.streams })) ∧
       ((if s.isReload a.b.ctx then now = last else last ≤ now) →
         Completes (.repeatBody m) s (fun t => t.WentOn m a ∧ t = { s with streams := t.streams })) ∧
       (s.isReload a.b.ctx = true → now ≠ last → Completes (.repeatBody m) s (fun t => s.PassEnded t m a))) ∧
     (s.atOp m cSample = some a →
       (a.blk + 1 < ceilDiv (batchToks a.b) 1024 ∨ a.b.swept = true →
         Completes (.sample m) s (fun t => t.WentOn m a ∧ t = { s with streams := t.streams })) ∧
       (ceilDiv (batchToks a.b) 1024 ≤ a.blk + 1 → a.b.swept = false → Completes (.sample m) s (fun t =>
         (t.stream m).wait = 6 ∧ (t.stream m).started = true ∧ (t.stream m).pos = (s.stream m).pos ∧
         (if s.logitsPresent a.b then t.batches = s.batches.map (fun (y : Batch) => if y = a.b then { y with released := true } else y)
           else t.batches = s.batches) ∧
         t = { s with
           streams := t.streams
           batches := t.batches })))) ∧
  (∀ (s : State) (m : Nat) (a : State.At) (ci : Nat × Instr), m < 4 → s.mastRuns m = true → a.pos + 1 = a.ops.length →
     ci ∈ [(cNorm, Instr.norm m none 0), (cRope, .rope m none 0), (cAct, .act m none 0), (cAdd, .add m none), (cScale, .scale m none),
       (cCheck, .check m none), (cExpand, .expand m none), (cGather, .gather m none)] → s.atOp m ci.1 = some a →
     Completes ci.2 s (fun t => s.PassEnded t m a))

/-- R174, R180, R284, R331: where no block it reads fails its check value, a vector operation writes each token's row to its mast's activation
store: NORM the normalised row, ROPE the rotated one, ACT f(x) times its second source, ADD the sum of the two rows, SCALE the row times its
value and its tensor, each channel rounded to binary32 and converted to the row's format. Its slow elements are counted, the stream goes on,
and nothing else changes. CHECK logs and counts each token with an element that is not finite or lies at or above its bound, and changes no
value. The model's own choices in it: log entry 50. -/
def Obligations.VectorOperations : Prop :=
  ∀ (s : State) (m slow : Nat) (a : State.At), m < 4 → s.mastRuns m = true → a.pos + 1 < a.ops.length →
    let tensor := a.tensor (opA10 a.op)
    (s.atOp m cNorm = some a → Completes (.norm m none slow) s (fun t =>
      t.WentOn m a ∧ (t.stream m).vecSlow = satAdd (s.stream m).vecSlow slow ∧
      t.store = (s.vectorRows m a (fun u k _ => normRow (opB12 a.op) (opB13 a.op) (u.srcA m a k)
        (u.tensorElems a.b.ctx tensor 0 (opWidth a.op))
        (if opB12 a.op = 1 then u.tensorElems a.b.ctx (tensor + 1) 0 (opWidth a.op) else []))).store ∧
      t = { s with
        store := t.store
        streams := t.streams })) ∧
    (s.atOp m cRope = some a → Completes (.rope m none slow) s (fun t =>
      t.WentOn m a ∧ (t.stream m).vecSlow = satAdd (s.stream m).vecSlow slow ∧
      t.store = (s.vectorRows m a (fun u k kj => ropeRow (opB15 a.op) (opA12 a.op) (opB14 a.op) (State.posOf a.b kj)
        (u.tensorElems a.b.ctx tensor 0 (opB14 a.op)) (u.srcA m a k))).store ∧
      t = { s with
        store := t.store
        streams := t.streams })) ∧
    (s.atOp m cAct = some a → Completes (.act m none slow) s (fun t =>
      t.WentOn m a ∧ (t.stream m).vecSlow = satAdd (s.stream m).vecSlow slow ∧
      t.store = (s.vectorRows m a (fun u k _ => (u.srcA m a k).mapIdx (fun c v =>
        actMul (opB12 a.op) v (if opA10 a.op = 0xFFFF then Ext.ofRat 1 else (u.srcRowB m a k).getD c Ext.zero)))).store ∧
      t = { s with
        store := t.store
        streams := t.streams })) ∧
    (s.atOp m cAdd = some a → Completes (.add m none) s (fun t =>
      t.WentOn m a ∧
      t.store = (s.vectorRows m a (fun u k _ => (u.srcA m a k).mapIdx (fun c v =>
        rne32 (Ext.add v ((u.srcRowB m a k).getD c Ext.zero))))).store ∧
      t = { s with
        store := t.store
        streams := t.streams })) ∧
    (s.atOp m cScale = some a → Completes (.scale m none) s (fun t =>
      t.WentOn m a ∧
      t.store = (s.vectorRows m a (fun u k _ => (u.srcA m a k).mapIdx (fun c x =>
        rne32 (Ext.mul (Ext.mul x (f32 (BitVec.ofNat 32 (bitsOf a.op 96 32))))
          (if opA10 a.op = 0xFFFF then Ext.ofRat 1 else (u.tensorElems a.b.ctx tensor 0 (opWidth a.op)).getD c Ext.zero))))).store ∧
      t = { s with
        store := t.store
        streams := t.streams })) ∧
    (s.atOp m cCheck = some a →
      let failing := ((upTo (State.blockToks a.b a.blk).length).filter (fun k =>
        (s.srcA m a k).any (fun v => !v.isFinite || decide (pow2 ((opA10 a.op % 256 : Nat) : Int) ≤ absQ v.toRat)))).length
      Completes (.check m none) s (fun t =>
        t.WentOn m a ∧ t.integ.data = s.integ.data + BitVec.ofNat 64 failing ∧ t.integ.tail = s.integ.tail + BitVec.ofNat 32 failing ∧
        t = { s with
          streams := t.streams
          integ := t.integ }))

/-- R173, R282: EXPAND loads its tensor into the buffer that the latest EXPAND of the pass did not load, and the stream goes on. ATTEND makes
one job for each sequence of the block, by first token, and waits. The next job starts once the copies of its pages are done and its gang of
engines is free, and waits before: its rovings are written to their pages, its tokens' rows to the activation store, its tokens are counted,
and with the last job the stream goes on. The model's own choices in it: log entry 53. -/
def Obligations.AttentionOperations : Prop :=
  ∀ (s : State) (m : Nat) (a : State.At), m < 4 → s.mastRuns m = true → a.pos + 1 < a.ops.length →
    (s.atOp m cExpand = some a → Completes (.expand m none) s (fun t =>
      t.WentOn m a ∧ (if (s.stream m).latest = 0 then (t.stream m).latest = 1 ∧ (t.stream m).buf1 = some (a.tensor (opA10 a.op)) ∧
          (t.stream m).buf0 = (s.stream m).buf0
        else (t.stream m).latest = 0 ∧ (t.stream m).buf0 = some (a.tensor (opA10 a.op)) ∧ (t.stream m).buf1 = (s.stream m).buf1) ∧
      t = { s with streams := t.streams })) ∧
    (s.atOp m cAttend = some a → (s.stream m).started = false →
      let toks := (State.blockToks a.b a.blk).mapIdx (fun t kj => (t, kj.1))
      Completes (.attend m none) s (fun t =>
        (t.stream m).started = true ∧ (t.stream m).wait = 7 ∧ (t.stream m).pos = (s.stream m).pos ∧
        (t.stream m).jobs = ((toks.map (·.2)).eraseDups).map (fun k => ⟨k, (toks.filter (fun x => x.2 = k)).map (·.1)⟩) ∧
        t = { s with streams := t.streams })) ∧
    (∀ j rest e, s.atOp m cAttend = some a → (s.stream m).jobs = j :: rest → s.expansion m a.b.ctx = some e →
      let mb := State.memberOf a.b j.member
      let pos (k : Nat) : Nat := State.posOf a.b ((State.blockToks a.b a.blk).getD k (0, 0))
      (s.jobBlocked a mb j = false → State.gangOf j ≤ (s.freeEngines m).length → s.jobReadOnly a mb j = false →
        let u := j.toks.foldl (fun s k => s.writeRoving m a mb k (pos k)) s
        let v := j.toks.foldl (fun s k => s.attendToken m a mb e.2 k (pos k)) u
        Completes (.attendJobStart m []) s (fun t =>
          t.hbm = u.hbm ∧ t.store = v.store ∧ (t.stream m).jobs = rest ∧
          (t.stream m).attTokens = (s.stream m).attTokens + BitVec.ofNat 64 j.toks.length ∧
          (if rest = [] then t.WentOn m a else (t.stream m).pos = a.pos) ∧
          t = { s with
            store := t.store
            streams := t.streams
            hbm := t.hbm })) ∧
      (s.jobBlocked a mb j = true ∨ (s.freeEngines m).length < State.gangOf j → Completes (.attendJobStart m []) s (fun t => t = s)))

/-- R175, R176, R177: for a block of one token whose operation reads no block that fails its check value. A SEND within the device puts the row,
with its source, step, block and token, into the inbox of the mast named where that has room, and else waits; one to another device hands
its ROW packets over, and the stream goes on once none of them is left in this device. A RECV takes the oldest row of its source, tag, step,
block and token into the activation store, and else waits; a row of another width or format, and a wait longer than MAST_LSQ_TMO, halt the
job. GATHER writes the embedding row of its token; a token at or above VOCAB gives zeros and faults the sequence's step. The model's own
choices in it: log entries 46, 101 and 123. -/
def Obligations.MovementOperations : Prop :=
  ∀ (s : State) (m : Nat) (a : State.At) (kj : Nat × Nat), m < 4 → s.mastRuns m = true → a.pos + 1 < a.ops.length →
    State.blockToks a.b a.blk = [kj] →
    (s.atOp m cSend = some a → (s.stream m).done = [] →
      (opA12 a.op = 0xFFFF → s.rowsInside m = false →
        (s.inboxRoom (opB14 a.op % 4) (opWidth a.op) (opFmtS a.op) = true → Completes (.send m none) s (fun t =>
          t.WentOn m a ∧ (∃ r, t.inboxOf (opB14 a.op % 4) = s.inboxOf (opB14 a.op % 4) ++ [r] ∧ r.srcRank = s.jobRank ∧ r.srcMast = m ∧
            r.tag = opA10 a.op ∧ r.step = a.b.step ∧ r.block = a.blk ∧ r.tok = 0 ∧ r.width = opWidth a.op ∧ r.fmt = opFmtS a.op ∧
            r.bytes = s.rowBytes m (opSrcA a.op) (rowLines (opWidth a.op) (opFmtS a.op)) 0) ∧
          (∀ k, k ≠ opB14 a.op % 4 → t.inboxOf k = s.inboxOf k) ∧
          t = { s with
            streams := t.streams
            inboxes := t.inboxes })) ∧
        (s.inboxRoom (opB14 a.op % 4) (opWidth a.op) (opFmtS a.op) = false → Completes (.send m none) s (fun t =>
          (t.stream m).wait = 3 ∧ (t.stream m).pos = (s.stream m).pos ∧ t = { s with streams := t.streams }))) ∧
      (opA12 a.op ≠ 0xFFFF → opA12 a.op ≠ s.jobRank →
        let u := (s.sendRow m a 0).1
        Completes (.send m none) s (fun t =>
          t.rig = u.rig ∧ (t.stream m).busy = true ∧
          (if u.rowsInside m then (t.stream m).wait = 3 ∧ (t.stream m).pos = (s.stream m).pos ∧ (t.stream m).done = [0] else t.WentOn m a) ∧
          t = { s with
            streams := t.streams
            rig := t.rig }))) ∧
    (s.atOp m cRecv = some a → (s.stream m).done = [] →
      (∀ r, s.recvRow m a 0 = some r → r.width = opWidth a.op → r.fmt = opFmtD a.op → rowLines r.width r.fmt ≤ r.parts →
        Completes (.recv m none) s (fun t =>
          t.WentOn m a ∧ t.inboxOf m = (s.inboxOf m).erase r ∧ (∀ k, k ≠ m → t.inboxOf k = s.inboxOf k) ∧
          t.store = (s.putLines m (opDst a.op) (rowLines r.width r.fmt) 0 r.bytes r.ptag).store ∧
          t = { s with
            streams := t.streams
            inboxes := t.inboxes
            store := t.store })) ∧
      (∀ r, s.recvRow m a 0 = some r → (r.width ≠ opWidth a.op ∨ r.fmt ≠ opFmtD a.op) → Completes (.recv m none) s (fun t =>
        (t.stream m).errCause = 2 ∧ (t.stream m).errOp = BitVec.ofNat 16 a.num ∧ t.integ.tail = s.integ.tail + 1 ∧ t.integ.phase = 1 ∧
        t.batches = [] ∧ t.hbm = s.hbm)) ∧
      (s.recvRow m a 0 = none → Completes (.recv m none) s (fun t =>
        (t.stream m).wait = 3 ∧ (t.stream m).pos = (s.stream m).pos ∧ t = { s with streams := t.streams })) ∧
      ((s.stream m).started = true → (s.stream m).tmo ≠ 0 → (s.stream m).since + (s.stream m).tmo.toNat < s.now →
        Completes (.recvTimeout m) s (fun t =>
          (t.stream m).errCause = 1 ∧ (t.stream m).errOp = BitVec.ofNat 16 a.num ∧ t.integ.tail = s.integ.tail + 1 ∧ t.integ.phase = 1 ∧
          t.batches = [] ∧ t.hbm = s.hbm))) ∧
    (∀ x, s.atOp m cGather = some a → a.b.remote = false → a.b.replay = false → s.tensorOf a.b.ctx (a.tensor (opA10 a.op)) = some x →
      let id := (State.memberOf a.b kj.1).toks.getD kj.2 0
      let w := opWidth a.op
      let n := fmtBytes (opFmtD a.op)
      let e := (State.memberOf a.b kj.1).idx
      (s.vocabOf a.b.ctx ≤ id → Completes (.gather m none) s (fun t =>
        t.WentOn m a ∧ (t.stream m).errCause = 4 ∧ (t.stream m).errOp = BitVec.ofNat 16 a.num ∧
        t.store = (s.writeRow m (opDst a.op) w (opFmtD a.op) 0 (List.replicate w 0)).store ∧
        t.entry e = { s.entry e with stepFault := if (s.entry e).stepFault = 0 then 2 else (s.entry e).stepFault } ∧
        (∀ k, k ≠ e → t.entry k = s.entry k) ∧
        t = { s with
          store := t.store
          streams := t.streams
          entries := t.entries })) ∧
      (id < s.vocabOf a.b.ctx → Completes (.gather m none) s (fun t =>
        t.WentOn m a ∧
        t.store = (s.writeRow m (opDst a.op) w (opFmtD a.op) 0
          (unpackElems (opFmtD a.op) w (s.regionRead a.b.ctx x.stack (x.offset + id * w * n) (w * n)))).store ∧
        t = { s with
          store := t.store
          streams := t.streams })))

/-! Contexts and their weights (chapters 7 and 9). -/

/-- R198, R201: WLOAD in a STOPPED context that has none running, that no LOAD names and whose CTX_WBASE is set, clears BOUND, latches the
address and begins phase MANIFEST; the context stays STOPPED. WLOAD_COMPLETE in phase WRITE binds the image once no array of the context is
being written, or has its region loaded. WABORT ends a WLOAD in progress, and its posts are dropped. -/
def Obligations.WeightLoadBeginsAndEnds : Prop :=
  ∀ (s : State) (c : Nat), c < 16 →
    (s.hostMay = true → (s.ctx c).st = .stopped → (s.ctx c).wload = none → s.loadNames c = false → (s.ctx c).wbase ≠ 0 →
      (s.ctx c).wbase.toNat % 4096 = 0 →
      Completes (.wload c) s (fun t =>
        (t.ctx c).bound = false ∧ (t.ctx c).busy = true ∧ (t.ctx c).phase = 1 ∧ (t.ctx c).cmdLast = 1 ∧ (t.ctx c).st = .stopped ∧
        (t.ctx c).wload = some ⟨(s.ctx c).wbase, s.now, none⟩ ∧ (t.ctx c).wbase = (s.ctx c).wbase ∧ (t.ctx c).sect = (s.ctx c).sect ∧
        (∀ d, d ≠ c → t.ctx d = s.ctx d) ∧ t.arrs = s.arrs ∧ t.rows = s.rows ∧ t.hbm = s.hbm ∧ t.posts = s.posts)) ∧
    (∀ w m, (s.ctx c).wload = some w → w.manifest = some m → (s.ctx c).phase = 4 →
      (∀ k, k < 4 → ∀ p ∈ s.arrsOf k (fun a => decide (a.slot.map (·.ctx) = some c)),
        (s.arr k p).write = none ∧ (s.arr k p).fw = none ∧ (s.spl k p).busy = false) →
      Completes (.wloadComplete c) s (fun t =>
        t.ctx c = { s.ctx c with
          bound := true
          wdigest := m.digest
          manifest := some m
          wload := none
          busy := false
          phase := 0
          status := sOK } ∧ (∀ d, d ≠ c → t.ctx d = s.ctx d) ∧
        t = { s with
          ctxs := t.ctxs
          genCause := s.genCause ||| BitVec.ofNat 11 (2 ^ gCtx)
          vecs := t.vecs
          out := t.out })) ∧
    (s.hostMay = true → (s.ctx c).st ≠ .absent → (s.ctx c).wload.isSome = true →
      Completes (.wabort c) s (fun t =>
        t.ctx c = { s.ctx c with
          wload := none
          busy := false
          phase := 0
          cmdLast := 4
          status := sOK } ∧ (∀ d, d ≠ c → t.ctx d = s.ctx d) ∧
        t = { s with
          ctxs := t.ctxs
          posts := s.posts.filter (fun p => p.ctx ≠ c)
          genCause := s.genCause ||| BitVec.ofNat 11 (2 ^ gCtx)
          vecs := t.vecs
          out := t.out }))

/-- R201: in phase MANIFEST, a manifest that is not of its form, and one that is not read, ends the WLOAD with WIMG_BAD_MANIFEST; one that fails
a check of Table 9.6 ends it with that check's status, and one that passes is kept: every shard is then missing, and phase SHARDS begins.
Arrays, HBM and the other contexts stay. R202, R203, R247: a posted shard that is missing and whose fetch does not run waits, and one that
the manifest does not have is rejected. A shard for whose chunks a frame is held stays in the staging buffer. Else, where its digest is the
manifest's, it is stored whole at its place in the region and is no longer missing, and with the last one the posts that still wait are
dropped and phase SHARDS is over; where it is not, or the fetch failed, the shard is discarded and counted in BAD. With a shard missing
LOAD_TMO milliseconds after its acceptance, the WLOAD ends with LOAD_MISSING. -/
def Obligations.ManifestAndShards : Prop :=
  (∀ (s : State) (c : Nat) (w : Wload), c < 16 → (s.ctx c).wload = some w → (s.ctx c).phase = 1 →
     let failed (st : Byte) (t : State) : Prop :=
       t.ctx c = { s.ctx c with
         wload := none
         busy := false
         phase := 0
         status := st } ∧ (∀ d, d ≠ c → t.ctx d = s.ctx d) ∧ t.arrs = s.arrs ∧ t.hbm = s.hbm
     (∀ b, manifestForm b = true →
       let m := manifestOfBytes b
       let held := { s.ctx c with wload := some { w with manifest := some m } }
       (∀ st, (s.setCtx c held).manifestFail c b m = some st → Completes (.wloadManifestRead c (some b)) s (fun t =>
         (t.ctx c).wload = none ∧ (t.ctx c).busy = false ∧ (t.ctx c).phase = 0 ∧ (t.ctx c).status = st ∧ (t.ctx c).bound = (s.ctx c).bound ∧
         (∀ d, d ≠ c → t.ctx d = s.ctx d) ∧ t.arrs = s.arrs ∧ t.hbm = s.hbm)) ∧
       ((s.setCtx c held).manifestFail c b m = none → Completes (.wloadManifestRead c (some b)) s (fun t =>
         t.ctx c = { held with
           phase := 2
           shards := BitVec.ofNat 13 m.shards.length
           missing := upTo m.shards.length } ∧ (∀ d, d ≠ c → t.ctx d = s.ctx d) ∧ t = { s with ctxs := t.ctxs }))) ∧
     (∀ b, manifestForm b = false → Completes (.wloadManifestRead c (some b)) s (failed sWimgBadManifest)) ∧
     Completes (.wloadManifestRead c none) s (failed sWimgBadManifest)) ∧
  ((∀ (s : State) (c : Nat) (v : W64), c < 16 → s.hostMay = true → (s.ctx c).wload.isSome = true → (s.ctx c).phase = 2 →
     (bitsOf v.toNat 0 12 < (s.ctx c).shards.toNat → bitsOf v.toNat 0 12 ∈ (s.ctx c).missing →
       (∀ k p, s.running k = some p → (p.ctx, p.idx) ≠ (c, bitsOf v.toNat 0 12)) → s.posts.length < 64 →
       Completes (.ctxShardPost c v) s (fun t => t = { s with posts := s.posts ++ [⟨c, bitsOf v.toNat 0 12, v &&& ~~~0xFFF⟩] })) ∧
     ((s.ctx c).shards.toNat ≤ bitsOf v.toNat 0 12 →
       Completes (.ctxShardPost c v) s (fun t => t.ctx c = { s.ctx c with postRej := true } ∧ (∀ d, d ≠ c → t.ctx d = s.ctx d) ∧
         t = { s with ctxs := t.ctxs }))) ∧
   (∀ (s : State) (k : Nat) (p : Post) (x : Shard), k < 8 → s.running k = some p → s.postShard p = some x →
     (∀ bytes, s.regionHeld p.ctx k x.offset x.length = true → Completes (.shardFetchComplete k (some bytes)) s (fun t => t = s)) ∧
     (∀ bytes, s.regionHeld p.ctx k x.offset x.length = false → shakeDigest (slice bytes 0 x.length) = x.digest →
       let rest := (s.ctx p.ctx).missing.filter (· ≠ p.idx)
       Completes (.shardFetchComplete k (some bytes)) s (fun t =>
         t.posts = (if rest = [] then (s.posts.erase p).filter (fun q => q.ctx ≠ p.ctx) else s.posts.erase p) ∧
         (t.ctx p.ctx).missing = rest ∧
         (if rest = [] then (t.ctx p.ctx).phase = 3 ∨ (t.ctx p.ctx).phase = 4 else (t.ctx p.ctx).phase = (s.ctx p.ctx).phase) ∧
         (∀ d, d ≠ p.ctx → t.ctx d = s.ctx d) ∧
         t.hbm = (s.regionWrite p.ctx k x.offset (slice bytes 0 x.length)).hbm ∧
         t = { s with
           ctxs := t.ctxs
           posts := t.posts
           hbm := t.hbm })) ∧
     (let discarded (t : State) : Prop :=
       t.posts = s.posts.erase p ∧ t.ctx p.ctx = { s.ctx p.ctx with bad := satAdd (s.ctx p.ctx).bad 1 } ∧
       (∀ d, d ≠ p.ctx → t.ctx d = s.ctx d) ∧
       t = { s with
         ctxs := t.ctxs
         posts := t.posts }
     (∀ bytes, s.regionHeld p.ctx k x.offset x.length = false → shakeDigest (slice bytes 0 x.length) ≠ x.digest →
       Completes (.shardFetchComplete k (some bytes)) s discarded) ∧
     Completes (.shardFetchComplete k none) s discarded)) ∧
   (∀ (s : State) (c : Nat) (w : Wload), c < 16 → (s.ctx c).wload = some w → (s.ctx c).phase = 2 → (s.ctx c).loadTmo ≠ 0 →
     (s.ctx c).missing ≠ [] → w.start + 100000 * (s.ctx c).loadTmo.toNat ≤ s.now →
     Completes (.wloadTimeout c) s (fun t =>
       t.ctx c = { s.ctx c with
         wload := none
         busy := false
         phase := 0
         status := sLoadMissing } ∧ (∀ d, d ≠ c → t.ctx d = s.ctx d) ∧ (∀ q ∈ t.posts, q.ctx ≠ c) ∧ t.arrs = s.arrs ∧ t.hbm = s.hbm)))

/-- R196, R197, R204: in phase BUILD, for a slot whose image is not built and whose array can take a write: an image that fails its plan ends
the WLOAD with WIMG_PLAN, a tensor whose fuse values fail with WIMG_FUSE. An image that fits lies then in HBM at its place with its digest
recorded, and its ply's outlier table and fuse-store entry are filled from the same tensor; in native mode the array that serves the slot
and takes commands is then written from it, and its splice region loaded. An image that was built is not built again. The model's own
choices in it: log entries 32, 67, 102 and 103. -/
def Obligations.DerivedImageIsBuilt : Prop :=
  ∀ (s : State) (c m x : Nat), c < 16 → m < 4 → (s.ctx c).phase = 3 → (s.ctx c).wload.isSome = true →
    let l : BitVec 2 := match s.slotArr m c x with | some p => s.targetMap m p | none => 0
    let failed (st : Byte) (t : State) : Prop :=
      (t.ctx c).wload = none ∧ (t.ctx c).busy = false ∧ (t.ctx c).phase = 0 ∧ (t.ctx c).status = st ∧ t.arrs = s.arrs ∧ t.hbm = s.hbm
    ((∃ d ∈ (s.ctx c).digests, d.1 = m ∧ d.2.1 = x) → Completes (.derivedImageBuilt c m x) s (fun t => t = s)) ∧
    (∀ u z d bad k o, (∀ d ∈ (s.ctx c).digests, ¬(d.1 = m ∧ d.2.1 = x)) → s.slotHeld c m x = false →
      s.useOf c m x = some u → s.tensorOf c u.ply.tensor = some z → s.deriveSlot c m x l = some (d, bad) → s.derivedAt c m x = some (k, o) →
      let pt : PlyTensor := ⟨z.fmt, s.tensorBytes c z⟩
      (bad = true ∨ (d.excess = true ∧ l = 0) → Completes (.derivedImageBuilt c m x) s (failed sWimgPlan)) ∧
      (bad = false → (d.excess = true → l ≠ 0) → fuseFails pt u.ply.scaleEn u.ply.biasEn = true →
        Completes (.derivedImageBuilt c m x) s (failed sWimgFuse)) ∧
      (bad = false → d.excess = false → fuseFails pt u.ply.scaleEn u.ply.biasEn = false →
        Completes (.derivedImageBuilt c m x) s (fun t =>
          t.hbm = ((s.regionWrite c k o d.image).regionWrite c k (o + 1048576) d.region).hbm ∧
          (m, x, l, shakeDigest (d.image ++ d.region)) ∈ (t.ctx c).digests ∧
          t.outlier m (s.plyIndex c u.ply) = slice (outlierTable pt u.ply.dch) 0 36864 ∧
          t.fuse m (s.plyIndex c u.ply) = slice (fuseEntry pt) 0 8192 ∧
          ((t.ctx c).phase = 3 ∨ (t.ctx c).phase = 4) ∧ t.entries = s.entries ∧
          (∀ p, s.isReload c = false → s.slotArr m c x = some p → (s.arr m p).cmdBusy = false → (s.arr m p).st ≠ .retired →
            (t.arr m p).st = .writing ∧ ((t.arr m p).write.map (·.image)) = some (some ⟨c, x⟩) ∧ (t.spl m p).st = .loading ∧
            (t.spl m p).image = some ⟨c, x⟩))))

/-- R198, R200: START of a STOPPED context that has no WLOAD running and that no LOAD names sets it RUNNING where an image is bound, and
completes with NOT_BOUND where none is. STOP of a RUNNING context sets it DRAINING. It is STOPPED once no batch of it is in flight. -/
def Obligations.ContextsRunAndStop : Prop :=
  ∀ (s : State) (c : Nat), c < 16 →
    (s.hostMay = true → (s.ctx c).st = .stopped → (s.ctx c).wload = none → s.loadNames c = false →
      Completes (.start c) s (fun t =>
        t.ctx c = { s.ctx c with
          st := if (s.ctx c).bound then .running else .stopped
          cmdLast := 2
          status := if (s.ctx c).bound then sOK else sNotBound } ∧ (∀ d, d ≠ c → t.ctx d = s.ctx d) ∧
        t = { s with
          ctxs := t.ctxs
          genCause := s.genCause ||| BitVec.ofNat 11 (2 ^ gCtx)
          vecs := t.vecs
          out := t.out })) ∧
    (s.hostMay = true → (s.ctx c).st = .running →
      Completes (.stop c) s (fun t =>
        t.ctx c = { s.ctx c with
          st := .draining
          cmdLast := 3
          status := sOK } ∧ (∀ d, d ≠ c → t.ctx d = s.ctx d) ∧
        t = { s with
          ctxs := t.ctxs
          genCause := s.genCause ||| BitVec.ofNat 11 (2 ^ gCtx)
          vecs := t.vecs
          out := t.out })) ∧
    ((s.ctx c).st = .draining → s.inFlight c = false →
      Completes (.ctxDrainComplete c) s (fun t =>
        (t.ctx c).st = .stopped ∧ (∀ d, d ≠ c → t.ctx d = s.ctx d) ∧ t = { s with ctxs := t.ctxs })) ∧
    ((s.ctx c).st = .draining → s.inFlight c = true → Completes (.ctxDrainComplete c) s (fun t => t = s))

/-- R199: CTX_WBASE is writable only in STOPPED: a write in RUNNING is refused with NOT_STOPPED, one in DRAINING is held, and a later one
replaces it; one of an ABSENT context is ignored with CTX_ABSENT; one in STOPPED takes effect with OK, and a running WLOAD keeps the address
it latched. The value held is applied when the context enters STOPPED, with OK; a warm or cold reset discards it. -/
def Obligations.WeightBaseWrites : Prop :=
  ∀ (s : State) (c : Nat), c < 16 →
    (∀ v : W64, s.hostMay = true →
      ((s.ctx c).st = .running → Completes (.ctxWbaseWrite c v) s (fun t =>
        t.ctx c = { s.ctx c with wbStatus := sNotStopped } ∧ (∀ d, d ≠ c → t.ctx d = s.ctx d) ∧ t = { s with ctxs := t.ctxs })) ∧
      ((s.ctx c).st = .draining → Completes (.ctxWbaseWrite c v) s (fun t =>
        t.ctx c = { s.ctx c with heldWbase := some (v &&& ~~~0xFFF) } ∧ (∀ d, d ≠ c → t.ctx d = s.ctx d) ∧ t = { s with ctxs := t.ctxs })) ∧
      ((s.ctx c).st = .absent → Completes (.ctxWbaseWrite c v) s (fun t =>
        t.ctx c = { s.ctx c with wbStatus := sCtxAbsent } ∧ (∀ d, d ≠ c → t.ctx d = s.ctx d) ∧ t = { s with ctxs := t.ctxs })) ∧
      ((s.ctx c).st = .stopped → Completes (.ctxWbaseWrite c v) s (fun t =>
        t.ctx c = { s.ctx c with
          wbase := v &&& ~~~0xFFF
          wbStatus := sOK } ∧ (t.ctx c).wload = (s.ctx c).wload ∧ (∀ d, d ≠ c → t.ctx d = s.ctx d) ∧ t = { s with ctxs := t.ctxs }))) ∧
    ((s.ctx c).st = .draining → s.inFlight c = false →
      (∀ a, (s.ctx c).heldWbase = some a → Completes (.ctxDrainComplete c) s (fun t =>
        t.ctx c = { s.ctx c with
          st := .stopped
          wbase := a
          heldWbase := none
          wbStatus := sOK })) ∧
      ((s.ctx c).heldWbase = none → Completes (.ctxDrainComplete c) s (fun t => t.ctx c = { s.ctx c with st := .stopped }))) ∧
    Completes .coldReset s (fun t => (t.ctx c).heldWbase = none) ∧
    (∀ kind addr, kind < 4 → addr < 131072 → s.lan.stuck = false → s.addressed kind addr = true → s.lan.resetEn = true →
      Completes (.reset kind addr 0xC33C3C) s (fun t => (t.ctx c).heldWbase = none))

/-! The sequence engine (chapter 10). -/

/-- R212, R240, R242, R467: with nothing held and room in the completion ring, a write of SEQ_CQ_TAIL while enabled takes the next command: it
waits in ring order, one of a reserved opcode completes with BAD_COMMAND, and a failed read sets FETCH_ERR and stops fetching. A write of
SEQ_CPL_HEAD that frees a slot, and a retry 100 µs after the last failed write, writes the completion held, and a retry that fails sets
CPL_ERR. SEQ_CTL takes AGE_LIMIT and CHUNK_MAX, and ENABLE unless a ring size is bad; SEQ_HINT is a time in µs from now, 0 for none; a read
of entry word 0 copies the selected entry and answers its first word. -/
def Obligations.SequenceRings : Prop :=
  ∀ s : State, s.hostMay = true →
    (∀ (v : W16) (b : List Byte), s.seq.enable = true → s.cplFull = false → s.seq.held = [] → s.bmStop = false →
      s.seq.cqHead.toNat % s.seq.cqSize.toNat ≠ v.toNat % s.seq.cqSize.toNat →
      let moved : SeqRegs := { s.seq with
        cqTail := v
        fetchStop := false
        cqHead := BitVec.ofNat 16 ((s.seq.cqHead.toNat + 1) % s.seq.cqSize.toNat) }
      (1 ≤ (descOf b).opcode → (descOf b).opcode ≤ 9 → Completes (.seqCqTailWrite v [some b] 0) s (fun t =>
        t = { s with seq := { moved with fetched := s.seq.fetched ++ [descOf b] } })) ∧
      ((descOf b).opcode = 0 ∨ 9 < (descOf b).opcode → Completes (.seqCqTailWrite v [some b] 1) s (fun t =>
        State.Answered s t (descOf b) (descOf b).handle sBadCommand 0 0 ∧
        t = { s with
          seq := { moved with cplTail := t.seq.cplTail }
          vecs := t.vecs
          out := t.out })) ∧
      Completes (.seqCqTailWrite v [none] 0) s (fun t =>
        t = { s with seq := { s.seq with
          cqTail := v
          fetchErr := true
          fetchStop := true } })) ∧
    (∀ c : Cpl, s.seq.held = [c] → s.seq.enable = true → s.bmStop = false →
      let put (q : SeqRegs) (t : State) : Prop :=
        .hostWrite (s.seq.cplBase.toNat + 16 * s.seq.cplTail.toNat) (cplBytes c) ∈ t.out ∧
        t = { s with
          seq := { q with
            held := []
            cplTail := BitVec.ofNat 16 ((s.seq.cplTail.toNat + 1) % s.seq.cplSize.toNat) }
          vecs := t.vecs
          out := t.out }
      (∀ v : W16, (s.seq.cplTail.toNat + 1) % s.seq.cplSize.toNat ≠ v.toNat % s.seq.cplSize.toNat →
        Completes (.seqCplHeadWrite v [] 1) s (put { s.seq with cplHead := v })) ∧
      (s.cplFull = false → s.seq.retryAt + 10000 ≤ s.now →
        Completes (.completionRetry [] 1) s (put s.seq) ∧
        Completes (.completionRetry [] 0) s (fun t =>
          t = { s with seq := { s.seq with
            cplErr := true
            retryAt := s.now } })) ∧
      (s.now < s.seq.retryAt + 10000 → Completes (.completionRetry [] 1) s (fun t => t = s))) ∧
    (∀ v : W32, s.seq.held = [] → Completes (.seqCtlWrite v [] 0) s (fun t =>
      let on := v.getLsbD 31 && (s.seq.enable || State.ringSizeOk s.seq.cqSize.toNat && State.ringSizeOk s.seq.cplSize.toNat)
      t = { s with seq := { s.seq with
        enable := on
        cqErr := s.seq.cqErr || (v.getLsbD 31 && !on)
        ageLimit := v.extractLsb' 16 10
        chunkMax := v.extractLsb' 0 14
        linkStop := s.seq.linkStop && !on } })) ∧
    (∀ v : W64, Completes (.seqHintWrite v) s (fun t =>
      t = { s with seq := { s.seq with hint := if v = 0 then 0 else s.time + v * 100 } })) ∧
    Completes .seqEntryRead s (fun t =>
      let ws := wordsOf 8 (entryBytes (s.entry s.seq.sel.toNat))
      t = { s with
        seq := { s.seq with copy := ws }
        out := s.out ++ [.completion true (ws.getD 0 0).toNat] })

/-- R217, R218, R239: a SUBMIT that passes the checks of Table 10.8 on a device without members is admitted into the lowest-numbered FREE entry:
it is ADMITTED with the context, priority, deadline and reel of the command and the LENGTH of its prefix, has its rows reserved and its
prompt to be copied, and is answered with its handle. With members it waits for their reservations, and no entry or table changes. One that
fails a check completes with its status, and no entry, table or input changes. The model's own choices in it: log entries 43 and 86. -/
def Obligations.SubmitAdmits : Prop :=
  ∀ (s : State) (d : Desc) (reel smp : Option (List Byte)), d.opcode = 1 → s.seqMay d = true →
    (∀ i, (s.unfetch d).submitCheck d reel smp = none → (s.unfetch d).freeEntry = some i →
      ((s.unfetch d).members = [] → Completes (.submit d reel smp true) s (fun t =>
        (t.entry i).st = .admitted ∧ (t.entry i).gen = (s.entry i).gen ∧ (t.entry i).ctx = BitVec.ofNat 4 d.ctx ∧
        (t.entry i).priority = BitVec.ofNat 3 d.priority ∧ (t.entry i).deadline = s.fromNow d.deadline ∧ (t.entry i).reel = d.reel ∧
        (t.entry i).length = BitVec.ofNat 21 (if d.pfx = 0xFFFF then 0 else (s.pfx d.ctx d.pfx).length) ∧
        (t.entry i).inFlight = false ∧ (t.entry i).nextValid = false ∧ (t.entry i).commits = 0 ∧
        (t.tbl i).resRows = (s.tbl i).resRows + BitVec.ofNat 16 (s.submitRows d) ∧ t.input i = { copying := d.count } ∧
        (∀ j, j ≠ i → t.entry j = s.entry j) ∧ State.Answered s t d (BitVec.ofNat 32 (s.handleOf i)) sOK 1 0)) ∧
      ((s.unfetch d).members ≠ [] → Completes (.submit d reel smp true) s (fun t =>
        (∃ a, t.seq.awaits = s.seq.awaits ++ [a] ∧ a.idx = i ∧ a.ctx = d.ctx ∧ a.cmd = d ∧ a.rows = s.submitRows d ∧ a.waiting = s.members ∧
          a.acked = [] ∧ a.refused = false) ∧
        t.entries = s.entries ∧ t.tables = s.tables ∧ t.inputs = s.inputs ∧ t.seq.held = s.seq.held))) ∧
    ∀ st, (s.unfetch d).submitCheck d reel smp = some st → Completes (.submit d reel smp true) s (fun t =>
      State.Answered s t d 0 st 0 0 ∧ t.entries = s.entries ∧ t.tables = s.tables ∧ t.inputs = s.inputs)

/-- R215, R220, R230, R236, Table 10.6, on a device without members: APPEND that passes its checks sends a WAITING or ENDED sequence back to
ADMITTED, its input to be copied behind NEXT. RESUME returns an EXPIRED sequence whose reel has room to PREFILL or DECODE. CANCEL waits on a
sequence that is ADMITTED or RESTARTING or in flight, ends one that is PREFILL, DECODE, PARKED or WAITING, and meets ALREADY_ENDED on one
that has ended. SET_PRIORITY sets what its flags name. FORK that passes its checks makes the lowest-numbered FREE entry a copy of a WAITING
or ENDED sequence. No other entry changes. The model's own choices in it: log entries 36, 86 and 129. -/
def Obligations.EntryCommands : Prop :=
  ∀ (s : State) (d : Desc) (i : Nat), s.seqMay d = true →
    let others (j : Nat) (t : State) : Prop := ∀ k, k ≠ j → t.entry k = s.entry k
    (d.opcode = 2 → State.badAlign d = false → (s.unfetch d).entryRefusal d true = (none, i) →
      ((s.entry i).st = .waiting ∨ (s.entry i).st = .ended) → d.count ≠ 0 →
      let n := (s.entry i).nextValid.toNat + d.count
      let c := (s.entry i).ctx.toNat
      let len := (s.entry i).length.toNat
      len + n ≤ 1048576 → (n + 1023) / 1024 ≤ (s.unfetch d).inputFree →
      (s.unfetch d).cmdFits i c len ((s.unfetch d).cmdRows i c len n) false = true → (s.unfetch d).members = [] →
      Completes (.append d true) s (fun t =>
        t.entry i = { s.entry i with
          st := .admitted
          input := BitVec.ofNat 21 n
          nextValid := false
          deadline := s.fromNow d.deadline
          hint := 0 } ∧
        t.input i = {
          toks := if (s.entry i).nextValid then [(s.entry i).next.toNat] else []
          nextFirst := (s.entry i).nextValid
          copying := d.count } ∧
        (t.tbl i).resRows = (s.tbl i).resRows + BitVec.ofNat 16 (s.cmdRows i c len n) ∧ (t.smpOf i).new = 0 ∧
        others i t ∧ State.Answered s t d d.handle sOK 1 0)) ∧
    (d.opcode = 3 → (s.unfetch d).entryRefusal d true = (none, i) → (s.entry i).st = .expired → (s.entry i).inFlight = false →
      2 ≤ reelRoom (s.reel i) → (s.reel i).held = [] → (s.reel i).heldQ = 0 →
      Completes (.resume d true) s (fun t =>
        t.entry i = { s.entry i with
          st := if (s.entry i).expFrom then .decode else .prefill
          deadline := s.fromNow d.deadline } ∧ others i t ∧
        State.Answered s t d d.handle sOK (if (s.entry i).expFrom then 3 else 2) 0)) ∧
    (d.opcode = 4 → (s.unfetch d).byHandle d.handle = some i →
      let e := s.entry i
      (e.st = .admitted ∨ e.st = .restarting ∨ ((e.st = .prefill ∨ e.st = .decode) ∧ e.inFlight = true) → Completes (.cancel d true) s (fun t =>
        t.entry i = { e with
          cancelPend := true
          cancels := e.cancels ++ [d] } ∧ others i t ∧
        t = { s with
          entries := t.entries
          seq := (s.unfetch d).seq })) ∧
      (e.st = .parked ∨ (e.st = .waiting ∧ e.moving = false) ∨ ((e.st = .prefill ∨ e.st = .decode) ∧ e.inFlight = false) →
        Completes (.cancel d true) s (fun t =>
          t.entry i = { e with
            st := .cancelled
            pendRec := (t.entry i).pendRec } ∧ (t.tbl i).resRows = 0 ∧ others i t ∧ State.Answered s t d d.handle sOK 8 0)) ∧
      (e.st = .ended ∨ e.st = .cancelled ∨ e.st = .expired ∨ e.st = .faulted → Completes (.cancel d true) s (fun t =>
        t.entries = s.entries ∧ State.Answered s t d d.handle sAlreadyEnded (stateCode e.st) 0))) ∧
    (d.opcode = 9 → (s.unfetch d).byHandle d.handle = some i → Completes (.setPriority d true) s (fun t =>
      t.entry i = { s.entry i with
        priority := if d.flags % 2 = 1 then BitVec.ofNat 3 d.priority else (s.entry i).priority
        deadline := if (d.flags >>> 1) % 2 = 1 then s.fromNow d.deadline else (s.entry i).deadline
        hint := if (d.flags >>> 2) % 2 = 1 then s.fromNow d.hint else (s.entry i).hint } ∧
      others i t ∧ State.Answered s t d d.handle sOK (stateCode (s.entry i).st) 0)) ∧
    ∀ (j : Nat) (rb mb : List Byte), d.opcode = 5 → State.badAlign d = false → (s.unfetch d).entryRefusal d true = (none, i) →
      ((s.entry i).st = .waiting ∨ (s.entry i).st = .ended) → reelOk rb = true → smpOk mb ((s.unfetch d).vocabOf (s.entry i).ctx.toNat) = true →
      (s.unfetch d).freeEntry = some j → (s.unfetch d).ctxFull (s.entry i).ctx.toNat = false →
      (s.unfetch d).fits (s.entry i).ctx.toNat ((s.unfetch d).forkNeed i) true = true →
      (s.unfetch d).dirSize (s.entry i).ctx.toNat + (s.tbl i).ptrs.length ≤ (s.unfetch d).ptbFree → (s.unfetch d).members = [] →
      Completes (.fork d (some rb) (some mb) true) s (fun t =>
        t.entry j = {
          gen := (s.entry j).gen
          st := (s.entry i).st
          ctx := (s.entry i).ctx
          priority := BitVec.ofNat 3 d.priority
          length := (s.entry i).length
          nextValid := (s.entry i).nextValid
          next := (s.entry i).next
          pageTable := (t.entry j).pageTable
          reel := d.reel
          smp := BitVec.ofNat 32 j } ∧ others j t ∧
        State.Answered s t d (BitVec.ofNat 32 (s.handleOf j)) sOK (stateCode (s.entry i).st) 0)

/-- R235, R264 to R267: SPILL of a resident sequence that has stopped, and RECALL of a SPILLED one, are accepted where the tier has room, and
wait as moves. The move that runs completes with its last page: the sequence is then SPILLED, or in the state that SPILL left; after a link
reset it stands until the engine is enabled. RELEASE frees the entry of a sequence that has ended, under the next generation, with its
tables, input and reel; it waits while queued records cannot be written, and meets NOT_ENDED on another sequence. The model's own choices in
it: log entries 37, 40 and 86. -/
def Obligations.MovesAndRelease : Prop :=
  ∀ (s : State) (d : Desc) (i : Nat),
    let others (j : Nat) (t : State) : Prop := ∀ k, k ≠ j → t.entry k = s.entry k
    let accepted (t : State) : Prop :=
      others i t ∧
      t = { s with
        entries := t.entries
        tables := t.tables
        kv := { s.kv with moves := s.kv.moves ++ [⟨decide (d.opcode = 7), i, d, []⟩] }
        seq := (s.unfetch d).seq }
    (s.seqMay d = true → d.opcode = 6 → (s.unfetch d).entryRefusal d false = (none, i) →
      ((s.entry i).st = .waiting ∨ (s.entry i).st = .ended ∨ (s.entry i).st = .cancelled ∨ (s.entry i).st = .expired ∨
        (s.entry i).st = .faulted) → (s.unfetch d).spillFits i (s.entry i).ctx.toNat = true →
      Completes (.spill d true) s (fun t =>
        t.entry i = { s.entry i with
          moving := true
          prior := (s.entry i).st } ∧ accepted t)) ∧
    (s.seqMay d = true → d.opcode = 7 → (s.unfetch d).entryRefusal d false = (none, i) → (s.entry i).st = .spilled →
      (s.unfetch d).recallFits i (s.entry i).ctx.toNat (decide ((s.entry i).prior = .expired)) = true →
      Completes (.recall d true) s (fun t => t.entry i = { s.entry i with moving := true } ∧ accepted t)) ∧
    (∀ m, s.nextMove = some m →
      (s.reelMay = false → ∀ pages, Completes (.moveComplete pages true) s (fun t => t = s)) ∧
      (s.reelMay = true → ∀ (pages : List PageMove) (u : State),
        (pages = [] ∧ u = s) ∨ (∃ b ep, pages = [.moved b false] ∧ s.movePages m = [ep] ∧
          u = if m.back then s.recallPage m.idx (s.entry m.idx).ctx.toNat ep b else s.spillPage m.idx (s.entry m.idx).ctx.toNat ep) →
        u.movePages m = [] → Completes (.moveComplete pages true) s (fun t =>
          let e := s.entry m.idx
          let st : SeqState := if m.back = false then .spilled else if e.st = .faulted then .faulted else e.prior
          let lost := e.st = .faulted ∨ (m.back = false ∧ e.prior = .faulted)
          t.entry m.idx = { e with
            moving := false
            st := st
            prior := if m.back = false ∧ e.st = .faulted then .faulted else e.prior } ∧
          others m.idx t ∧ t.kv.moves = s.kv.moves.erase m ∧ (t.tbl m.idx).pages = (u.tbl m.idx).pages ∧
          State.Answered s t m.cmd m.cmd.handle sOK (if lost then 10 else stateCode st) 0))) ∧
    (s.seqMay d = true → d.opcode = 8 → (s.unfetch d).entryRefusal d false = (none, i) →
      (State.endedState (s.entry i) = true → (s.entry i).cancels = [] →
        ((s.reelMay = true ∨ (s.reel i).queue = []) → Completes (.release d true) s (fun t =>
          let u := (((s.unfetch d).cancelsDone i sAlreadyEnded true).disarm i 1).flushReel i
          t.entry i = { gen := State.nextGen (s.entry i).gen } ∧ others i t ∧
          t.tbl i = {} ∧ t.input i = {} ∧ t.reel i = {} ∧ State.Answered s t d d.handle sOK 0 (u.reel i).held.length)) ∧
        (s.reelMay = false → (s.reel i).queue ≠ [] → Completes (.release d true) s (fun t => t = s))) ∧
      (State.endedState (s.entry i) = false → Completes (.release d true) s (fun t =>
        t.entries = s.entries ∧ State.Answered s t d d.handle sNotEnded (stateCode (s.entry i).st) 0)))

/-- R219, R231, R298, R303, R305: an input copied in makes an ADMITTED sequence PREFILL, where no CANCEL waits, its deadline has not passed and
its reel has room, and a failed copy faults it with cause 1. A deadline that has passed expires a PREFILL, DECODE or PARKED sequence that is
not in flight. For a batch with one sampling sequence, all of whose logits are there, the sampler delivers the token drawn, or reports a
sampler fault for its step. The MATCH words take in the token sampled. R226 to R229, R292, R349: the commit sweep of a batch of one sequence
commits its step: LENGTH advances, and the token sampled is NEXT; a CANCEL that waits, a fault of the step, a deadline that has passed, or a
token that was not delivered, in this order, end the sequence instead with LENGTH as before. Its batch has then been swept. The oldest
notice owed goes to the partitions that name its context, in mast order. A record due is written into the ring where there is room, as a
STEP record alone where the ranges are those recorded last, and without room the sequence is disarmed. The model's own choices in it: log
entries 41 and 130. -/
def Obligations.StepsOfASequence : Prop :=
  (∀ (s : State) (i : Nat), i < 131072 →
     ((s.entry i).st = .admitted → (s.entry i).cancelPend = false →
       (∀ l, s.deadlinePassed (s.entry i) = false → (s.entry i).inFlight = false → 2 ≤ reelRoom (s.reel i) → (s.reel i).held = [] →
         (s.reel i).heldQ = 0 →
         Completes (.inputCopyComplete i (some l) true) s (fun t =>
           t.entry i = { s.entry i with
             st := .prefill
             input := BitVec.ofNat 21 ((s.input i).toks.length + (s.input i).copying) } ∧
           t.input i = { s.input i with
             toks := (s.input i).toks ++ (upTo (s.input i).copying).map (fun k => l.getD k 0 % 2 ^ 32)
             copying := 0 } ∧ (∀ j, j ≠ i → t.entry j = s.entry j) ∧
           t = { s with
             entries := t.entries
             inputs := t.inputs })) ∧
       Completes (.inputCopyComplete i none true) s (fun t =>
         t.entry i = { s.entry i with
           st := .faulted
           fault := 1
           stepFault := 0
           pendRec := (t.entry i).pendRec } ∧ t.input i = {} ∧ (∀ j, j ≠ i → t.entry j = s.entry j))) ∧
     (((s.entry i).st = .prefill ∨ (s.entry i).st = .decode ∨ (s.entry i).st = .parked) → (s.entry i).inFlight = false →
       s.deadlinePassed (s.entry i) = true → Completes (.deadlineExpiry i) s (fun t =>
         t.entry i = { s.entry i with
           st := .expired
           expFrom := decide ((s.entry i).input = 0)
           pendRec := (t.entry i).pendRec } ∧ t.seq = { s.seq with expired := satAdd s.seq.expired 1 } ∧ t.tables = s.tables ∧
         (∀ j, j ≠ i → t.entry j = s.entry j))) ∧
     (∀ tok, (s.smpOf i).due = some tok → Completes (.matchUpdate i) s (fun t =>
       t.smpOf i = { s.smpOf i with
         due := none
         matches_ := (upTo 4).map (fun q => BitVec.ofNat 8 (matchNext (s.smpOf i).par q (((s.smpOf i).matches_.getD q 0).toNat) tok)) } ∧
       t = { s with smps := t.smps })) ∧
     (∀ (c : Nat) (b : Batch) (m : Member), c < 16 → s.batches.find? (fun b => b.ctx = c && b.released && !b.sampledAll) = some b →
       s.logitsPresent b = true → State.samplingOf b = [m] → b.replay = false → Completes (.samplerFinish c) s (fun t =>
         (∀ x ∈ t.batches, x.step = b.step → x.ctx = c → x.replay = false → x.sampledAll = true) ∧
         t = { s with
           batches := t.batches
           logits := (s.clearLogits c).logits
           freeCtr := s.freeCtr + 1
           smp := t.smp
           sampled := t.sampled
           entries := t.entries } ∧
         (match sample (s.smpOf m.idx).par (s.logitsOf c 0) (fun v => tabGet 0 (s.smpOf m.idx).counts v)
             (drawOf (smpSeed (s.smpOf m.idx).par) b.step) (Config.freeNat s.freeCtr % s.vocabOf c) with
           | .fault => t.smp = { s.smp with faults := satAdd s.smp.faults 1 } ∧ t.sampled = s.sampled ∧
             t.entry m.idx = { s.entry m.idx with stepFault := if (s.entry m.idx).stepFault = 0 then 4 else (s.entry m.idx).stepFault } ∧
             (∀ j, j ≠ m.idx → t.entry j = s.entry j)
           | .token tok lp _ => t.smp = { s.smp with draws := s.smp.draws + 1 } ∧
             t.sampled = s.sampled ++ [⟨b.step, m.idx, tok, BitVec.ofNat 32 lp, 0⟩] ∧ t.entries = s.entries)))) ∧
  (∀ (s : State) (c written : Nat), c < 16 →
     (∀ (b : Batch) (m : Member), s.batches.find? (fun b => b.ctx = c && b.sampledAll && !b.swept && !b.replay) = some b → b.members = [m] →
       Completes (.commitSweep ⟨c, written⟩) s (fun t =>
         let e := s.entry m.idx
         let u := t.entry m.idx
         (∀ x ∈ t.batches, x.step = b.step → x.ctx = c → x.replay = false → x.swept = true) ∧ u.inFlight = false ∧
         (∀ j, j ≠ m.idx → t.entry j = s.entry j) ∧
         (if e.cancelPend then u.st = .cancelled ∧ u.length = e.length
         else if e.stepFault ≠ 0 ∨ s.badInput c m = true then
           u.st = .faulted ∧ u.fault = (if e.stepFault ≠ 0 then e.stepFault else 2) ∧ u.length = e.length
         else if s.deadlinePassed e then u.st = .expired ∧ u.length = e.length
         else if m.samples = false then u.length = BitVec.ofNat 21 (e.length.toNat + m.toks.length) ∧ u.nextValid = e.nextValid ∧
           u.next = e.next ∧ u.commits = e.commits
         else match s.sampled.find? (fun v => v.step = b.step && v.idx = m.idx) with
           | none => u.st = .faulted ∧ u.fault = 4 ∧ u.length = e.length
           | some v => u.length = BitVec.ofNat 21 (e.length.toNat + m.toks.length) ∧ u.nextValid = true ∧ u.next = BitVec.ofNat 20 v.token ∧
             u.commits = e.commits + 1))) ∧
     (∀ b rest, s.noticesDue = (c, b) :: rest → Completes .noticeWrite s (fun t =>
       t = ((upTo 4).filter (fun m => (s.spn m).opCtx.getLsbD c)).foldl (fun u m => u.putNotice m b) { s with noticesDue := rest })) ∧
     (∀ r a, s.recorder.due = [r] → s.recorder.armed.find? (fun a => a.1 = r.idx) = some a →
       (upTo 8).map (fun k => r.ranges.getD k 0) = a.2 →
       let l := layRecords s.ringUnits s.recorder.tail.toNat [s.stepBody r]
       let n := (l.map (fun x => recUnits x.2)).foldl (· + ·) 0
       (s.ringUsed + n ≤ s.ringUnits - 1 → Completes .recorderWrite s (fun t =>
         t.hbm = ((l.mapIdx (fun k x => (k, x))).foldl (fun (u : State) kx =>
           u.hbmWrite 1 (State.ringBase + 64 * kx.2.1) (recImage (s.recorder.seqno.toNat + kx.1) kx.2.2)) s).hbm ∧
         t.recorder.due = [] ∧ t.recorder.tail = BitVec.ofNat 22 ((s.recorder.tail.toNat + n) % s.ringUnits) ∧
         t.recorder.seqno = s.recorder.seqno + BitVec.ofNat 32 l.length ∧ t.recorder.armed.map (·.1) = s.recorder.armed.map (·.1) ∧
         t = { s with
           hbm := t.hbm
           recorder := t.recorder })) ∧
       (s.ringUnits - 1 < s.ringUsed + n → Completes .recorderWrite s (fun t =>
         t.recorder.due = [] ∧ t.recorder.ovf = true ∧ t.recorder.dropped = satAdd s.recorder.dropped 1 ∧ t.recorder.tail = s.recorder.tail ∧
         (∀ x ∈ t.recorder.armed, x.1 ≠ r.idx) ∧ t = { s with recorder := t.recorder }))))

/-! Pages, prefixes, reels (chapters 11 and 13). -/

/-- R233, R308 to R310, R463: while requests to host memory may be sent, the next queued record of a reel that is not stopped is written into
its slot, behind a TAIL that was owed, and TAIL again after the last one; a record that fails stops the reel, and all that was queued is
held. A read of HEAD, ordered, polled or by a kick, sets it, and records held are queued as far as there is room; a failed read keeps it.
After each, the sequence parks where its reel lacks room for two records or holds one, and returns where it does not. A read of the sampler
record copies it and answers its first word. The model's own choices in it: log entry 39. -/
def Obligations.ReelsAreWritten : Prop :=
  ∀ (s : State) (i : Nat), i < 131072 → s.reelMay = true →
    let r := s.reel i
    let e := s.entry i
    let short (x : Reel) : Bool := decide (reelRoom x < 2) || !x.held.isEmpty || decide (x.heldQ ≠ 0)
    let turn (t : State) : Prop :=
      (t.entry i).st = (if (e.st = .prefill ∨ e.st = .decode) ∧ e.inFlight = false ∧ short (t.reel i) = true then .parked
        else if e.st = .parked ∧ short (t.reel i) = false then e.prior else e.st) ∧ (∀ j, j ≠ i → t.entry j = s.entry j)
    let tail := Emit.hostWrite (e.reel.toNat + 24) (leBytes 4 (reelTail r).toNat)
    let read (h : W32) (t : State) : Prop :=
      let n := min (reelRoom { r with head := h }) r.held.length
      t.reel i = { r with
        readAt := s.now
        head := h
        queue := r.queue ++ r.held.take n
        heldQ := if n = 0 then r.heldQ else r.queue.length + n
        held := r.held.drop n } ∧ turn t
    (∀ b rest, r.stopped = false → r.queue = b :: rest →
      Completes (.reelRecordWrite i true true) s (fun t =>
        .hostWrite (r.base.toNat + (leNat (b.take 4) % r.size) * 32) b ∈ t.out ∧ (t.reel i).queue = rest ∧ (t.reel i).held = r.held ∧
        t.smp = { s.smp with records := s.smp.records + 1 } ∧ (r.tailOwed = true ∨ rest = [] → tail ∈ t.out) ∧ turn t) ∧
      (r.tailOwed = false → Completes (.reelRecordWrite i false true) s (fun t =>
        t.reel i = { r with
          queue := []
          held := r.queue ++ r.held
          heldQ := 0
          stopped := true } ∧
        t.smp = { s.smp with
          wrErr := true
          err := satAdd s.smp.err 1 } ∧ turn t ∧
        t = { s with
          reels := t.reels
          entries := t.entries
          smp := t.smp }))) ∧
    (e.st ≠ .free → ∀ h : W32,
      Completes (.reelHeadRead i (some h)) s (read h) ∧
      (s.smp.pollUs ≠ 0 → (e.st = .parked ∨ r.held ≠ []) → r.readAt + 100 * s.smp.pollUs.toNat ≤ s.now →
        Completes (.reelPoll i (some h)) s (read h)) ∧
      Completes (.reelHeadRead i none) s (fun t => read r.head t ∧ t.smp = { s.smp with headErr := true })) ∧
    (s.hostMay = true → ∀ (handle h : W32),
      (s.byHandle handle = some i → Completes (.reelKick handle (some h) true) s (fun t =>
        (t.reel i).stopped = false ∧ (t.reel i).head = h ∧ (t.reel i).tailOwed = false ∧
        (t.reel i).queue ++ (t.reel i).held = r.queue ++ r.held ∧ (r.tailOwed = true → tail ∈ t.out) ∧ turn t)) ∧
      (s.byHandle handle = none → Completes (.reelKick handle (some h) true) s (fun t =>
        t = { s with smp := { s.smp with kickRej := true } }))) ∧
    (s.hostReads = true → Completes .smpRecRead s (fun t =>
      let ws := wordsOf 32 (smpStored (s.smpOf s.seq.sel.toNat))
      t = { s with
        smp := { s.smp with copy := ws }
        out := s.out ++ [.completion true (ws.getD 0 0).toNat] }))

/-- R247, R260, R262, R268: a copy-on-write copy that ends leaves the slots below LENGTH in the new page and zeros above. A deferred frame is
zeroed and returns to the pool, LOST where it was, once no step at or before its tag is in flight, and not before. A displaced frame that no
step in flight pins moves to a free frame of its stack, where there is one, with its contents and every table entry that names it. The
model's own choices in it: log entry 9. -/
def Obligations.PagesMove : Prop :=
  (∀ (s : State) (p q n : Nat) (rest : List (Nat × Nat × Nat)), s.kv.copying = (p, q, n) :: rest → n ≤ 64 →
    Completes .pageCopyComplete s (fun t =>
      (∀ j, j < 32768 → t.hbmByte (pageStack q) (State.frameAddr (pageFrame q) + j) =
        if j < 512 * n then s.hbmByte (pageStack p) (State.frameAddr (pageFrame p) + j) else 0) ∧
      t = { s with
        hbm := t.hbm
        kv := { s.kv with copying := rest } })) ∧
  (∀ (s : State) (p : Nat), p < 33554432 → (s.pdesc p).defer = true →
    ((∀ b ∈ s.batches ++ s.rolled, b.swept = false → State.stepReached (s.pdesc p).tag.toNat b.step = false) →
      Completes (.deferredFree p) s (fun t =>
        t.pdesc p = { lost := (s.pdesc p).lost } ∧ (∀ q, q ≠ p → t.pdesc q = s.pdesc q) ∧
        (∀ j, j < 32768 → t.hbmByte (pageStack p) (State.frameAddr (pageFrame p) + j) = 0) ∧
        t = { s with
          pdescs := t.pdescs
          hbm := t.hbm })) ∧
    ((∃ b ∈ s.batches ++ s.rolled, b.swept = false ∧ State.stepReached (s.pdesc p).tag.toNat b.step = true) →
      Completes (.deferredFree p) s (fun t => t = s))) ∧
  (∀ (s : State) (p : Nat), p < 33554432 → s.frameDisplaced p = true → s.pinned p = false →
    let took := s.takeFrame (pageStack p) (s.pdesc p).ctx.toNat (s.pdesc p).refs.toNat (s.pdesc p).ro
    Completes (.frameMove p) s (fun t =>
      match took.1 with
      | some q => t.pdesc p = { lost := (s.pdesc p).lost } ∧ (t.pdesc q).inuse = true ∧ (t.pdesc q).refs = (s.pdesc p).refs ∧
        (∀ j, j < 32768 → t.hbmByte (pageStack q) (State.frameAddr (pageFrame q) + j) =
          s.hbmByte (pageStack p) (State.frameAddr (pageFrame p) + j)) ∧
        (∀ i e, s.tblPage i e = some p → t.tblPage i e = some q) ∧
        t = { s with
          freeCtr := s.freeCtr + 1
          pdescs := t.pdescs
          tables := t.tables
          prefixes := t.prefixes
          hbm := t.hbm }
      | none => t = { s with freeCtr := s.freeCtr + 1 }))

/-- R150, R248, R257, R271, R294, Table 11.2: a prefix LOAD or CLEAR that nothing refuses waits while a SUBMIT names its slot, and else empties
the slot: CLEAR has then ended, and LOAD reads the image where its pages can be reserved, or ends with NO_PAGES. The image read fills the
slot where its check values pass and the frames are there. A command refused leaves the slots alone. KV_HOST_BASE and KV_HOST_PAGES are
written while no host frame is in use. APPLY and FETCH move the eight range words to and from the entry that XR_HANDLE names, and complete
with a status. The model's own choices in it: log entries 9 and 107. -/
def Obligations.PrefixesAndRanges : Prop :=
  ∀ s : State,
    (s.hostMay = true → s.pfxRefusal = none →
      let c := s.kv.pfxSelCtx.toNat
      let x := s.kv.pfxSelSlot.toNat
      let emptied (t : State) : Prop := (t.pfx c x).loaded = false ∧ (t.pfx c x).pages = [] ∧ (t.pfx c x).users = (s.pfx c x).users ∧
        t.entries = s.entries ∧ t.tables = s.tables
      (∀ len, len < 8192 → 0 < len → len ≤ 64 * s.prefixPages c →
        (s.pfxNamed c x = false → Completes (.pfxLoad len) s (fun t =>
          emptied t ∧ t.kv.pfxCmd = 1 ∧
          if (s.pfxFree c x).fitsPrefix c (s.rowNeed c (pagesFor len)) then t.kv.pfxJob = some ⟨c, x, len, s.kv.pfxSrc, false, false⟩
          else t.kv.pfxJob = none ∧ t.kv.pfxStatus = sNoPages)) ∧
        (s.pfxNamed c x = true → Completes (.pfxLoad len) s (fun t =>
          t = { s with kv := { s.kv with
            pfxCmd := 1
            pfxJob := some ⟨c, x, len, s.kv.pfxSrc, true, false⟩ } }))) ∧
      (∀ len, len < 8192 → (len = 0 ∨ 64 * s.prefixPages c < len) → Completes (.pfxLoad len) s (fun t =>
        t.kv = { s.kv with
          pfxCmd := 1
          pfxStatus := sPfxTooLong } ∧ t.prefixes = s.prefixes)) ∧
      (s.pfxNamed c x = false → Completes .pfxClear s (fun t =>
        emptied t ∧ t.kv = { s.kv with
          pfxCmd := 2
          pfxStatus := sOK
          pfxJob := none })) ∧
      (s.pfxNamed c x = true → Completes .pfxClear s (fun t =>
        t = { s with kv := { s.kv with
          pfxCmd := 2
          pfxJob := some ⟨c, x, 0, 0, true, true⟩ } }))) ∧
    (∀ st, s.hostMay = true → s.pfxRefusal = some st →
      (∀ len, len < 8192 → Completes (.pfxLoad len) s (fun t =>
        t.kv = { s.kv with
          pfxCmd := 1
          pfxStatus := st } ∧ t.prefixes = s.prefixes)) ∧
      Completes .pfxClear s (fun t =>
        t.kv = { s.kv with
          pfxCmd := 2
          pfxStatus := st } ∧ t.prefixes = s.prefixes)) ∧
    (∀ j, s.kv.pfxJob = some j → j.held = false →
      let ended (st : Byte) (t : State) : Prop := t.kv.pfxJob = none ∧ t.kv.pfxStatus = st ∧ t.prefixes = s.prefixes ∧ t.pdescs = s.pdescs
      let n := s.layerCount j.ctx * pagesFor j.len
      Completes (.pfxLoadComplete none) s (ended sBadImage) ∧
      (∀ l, checksPass l (n * 32768) = false → Completes (.pfxLoadComplete (some l)) s (ended sBadImage)) ∧
      (∀ l, checksPass l (n * 32768) = true → s.fitsPrefix j.ctx (s.rowNeed j.ctx (pagesFor j.len)) = false →
        Completes (.pfxLoadComplete (some l)) s (ended sNoPages)) ∧
      (∀ l, checksPass l (n * 32768) = true → s.fitsPrefix j.ctx (s.rowNeed j.ctx (pagesFor j.len)) = true →
        Completes (.pfxLoadComplete (some l)) s (fun t => t.kv.pfxJob = none ∧ t.kv.pfxStatus = sOK ∧
          (t.pfx j.ctx j.slot).loaded = true ∧ (t.pfx j.ctx j.slot).length = j.len ∧ (t.pfx j.ctx j.slot).users = 0))) ∧
    (∀ v : W64, s.hostMay = true →
      (s.hostUsed = 0 → Completes (.kvHostBaseWrite false v) s (fun t => t = { s with kv := { s.kv with hostBase := v &&& ~~~0xFFF } }) ∧
        Completes (.kvHostBaseWrite true v) s (fun t => t = { s with kv := { s.kv with hostPages := BitVec.ofNat 25 v.toNat } })) ∧
      (0 < s.hostUsed → ∀ pages, Completes (.kvHostBaseWrite pages v) s (fun t => t = { s with kv := { s.kv with wrRej := true } }))) ∧
    (s.hostMay = true →
      let done (x : XRegs) (t : State) : Prop :=
        t.xregs = x ∧ t = { s with
          xregs := x
          xrs := t.xrs
          genCause := s.genCause ||| BitVec.ofNat 11 (2 ^ gSeqx)
          vecs := t.vecs
          out := t.out }
      (∀ i, s.byHandle s.xregs.handle = some i →
        (s.xregs.ranges.any State.badRange = false → Completes .apply s (fun t =>
          t.xr i = { s.xr i with ranges := s.xregs.ranges } ∧ (∀ j, j ≠ i → t.xr j = s.xr j) ∧
          done { s.xregs with
            cmdLast := 1
            status := sOK } t)) ∧
        (s.xregs.ranges.any State.badRange = true → Completes .apply s (fun t => t.xrs = s.xrs ∧
          done { s.xregs with
            cmdLast := 1
            status := sBadRange } t)) ∧
        Completes .fetch s (fun t => t.xrs = s.xrs ∧
          done { s.xregs with
            cmdLast := 2
            status := sOK
            ranges := (s.xr i).ranges } t)) ∧
      (s.byHandle s.xregs.handle = none →
        Completes .apply s (fun t => t.xrs = s.xrs ∧
          done { s.xregs with
            cmdLast := 1
            status := sBadHandle } t) ∧
        Completes .fetch s (fun t => t.xrs = s.xrs ∧
          done { s.xregs with
            cmdLast := 2
            status := sBadHandle } t)))

/-! Spindles (chapter 12). -/

/-- R287, R249, R304, Table 12.3: what each Krawyn instruction of a running spindle does: its result goes to rd (x0 stays zero), the pc goes on
by 4, and nothing else changes but the bytes and events named here. KW.WAITEV takes the pending events of its mask, an operator spindle 4
and 5 only, or leaves the spindle waiting. KW.PGWALK and KW.SIGNAL are illegal in the operator partition: they halt it and record the cause
(R291). On a firmware spindle KW.KECCAK with rd not x0 and an address not 8-byte aligned raise an exception (the codes: log entry 62). The
model's own choices in it: log entries 62, 63 and 128. -/
def Obligations.KrawynInstructions : Prop :=
  ∀ (s : State) (m i rd rs1 rs2 : Nat), m < 4 → i < 128 → rd < 32 → rs1 < 32 → rs2 < 32 → s.engineRuns m = true → s.spindleRuns m i = true →
    let x := s.spindle m i
    let a := (State.reg x rs1).toNat
    let at_ (n j : Nat) (t : State) : Prop := ∀ k l, k * 128 + l ≠ n * 128 + j → t.spindle k l = s.spindle k l
    let went (t : State) (r : Nat) (v : W64) : Prop := t.spindle m i = State.setReg { x with pc := x.pc + 4 } r v ∧ at_ m i t
    let trap (cause : Nat) (t : State) : Prop :=
      t.spindle m i = { x with
        mepc := x.pc
        mcause := BitVec.ofNat 64 cause
        csrs := tabSet 0 x.csrs 0x300 (State.trapStatus x)
        user := false
        pc := x.mtvec &&& ~~~3 } ∧ at_ m i t ∧ t = { s with spindles := t.spindles }
    let halted (t : State) : Prop :=
      t.spn m = { s.spn m with
        opState := 2
        trapSpindle := BitVec.ofNat 7 i
        trapValid := true
        trapCause := 2
        trapPc := x.pc.setWidth 48 } ∧ (∀ k, k ≠ m → t.spn k = s.spn k) ∧ t.spindles = s.spindles
    Completes (.kwCrc32c m i rd rs1 rs2) s (fun t =>
      went t rd (BitVec.ofNat 64 (crc32cRun (a % 2 ^ 32) (leBytes 8 (State.reg x rs2).toNat))) ∧ t = { s with spindles := t.spindles }) ∧
    (a % 8 = 0 → (s.isOperator m i = true → State.inRegion m a 14 = true) → (∀ j, j < 14 → (s.spindleByte m i (a + j)).isSome = true) →
      ∀ ext, Completes (.kwTwist m i rd rs1 rs2 ext) s (fun t =>
        let b := (upTo 14).map (fun j => (s.spindleByte m i (a + j)).getD 0)
        went t rd (twist (BitVec.ofNat 64 (leAt b 0 8)) (BitVec.ofNat 48 (leAt b 8 6)) (State.reg x rs2)) ∧ t = { s with spindles := t.spindles })) ∧
    (s.isOperator m i = false →
      Completes (.kwPgwalk m i rd rs1 rs2) s (fun t =>
        went t rd (match s.tblPage (a % 131072) (State.reg x rs2).toNat with
          | some p => BitVec.ofNat 64 (2 ^ 31 + p)
          | none => 0) ∧ t = { s with spindles := t.spindles }) ∧
      (a < 128 → (State.reg x rs2).toNat < 64 → Completes (.kwSignal m i rs1 rs2) s (fun t =>
        let before (k : Nat) : Spindle := if k = i then { x with pc := x.pc + 4 } else s.spindle m k
        let y := { before a with events := (before a).events ||| BitVec.ofNat 64 (2 ^ (State.reg x rs2).toNat) }
        t.spindle m a = (if s.isOperator m a = true ∧ (s.spn m).opState ≠ 1 then y else State.wake y) ∧
        (∀ k, k < 128 → k ≠ a → t.spindle m k = before k) ∧ (∀ n k, n ≠ m → k < 128 → t.spindle n k = s.spindle n k) ∧
        t = { s with spindles := t.spindles })) ∧
      (rd ≠ 0 → Completes (.kwKeccak m i rd rs1) s (trap 2)) ∧
      (a % 8 ≠ 0 → Completes (.kwKeccak m i 0 rs1) s (trap 6) ∧ ∀ ext, Completes (.kwTwist m i rd rs1 rs2 ext) s (trap 4))) ∧
    (s.isOperator m i = true → Completes (.kwPgwalk m i rd rs1 rs2) s halted ∧ Completes (.kwSignal m i rs1 rs2) s halted) ∧
    Completes (.kwWaitev m i rd rs1) s (fun t =>
      t.spindle m i = State.wake { x with
        waiting := some (rd, if s.isOperator m i then State.reg x rs1 &&& 0x30 else State.reg x rs1) } ∧ at_ m i t ∧
      t.spn m = { s.spn m with expired := (s.spn m).expired.filter (· ≠ i) } ∧ (∀ k, k ≠ m → t.spn k = s.spn k) ∧
      t = { s with
        spindles := t.spindles
        spns := t.spns }) ∧
    (a % 8 = 0 → ((s.isOperator m i = false ∧ a + 200 ≤ 262144) ∨ State.inRegion m a 200 = true) →
      Completes (.kwKeccak m i 0 rs1) s (fun t =>
        let w := (upTo 25).map (fun k => BitVec.ofNat 64 (leNat ((upTo 8).map (fun j => (s.spindleByte m i (a + 8 * k + j)).getD 0))))
        went t 0 0 ∧
        (∀ j, j < 200 → t.spindleByte m i (a + j) = some (((keccakF w).flatMap (fun v => leBytes 8 v.toNat)).getD j 0)) ∧
        (∀ b, (b < a ∨ a + 200 ≤ b) → t.spindleByte m i b = s.spindleByte m i b) ∧
        t = { s with
          spindles := t.spindles
          scratch := t.scratch
          hbm := t.hbm }))

/-- R287, R290 to R292, R391, Table 12.12: the clock raises event 4; a watchdog that expires resets its spindle, releases its cleats, gives its
task to another spindle of the partition, is counted and logged REPEATED, and halts the job the second time; OP_EN written 1 begins the
operator partition at its region, written 0 it ends it; a trap of an operator spindle halts the partition and records its cause, logged
DEGRADED; an ecall returns in a0, after SET_PRIORITY set the priority, or CANCEL cancelled, of the entry that its handle names, or with the
status of a handle that names none or is denied; a CANCEL of a step in flight returns at its commit point; NOTIFY fills mailbox 15, or finds
it taken. The model's own choices in it: log entries 61, 62, 104 and 132. -/
def Obligations.SpindleEvents : Prop :=
  ∀ (s : State) (m i : Nat), m < 4 → i < 128 → s.engineRuns m = true →
    let x := s.spindle m i
    let others (t : State) : Prop := ∀ k l, k * 128 + l ≠ m * 128 + i → t.spindle k l = s.spindle k l
    let went (st : Byte) (t : State) : Prop :=
      t.spindle m i = State.setReg { x with
        pc := x.pc + 4
        ecall := false } 10 (st.setWidth 64) ∧ others t
    Completes (.timeCompare m i) s (fun t =>
      let y := { x with events := x.events ||| 0x10 }
      t.spindle m i = (if s.isOperator m i = true ∧ (s.spn m).opState ≠ 1 then y else State.wake y) ∧ others t ∧
      t = { s with spindles := t.spindles }) ∧
    (∀ heir, heir < 128 → heir ≠ i → s.isOperator m heir = false → s.isOperator m i = false → (s.spn m).fwLive ≠ 0 →
      let left := (s.spn m).expired.filter (· ≠ i)
      let reset (t : State) (e : List Nat) : Prop := t.spindle m i = {} ∧ others t ∧
        t.spn m = { s.spn m with
          wdog := satAdd (s.spn m).wdog 1
          expired := e } ∧ (∀ k, k ≠ m → t.spn k = s.spn k) ∧
        (∀ k, k < 24 → t.mbx k = if (s.mbx k).owner.toNat = 64 + 128 * m + i then { s.mbx k with owner := 0 } else s.mbx k)
      (i ∉ (s.spn m).expired →
        Completes (.spindleWatchdog m i ⟨heir, none⟩) s (fun t => reset t (heir :: left) ∧
          t = { s with
            spindles := t.spindles
            spns := t.spns
            mbxs := t.mbxs
            integ := (s.logOnly .repeated {
              typ := tWatchdog
              source := m
              detail := i + m <<< 8 }).integ })) ∧
      (i ∈ (s.spn m).expired → s.integ.phase = 0 → s.integ.jobState ≠ 5 → Completes (.spindleWatchdog m i ⟨heir, none⟩) s (fun t =>
        reset t left ∧ t.integ.phase = 1))) ∧
    (∀ v : W32, s.hostMay = true → Completes (.mastSpnCtlWrite m v) s (fun t =>
      let y := s.spn m
      let en := v.getLsbD 31
      let begins := en = true ∧ y.opEn = false
      let ends := en = false ∧ y.opEn = true
      let count := if y.opEn then y.opCount else v.extractLsb' 16 5
      let n := min 16 count.toNat
      t.spn m = { y with
        opEn := en
        opCount := count
        opCtx := v.extractLsb' 0 16
        opState := if begins then 1 else if ends then 0 else y.opState
        dropped := if begins then 0 else y.dropped
        trapValid := if begins then false else y.trapValid
        fwLive := if y.fwLive = 0 then 0 else BitVec.ofNat 8 (128 - (if en then n else 0)) } ∧
      (∀ k, k ≠ m → t.spn k = s.spn k) ∧
      (∀ k, k < 128 → t.spindle m k =
        if begins ∧ 128 - n ≤ k then {
          pc := BitVec.ofNat 64 (State.opBase m)
          user := true }
        else if ends ∧ 128 - n ≤ k then {}
        else s.spindle m k) ∧
      (∀ k l, k ≠ m → l < 128 → t.spindle k l = s.spindle k l) ∧
      t.entries = (if begins ∨ ends then (s.dropEcalls m).entries else s.entries) ∧
      t = { s with
        spns := t.spns
        spindles := t.spindles
        entries := t.entries })) ∧
    (s.isOperator m i = true → (s.spn m).opState = 1 → ∀ (cause : Byte) (pc : W64), Completes (.operatorTrap m i cause pc) s (fun t =>
      t.spn m = { s.spn m with
        opState := 2
        trapSpindle := BitVec.ofNat 7 i
        trapValid := true
        trapCause := cause
        trapPc := pc.setWidth 48 } ∧ (∀ k, k ≠ m → t.spn k = s.spn k) ∧
      t = { s with
        spns := t.spns
        integ := (s.logOnly .degraded {
          typ := tOperator
          source := m
          detail := State.trapWord (t.spn m) }).integ
        vecs := t.vecs
        out := t.out
        entries := (s.dropEcalls m).entries })) ∧
    (s.mayEcall m i = true →
      (∀ k, s.ecallEntry m i = .ok k →
        let e := s.entry k
        Completes (.ecallSetPriority m i) s (fun t =>
          t.entry k = { e with priority := BitVec.ofNat 3 ((State.reg x 11).toNat % 8) } ∧ (∀ j, j ≠ k → t.entry j = s.entry j) ∧ went sOK t ∧
          t = { s with
            entries := t.entries
            spindles := t.spindles }) ∧
        ((e.st = .prefill ∨ e.st = .decode) → e.inFlight = false → Completes (.ecallCancel m i) s (fun t =>
          t.entry k = { e with
            st := .cancelled
            pendRec := (t.entry k).pendRec } ∧ (∀ j, j ≠ k → t.entry j = s.entry j) ∧ went sOK t)) ∧
        ((e.st = .prefill ∨ e.st = .decode) → e.inFlight = true → Completes (.ecallCancel m i) s (fun t =>
          (t.entry k).cancelPend = true ∧ (t.entry k).st = e.st ∧ (∀ j, j ≠ k → t.entry j = s.entry j) ∧
          t.spindle m i = { x with ecall := true } ∧ others t ∧
          t = { s with
            entries := t.entries
            spindles := t.spindles }))) ∧
      (∀ e, s.ecallEntry m i = .error e →
        (∀ c ∈ [Instr.ecallSetPriority m i, Instr.ecallCancel m i], Completes c s (fun t => went e t ∧ t = { s with spindles := t.spindles }))) ∧
      Completes (.notify m i) s (fun t =>
        let taken := (s.mbx 15).full = true ∨ (s.mbx 15).held ≠ []
        went (if taken then sMbxFull else sOK) t ∧ (∀ k, k ≠ 15 → t.mbx k = s.mbx k) ∧
        (taken → t.mbx 15 = { s.mbx 15 with dropped := satAdd (s.mbx 15).dropped 1 }) ∧
        (¬taken → s.link.st = 2 → t.mbx 15 = { s.mbx 15 with
          addr := BitVec.ofNat 64 (2 * m * 268435456) + State.reg x 10
          len := 0x80000000 ||| ((State.reg x 11).setWidth 32 &&& 0x0FFFFFFF)
          seq := (s.mbx 15).seq + 1
          full := true } ∧ .notice 15 [] ∈ t.out) ∧
        (¬taken → s.link.st ≠ 2 → (t.mbx 15).full = false ∧ (t.mbx 15).held.length = 1) ∧
        t = { s with
          mbxs := t.mbxs
          spindles := t.spindles
          vecs := t.vecs
          out := t.out }))

/-! Integrity, the recorder, replay (chapters 14 and 15). -/

/-- R325 to R327, R336, R463: INT_LOG_HEAD gives up the records before it; a read of word 0 copies the selected record, or zeros where none is
held, and answers its first word. A round ends once its cell part has completed: with no bound image, and with one whose shard's digest is
the manifest's, it is counted and its report written where a buffer is set; a shard whose digest differs takes its image's binding away,
stops its context, and is counted and logged. The model's own choices in it: log entry 56. -/
def Obligations.LogAndDigestRounds : Prop :=
  ∀ s : State,
    (s.hostMay = true → ∀ v : W32, Completes (.intLogHeadWrite v) s (fun t =>
      t = { s with integ := { s.integ with
        head := v
        log := s.integ.log.filter (fun r => !later 32 v.toNat r.seqno.toNat) } })) ∧
    (s.hostReads = true → Completes .intLogDataRead s (fun t =>
      let copy : List W64 := match s.integ.log.find? (fun r => r.seqno = s.integ.sel) with
        | some r => (upTo 4).map (fun w => BitVec.ofNat 64 (leAt (State.recBytes r) (8 * w) 8))
        | none => [0, 0, 0, 0]
      t = { s with
        integ := { s.integ with copy := copy }
        out := s.out ++ [.completion true (copy.getD 0 0).toNat] })) ∧
    (∀ r, s.integ.round = some r → s.cellsDone r = true → s.integ.roundDue = false →
      let ended (n : Nat) (body : List Byte) (u t : State) : Prop :=
        let report := [0x4B, 0x57, 0x44, 0x52] ++ leBytes 4 s.integ.digRounds.toNat ++ leBytes 8 r.step ++ leBytes 4 n ++ leBytes 4 r.fails ++
          List.replicate 40 0 ++ body
        t = { u with
          integ := { u.integ with
            round := none
            digBusy := false
            digRounds := s.integ.digRounds + 1 }
          out := u.out ++ (if s.integ.digBuf = 0 then [] else [.hostWrite s.integ.digBuf.toNat report]) }
      (s.boundShards = [] → Completes (.digestRoundEnd [] []) s (ended 0 [] s)) ∧
      ∀ c k x, s.boundShards = [(c, k, x)] →
        let d := shakeDigest (s.shardBytes c x)
        let body (flags : Byte) := leBytes 1 c ++ [flags] ++ [0, 0] ++ leBytes 4 k ++ List.replicate 8 0 ++ d ++ List.replicate 16 0
        (d = x.digest → Completes (.digestRoundEnd [] []) s (ended 1 (body 1) s)) ∧
        (d ≠ x.digest → s.integ.phase = 0 → s.devFatal = false → Completes (.digestRoundEnd [] []) s (fun t =>
          t.ctx c = { s.ctx c with
            bound := false
            st := if (s.ctx c).st = .running then .draining else (s.ctx c).st } ∧ (∀ j, j ≠ c → t.ctx j = s.ctx j) ∧
          t.integ.digFails = satAdd s.integ.digFails 1 ∧ t.integ.tail = s.integ.tail + 1 ∧
          t.integ.ctxFatal = s.integ.ctxFatal ||| BitVec.ofNat 16 (2 ^ c) ∧
          ∃ u : State, ended 1 (body 2) u t ∧ u = { s with
            ctxs := t.ctxs
            integ := u.integ
            vecs := u.vecs
            out := u.out })))

/-- R318, R319, R329, R338, R339, R341: a word of a hop that fails when sent again halts the device: the epoch is the next one, no batch is in
flight, streams, accumulators and inboxes are given up, and every sequence in flight becomes RESTARTING; a word that passes then, and a bit
that ECC corrects, is logged CORRECTED and halts nothing. A JOB_HALT of a later epoch halts the device at that epoch; one of the present
epoch is merged with the halt in progress, halts a running device where its REASON is DEVICE, and is else ignored; one of an earlier epoch
is counted and ignored. With REASON DEVICE a halt has lost its source for good. R340, R342, R372, Table 14.8: with nothing to rewrite,
VERIFY ends at once: a rank other than 0 stands in READY, the coordinator of a job of one resumes. The coordinator counts RESTART_READYs of
its epoch, resumes when it stands in READY, holds every rank's and has lost no member, and answers one that comes after it has resumed;
RESUME of the epoch ends the halt of a device in READY that has lost no member, and another is ignored. JOB_TMO milliseconds without it log
the event once; RESTART_READY and JOB_HALT are sent again after 1 ms. The model's own choices in it: log entries 54, 55, 125 and 138. -/
def Obligations.JobHaltsAndRestarts : Prop :=
  (∀ s : State, s.devFatal = false →
     let halts (t : State) : Prop := t.integ.phase = 1 ∧ t.batches = [] ∧ t.beatOn = false ∧ t.inboxes = [] ∧ t.logits = [] ∧
       (∀ i, (s.entry i).st ≠ .free → t.entry i = State.restartEntry (s.entry i)) ∧ (∀ m, (t.stream m).busy = false) ∧
       (∀ m n, (t.acc m n).bound = false) ∧ t.arrs = s.arrs ∧ t.hbm = s.hbm
     (∀ n again, okFound (.hop n again) = true →
       let i : State.RecInfo := {
         typ := tHopParity
         source := if n < 1024 then n / 256 else 4
         detail := n }
       (again = true → s.integ.phase = 0 → Completes (.jobHalt (some (.hop n again))) s (fun t =>
         halts t ∧ t.integ.epoch = s.integ.epoch + 1 ∧ t.integ.haltReason = 1 ∧ t.integ.haltSrc = s.deviceId ∧
         t.integ.tail = s.integ.tail + 1 ∧ t.integ.jobState = (if s.integ.jobState = 4 then 4 else 1))) ∧
       (again = false → Completes (.jobHalt (some (.hop n again))) s (fun t =>
         t = { s with integ := (s.countCorrected.logOnly .corrected i).integ } ∧ t.integ.corrected = s.integ.corrected + 1 ∧
         t.integ.tail = s.integ.tail + 1))) ∧
     (∀ memory source addr, okFound (.single memory source addr) = true → memory ≠ 2 → memory ≠ 3 →
       Completes (.jobHalt (some (.single memory source addr))) s (fun t =>
         t.integ.tail = s.integ.tail + 1 ∧ t = { s with integ := (s.logOnly .corrected {
           typ := tMemoryEcc
           source := source
           detail := (memory <<< 60) + addr }).integ })) ∧
     ∀ q u, s.takePkt pkHalt = some (q, u) →
       (later 32 q.flow.toNat s.integ.epoch.toNat = true → Completes (.jobHalt none) s (fun t =>
         halts t ∧ t.integ.epoch = q.flow ∧ t.integ.haltSrc = q.src ∧ t.integ.tail = s.integ.tail + 1 ∧
         (q.reason = 2 → t.integ.jobState = 4 ∧ t.integ.lostDev = BitVec.ofNat 17 q.src ∧ t.integ.haltReason = 2))) ∧
       (q.flow = s.integ.epoch → s.integ.phase ≠ 0 → Completes (.jobHalt none) s (fun t =>
         t.integ = (if q.reason = 2 then { s.integ with
             jobState := 4
             lostDev := BitVec.ofNat 17 q.src
             haltReason := 2 }
           else s.integ) ∧
         t = { u with
           integ := t.integ
           rig := t.rig })) ∧
       (q.flow = s.integ.epoch → s.integ.phase = 0 → q.reason ≠ 2 → Completes (.jobHalt none) s (fun t => t = u)) ∧
       (q.flow = s.integ.epoch → s.integ.phase = 0 → q.reason = 2 → Completes (.jobHalt none) s (fun t =>
         halts t ∧ t.integ.epoch = q.flow ∧ t.integ.jobState = 4 ∧ t.integ.lostDev = BitVec.ofNat 17 q.src ∧ t.integ.haltReason = 2)) ∧
       (later 32 q.flow.toNat s.integ.epoch.toNat = false → q.flow ≠ s.integ.epoch → Completes (.jobHalt none) s (fun t =>
         t = { u with integ := { s.integ with foreign := satAdd s.integ.foreign 1 } }))) ∧
  (∀ s : State, s.devFatal = false →
     (s.integ.phase = 1 → s.integ.owed = [] → (∀ m, m < 4 → s.verifyArrays m = []) →
       (s.jobRank ≠ 0 → Completes (.verifyComplete []) s (fun t =>
         t = { s with
           integ := { s.integ with
             phase := 3
             jobState := if s.integ.jobState = 4 then 4 else 3
             sentAt := s.now }
           rig := t.rig })) ∧
       (s.jobRank = 0 → s.jobSize = 1 → s.integ.haltReason ≠ 2 → Completes (.verifyComplete []) s (fun t =>
         t.integ.phase = 0 ∧ t.integ.jobState = 0 ∧ t.integ.verify = [] ∧ t.integ.epoch = s.integ.epoch))) ∧
     (∀ q u, s.takePkt pkReady = some (q, u) →
       (s.jobRank ≠ 0 ∨ q.flow ≠ s.integ.epoch → Completes .restartReady s (fun t => t = u)) ∧
       (∀ r, s.jobRank = 0 → q.flow = s.integ.epoch → s.rankOf q.src = some r →
         (s.integ.phase = 0 → Completes .restartReady s (fun t => t = { u with rig := t.rig })) ∧
         (s.integ.phase ≠ 0 → Completes .restartReady s (fun t =>
           let g := if s.integ.readys.contains r then s.integ.readys else r :: s.integ.readys
           if s.integ.phase = 3 ∧ s.integ.haltReason ≠ 2 ∧ (upTo s.jobSize).all (fun k => g.contains k) = true then
             t.integ.phase = 0 ∧ t.integ.jobState = 0 ∧ t.integ.epoch = s.integ.epoch
           else t = { u with integ := { s.integ with readys := g } })))) ∧
     (∀ q u, s.takePkt pkResume = some (q, u) →
       (q.flow = s.integ.epoch → s.integ.phase = 3 → s.integ.haltReason ≠ 2 → Completes .resumeMessage s (fun t =>
         t.integ.phase = 0 ∧ t.integ.jobState = 0 ∧ t.integ.epoch = s.integ.epoch)) ∧
       (q.flow ≠ s.integ.epoch ∨ s.integ.phase ≠ 3 ∨ s.integ.haltReason = 2 → Completes .resumeMessage s (fun t => t = u))) ∧
     (s.integ.phase ≠ 0 → s.integ.jobTmo ≠ 0 → s.integ.tmoDone = false → s.integ.haltTime + 100000 * s.integ.jobTmo.toNat ≤ s.now →
       Completes .restartTimeout s (fun t =>
         let v : State := { s with integ := { s.integ with
           restartTmo := true
           tmoDone := true
           jobState := 4 } }
         t = { s with
           integ := (v.logOnly .degraded {
             typ := tJobHalt
             detail := State.haltDetail s.integ.haltSrc s.integ.epoch.toNat s.integ.haltReason }).integ
           vecs := t.vecs
           out := t.out } ∧ t.integ.restartTmo = true ∧ t.integ.tmoDone = true ∧ t.integ.jobState = 4)) ∧
     (s.integ.phase = 3 → s.jobRank ≠ 0 → s.integ.sentAt + 100000 ≤ s.now → Completes .restartReadyResend s (fun t =>
       t = { s with
         integ := { s.integ with sentAt := s.now }
         rig := t.rig })) ∧
     (s.integ.phase ≠ 0 → s.jobRank = 0 → s.integ.sentAt + 100000 ≤ s.now → Completes .jobHaltResend s (fun t =>
       t = { s with
         integ := { s.integ with sentAt := s.now }
         rig := t.rig })))

/-- R345 to R347: a sequence that has not stepped is armed while the recorder is enabled, and its START record is written at TAIL where it does
not wrap; a late one is refused with REC_LATE, and without EN with REC_OFF. Disarming takes it away. Setting EN begins an empty ring,
clearing it disarms all; HEAD advances over what the ring holds, and no further. R353 to R356, Table 15.5: REPLAY of a chain of whole units
at an aligned address asks for it, and completes with BAD_CONFIG otherwise; the chain as read is refused with the first check's status, or
begins the replay with its results cleared, or completes it where it has no step to replay; each replayed step is counted and compared, and
the last one completes the replay, or an ABORT that waited for it ends it. An ABORT with no replay completes OK. The model's own choices in
it: log entries 57, 58 and 59. -/
def Obligations.RecorderAndReplay : Prop :=
  (∀ s : State, s.hostMay = true →
     (∀ (h : W32) (i : Nat), s.byHandle h = some i → s.recorder.en = true →
       (((s.entry i).st = .admitted ∨ (s.entry i).st = .prefill) → (s.entry i).inFlight = false → (s.entry i).commits = 0 →
         (s.entry i).length.toNat = (s.xr i).p0 → s.ringUsed + 11 ≤ s.ringUnits - 1 → Completes (.intRecArm h) s (fun t =>
           (i, List.replicate 8 0) ∈ t.recorder.armed ∧ t.recorder.armStatus = sOK ∧ t.recorder.armRej = s.recorder.armRej ∧
           t.recorder.seqno ≠ s.recorder.seqno ∧
           (s.recorder.tail.toNat + 6 ≤ s.ringUnits →
             t.hbmRead 1 (State.ringBase + 64 * s.recorder.tail.toNat) 5 = leBytes 4 s.recorder.seqno.toNat ++ [1]) ∧
           t = { s with
             recorder := t.recorder
             hbm := t.hbm })) ∧
       ((s.entry i).commits ≠ 0 → Completes (.intRecArm h) s (fun t =>
         t = { s with recorder := { s.recorder with
           armStatus := sRecLate
           armRej := true } }))) ∧
     (∀ h, s.recorder.en = false → Completes (.intRecArm h) s (fun t =>
       t = { s with recorder := { s.recorder with
         armStatus := sRecOff
         armRej := true } })) ∧
     (∀ h i, s.byHandle h = some i → Completes (.intRecDisarm h) s (fun t =>
       (∀ x ∈ t.recorder.armed, x.1 ≠ i) ∧ t.recorder.due = [] ∧
       t = { s with
         recorder := t.recorder
         hbm := t.hbm })) ∧
     (∀ v : W32,
       (v.getLsbD 31 = true → Completes (.intRecCtlWrite v) s (fun t =>
         t = { s with recorder := { s.recorder with
           en := true
           ctxAuto := v.extractLsb' 0 16
           tail := if s.recorder.en then s.recorder.tail else 0
           head := if s.recorder.en then s.recorder.head else 0 } })) ∧
       (v.getLsbD 31 = false → Completes (.intRecCtlWrite v) s (fun t =>
         t = { s with recorder := { s.recorder with
           en := false
           ctxAuto := v.extractLsb' 0 16
           armed := []
           due := [] } })) ∧
       Completes (.intRecHeadWrite v) s (fun t =>
         let h : BitVec 22 := v.extractLsb' 0 22
         let fits : Prop := h.toNat < s.ringUnits ∧ (h.toNat + s.ringUnits - s.recorder.head.toNat % s.ringUnits) % s.ringUnits ≤ s.ringUsed
         (fits → t = { s with recorder := { s.recorder with head := h } }) ∧ (¬fits → t = s)))) ∧
  (∀ s : State,
     (s.hostMay = true → s.rpl.reading = false → s.rpl.job = none →
       let fits : Prop := s.rpl.src.toNat % 4096 = 0 ∧ s.rpl.len.toNat % 64 = 0 ∧ 512 ≤ s.rpl.len.toNat ∧ s.rpl.len.toNat ≤ 1073741824
       let answered (code : BitVec 4) (st : Byte) (t : State) : Prop :=
         t.rpl = { s.rpl with
           cmdLast := code
           status := st } ∧
         t = { s with
           rpl := t.rpl
           genCause := t.genCause
           vecs := t.vecs
           out := t.out }
       (fits → Completes .replay s (fun t => t = { s with rpl := { s.rpl with
         cmdLast := 1
         reading := true
         readLen := s.rpl.len.toNat } })) ∧
       (¬fits → Completes .replay s (answered 1 sBadConfig)) ∧
       Completes .rplAbort s (answered 2 sOK)) ∧
     (∀ bytes, s.rpl.reading = true → Completes (.replayChainRead bytes) s (fun t => t.rpl.reading = false ∧ t.entries = s.entries ∧
       match s.replayCheck s.rpl.readLen bytes with
       | .error st => t.rpl = { s.rpl with
           status := st
           reading := false
           job := none }
       | .ok rs => t.rpl.diff = 0 ∧ t.rpl.steps = 0 ∧ t.rpl.first = none ∧ t.rpl.maxDlp = 0 ∧
         match chainSteps (List.replicate 8 0) false rs with
         | [] => t.rpl.status = sOK ∧ t.rpl.job = none
         | x :: l => t.rpl.job.map (·.steps) = some (x :: l) ∧ t.rpl.job.map (·.ctx) = some (leAt (rs.headD []) 16 1))) ∧
     (∀ j, s.rpl.job = some j →
       (∀ b x rest, s.batches.find? (fun b => b.replay && b.sampledAll && !b.swept) = some b → j.steps = x :: rest →
         Completes .replayStepComplete s (fun t =>
           t.rpl.steps = s.rpl.steps + 1 ∧
           t.rpl.diff = (State.compareStep s.rpl x (s.sampled.find? (fun v => v.step = b.step && v.idx = rplKey))).diff ∧
           (∀ y ∈ t.batches, y.replay = true → y.swept = true) ∧ t.entries = s.entries ∧
           (if j.abort then t.rpl.job = none ∧ t.rpl.status = sRplAborted
           else if rest = [] then t.rpl.job = none ∧ t.rpl.status = sOK
           else t.rpl.job.map (·.steps) = some rest ∧ t.rpl.job.map (·.flight) = some false))) ∧
       (s.hostMay = true → Completes .rplAbort s (fun t =>
         (j.flight = true → t = { s with rpl := { s.rpl with
           cmdLast := 2
           job := some { j with abort := true } } }) ∧
         (j.flight = false → t.rpl.job = none ∧ t.rpl.status = sRplAborted ∧ ∀ b ∈ t.batches, b.replay = false)))))

/-! The rigging (chapter 16). -/

/-- R359, R361, Table 16.11: an UP halyard takes a frame in sequence, whose whole packets reach the switch; it passes over one out of sequence
and discards from one it cannot read on. Frames are sent again when no ACK comes for 2 µs; a lost lane, 10 µs without a frame, or RETRAIN
retrains it, and the eighth retrain within 1 s disables it, its packets given up and the event logged; training that ends in time with all
lanes makes it UP, the frames kept renumbered from 0, and any other end is a retrain; EN takes it down, and from OFF or DISABLED into
training. The model's own choices in it: log entry 49. -/
def Obligations.HalyardsTrainAndRun : Prop :=
  ∀ (s : State) (p : Nat), p < 32 →
    let x := s.port p
    let turned (y : Port) (t : State) : Prop := t.port p = y ∧ (∀ k, k ≠ p → t.port k = s.port k) ∧
      t = { s with
        ports := t.ports
        genCause := t.genCause
        vecs := t.vecs
        out := t.out }
    let retrained (y : Port) : State → Prop := turned { y with
      retrains := s.now :: x.retrains
      resends := []
      st := .training }
    (∀ (b : List Byte) (n : Nat), b.length = 256 → x.st = .up →
      let fec := x.fec + BitVec.ofNat 64 n
      Completes (.linkFrame p b n true) s (fun t =>
        t.port p = { x with
          fec := fec
          uncor := satAdd x.uncor 1
          discarding := true } ∧ t = { s with ports := t.ports }) ∧
      (leAt b 252 4 ≠ (crc32c (slice b 0 252)).toNat → Completes (.linkFrame p b n false) s (fun t =>
        t.port p = { x with
          fec := fec
          discarding := true } ∧ t = { s with ports := t.ports })) ∧
      (leAt b 252 4 = (crc32c (slice b 0 252)).toNat →
        (leAt b 0 2 = x.rxSeq.toNat → Completes (.linkFrame p b n false) s (fun t =>
          let stream := x.rxbuf ++ slice b 8 244
          let read := parseStream stream.length stream
          (t.port p).rxSeq = x.rxSeq + 1 ∧ (t.port p).discarding = false ∧ (t.port p).frameAt = s.now ∧ (t.port p).fec = fec ∧
          (t.port p).rxbuf = read.2 ∧
          t.rig = { s.rig with inq := s.rig.inq ++ read.1.map (fun nq =>
            { nq.2 with came := some (p, if isControl nq.2 then 1 else pktUnits nq.1) }) } ∧
          t = { s with
            ports := t.ports
            rig := t.rig
            out := t.out })) ∧
        (leAt b 0 2 ≠ x.rxSeq.toNat → Completes (.linkFrame p b n false) s (fun t =>
          t.port p = { x with fec := fec } ∧ t = { s with ports := t.ports })))) ∧
    (x.st = .up → x.replay ≠ [] → x.ackAt + 200 ≤ s.now → (x.resends.filter (fun u => decide (s.now < u + 100000))).length < 63 →
      Completes (.linkResend p) s (fun t =>
        let frame (f : W16 × List Byte × Bool) : Emit :=
          let body := leBytes 2 f.1.toNat ++ leBytes 2 x.rxSeq.toNat ++ leBytes 4 0 ++ f.2.1
          .frame p (body ++ leBytes 4 (crc32c body).toNat)
        t.port p = { x with
          resend := satAdd x.resend 1
          resends := s.now :: x.resends.filter (fun u => decide (s.now < u + 100000))
          ackAt := s.now } ∧
        t = { s with
          ports := t.ports
          out := s.out ++ x.replay.map frame })) ∧
    (x.st = .up → x.retrains.length < 7 →
      (∀ l, l < 8 → Completes (.laneLockLoss p l) s (retrained { x with lanes := x.lanes &&& ~~~(BitVec.ofNat 8 (2 ^ l)) })) ∧
      (x.frameAt + 1000 ≤ s.now → Completes (.portIdleTimeout p) s (retrained x)) ∧
      (s.hostMay = true → Completes (.retrain p true) s (retrained { x with en := true }))) ∧
    (∀ u, x.st = .up → x.retrains[6]? = some u → s.now ≤ u + 100000000 → x.frameAt + 1000 ≤ s.now → Completes (.portIdleTimeout p) s (fun t =>
      (t.port p).st = .disabled ∧ (t.port p).txq = [] ∧ (t.port p).replay = [] ∧ (t.port p).lanes = 0 ∧
      t.rig = { s.rig with
        portDis := true
        cntDropped := satAdd s.rig.cntDropped ((x.replay.filter (·.2.2)).length + x.txq.length) } ∧
      t = { s with
        ports := t.ports
        rig := t.rig
        integ := (s.logOnly .degraded {
          typ := tHopParity
          source := 5
          detail := 0x400 + p }).integ
        genCause := t.genCause
        vecs := t.vecs
        out := t.out })) ∧
    (x.en = true → (x.st = .training ∨ x.st = .down) →
      Completes (.portTrainingDone p 0xFF true) s (fun t =>
        (t.port p).st = .up ∧ (t.port p).lanes = 0xFF ∧ (t.port p).rxSeq = 0 ∧ (t.port p).discarding = false ∧ (t.port p).frameAt = s.now ∧
        (t.port p).replay.take x.replay.length = x.replay.mapIdx (fun i f => (BitVec.ofNat 16 i, f.2))) ∧
      (∀ lanes inTime, (lanes ≠ 0xFF ∨ inTime = false) → x.retrains.length < 7 →
        Completes (.portTrainingDone p lanes inTime) s (retrained { x with lanes := lanes }))) ∧
    (s.hostMay = true →
      (x.st ≠ .off → Completes (.en p false) s (fun t =>
        (t.port p).en = false ∧ (t.port p).st = .off ∧ (t.port p).txq = [] ∧ (t.port p).replay = [] ∧ (t.port p).lanes = 0)) ∧
      ((x.st = .off ∨ x.st = .disabled) → Completes (.en p true) s (turned { x with
        en := true
        retrains := if x.st = .disabled then [] else x.retrains
        st := .training })) ∧
      (x.st ≠ .off → x.st ≠ .disabled → Completes (.en p true) s (turned { x with en := true })))

/-- R339, R363 to R369: the oldest packet at the switch with a wrong header code is counted and dropped; one with hops to go joins the queue of
its next halyard, and leaves on it at once where none waits before it and the halyard has credit and replay places, or is counted where the
halyard is not UP; one for another device is counted as misrouted; a control packet of another job is counted, a data packet of another job
or from outside the rank map is noted; one for this device and job is delivered, a data packet by its flow number, and a gap in the flow is
logged. A ROW goes to the inbox of its mast, a later part behind the parts before it, once there is room; a LOGIT's entries go to the
sampler, an INPUT's tokens to the batches of its step; one of another epoch is dropped. -/
def Obligations.PacketsReachTheirConsumers : Prop :=
  ∀ s : State,
    (∀ q rest, s.rig.inq = q :: rest →
      let ends (r : Rig) (t : State) : Prop := t = { s with
        rig := { r with inq := rest }
        ports := t.ports }
      (q.hcrcOk = false → Completes .packetTransit s (ends { s.rig with cntHdrErr := satAdd s.rig.cntHdrErr 1 })) ∧
      (q.hcrcOk = true → q.hop < q.hops →
        let p := portOf q.ports q.hop
        let x := s.port p
        let next := { q with hop := q.hop + 1 }
        let n := (pktBytes next).length
        let credit : Prop := if isControl q then 0 < x.credits.getD 4 0 else pktUnits n ≤ x.credits.getD q.vc 0
        (x.st = .up → Completes .packetTransit s (fun t =>
          t = { s with
            rig := { s.rig with inq := rest }
            ports := t.ports
            out := t.out } ∧
          (x.txq = [] → State.inputOf next < 37 → q.vc < 4 →
            (credit → x.replay.length + ceilDiv n 244 ≤ 1024 →
              (t.port p).txq = [] ∧ (t.port p).txb = x.txb + BitVec.ofNat 64 n ∧ t.out.length = s.out.length + ceilDiv n 244) ∧
            (¬credit → isControl q = false → (t.port p).txq = [next] ∧ t.out = s.out)))) ∧
        (x.st ≠ .up → Completes .packetTransit s (ends { s.rig with cntDropped := satAdd s.rig.cntDropped 1 }))) ∧
      (q.hcrcOk = true → q.hops ≤ q.hop →
        (q.dest ≠ s.deviceId → Completes .packetTransit s (ends { s.rig with cntMisroute := satAdd s.rig.cntMisroute 1 })) ∧
        (q.dest = s.deviceId → isControl q = true →
          (q.jobId = s.jobId → Completes .packetTransit s (ends { s.rig with delivered := s.rig.delivered ++ [q] })) ∧
          (q.jobId ≠ s.jobId → Completes .packetTransit s (fun t =>
            t = { s with
              rig := { s.rig with inq := rest }
              ports := t.ports
              integ := { s.integ with foreign := satAdd s.integ.foreign 1 } }))) ∧
        (q.dest = s.deviceId → isControl q = false →
          (q.jobId ≠ s.jobId ∨ s.rankOf q.src = none → Completes .packetTransit s (ends { s.rig with foreign := true })) ∧
          (∀ r, q.jobId = s.jobId → s.rankOf q.src = some r →
            (q.dcrcOk = false → Completes .packetTransit s (ends { s.rig with cntHdrErr := satAdd s.rig.cntHdrErr 1 })) ∧
            (q.dcrcOk = true →
              let w := tabGet 0 s.rig.rxFlow (r * 4 + q.vc)
              if q.start = true ∨ (w ≠ 0 ∧ w = q.flow.toNat + 1) then Completes .packetTransit s (ends { s.rig with
                delivered := s.rig.delivered ++ [q]
                rxFlow := tabSet 0 s.rig.rxFlow (r * 4 + q.vc) ((q.flow.toNat + 1) % 2 ^ 32 + 1) })
              else Completes .packetTransit s (fun t =>
                t.rig.cntFlowGap = satAdd s.rig.cntFlowGap 1 ∧ t.rig.flowGap = true ∧ t.rig.delivered = s.rig.delivered ∧
                t.integ.tail = s.integ.tail + 1 ∧ (s.integ.phase = 0 → t.integ.phase = 1))))))) ∧
    (∀ q, s.rig.delivered.find? (fun q => q.typ = pkRow) = some q →
      let m := leAt q.desc 19 1 % 4
      let part := leAt q.desc 23 1
      let row := s.rowPart q
      let taken (t : State) : Prop := t = { s with
        rig := { s.rig with delivered := s.rig.delivered.erase q }
        ports := t.ports
        inboxes := t.inboxes }
      (s.stale q = true → Completes .row s (fun t => taken t ∧ t.inboxes = s.inboxes)) ∧
      (s.stale q = false → part = 0 → s.inboxRoom m row.width row.fmt = false → Completes .row s (fun t => t = s)) ∧
      (s.stale q = false → State.pchkOk q = true → (part = 0 → s.inboxRoom m row.width row.fmt = true) → Completes .row s (fun t => taken t ∧
        t.inboxOf m = (if part = 0 then s.inboxOf m ++ [row]
          else (s.inboxOf m).map (fun y =>
            if State.sameRow y row = true ∧ y.parts = part then { y with
              bytes := y.bytes ++ row.bytes
              parts := part + 1 }
            else y)) ∧ (∀ k, k ≠ m → t.inboxOf k = s.inboxOf k)))) ∧
    (∀ q u, s.takePkt pkLogit = some (q, u) →
      (s.stale q = true → Completes .logit s (fun t => t = u)) ∧
      (∀ b, s.stale q = false → State.pchkOk q = true →
        s.batches.find? (fun b => b.step = State.pktStep q && !b.replay && s.isHead b.ctx) = some b → Completes .logit s (fun t =>
          (∀ j, j < leAt q.desc 16 2 → 1024 * leAt q.desc 14 2 + j < s.vocabOf b.ctx → s.vocabOf b.ctx ≤ 1048576 →
            t.logit b.ctx (bitsOf (leAt q.desc 20 2) 0 10) (1024 * leAt q.desc 14 2 + j) = some (BitVec.ofNat 32 (leAt q.payload (4 * j) 4))) ∧
          t = { u with logits := t.logits }))) ∧
    (∀ c q u, c < 16 → s.takePkt pkInput = some (q, u) →
      (s.freshPkt q = false → Completes (.input c) s (fun t => t = u)) ∧
      (s.freshPkt q = true → State.pchkOk q = true →
        (((s.ctx c).sect.map (·.prog)).getD []).any (fun op => op % 256 = 0x0C) = true → Completes (.input c) s (fun t =>
          let ids := (upTo (leAt q.desc 14 2)).map (fun k => leAt q.payload (4 * k) 4 % 2 ^ 20)
          let put (b : Batch) : Batch := if b.step = State.pktStep q ∧ b.ctx = c ∧ b.remote then State.putToks b (leAt q.desc 16 2) ids else b
          t = { u with
            remoteWait := s.remoteWait.map put
            batches := s.batches.map put })))

/-- R238, R239, R270, R370, Table 16.5: what an item of a HEAD packet of the epoch whose payload is whole does. At a member BATCH enters its
sequence into the waiting batch of its step, RANGES sets ranges there, COMMIT sets the shadow LENGTH or gives the step's rows back, RESERVE
reserves the rows of a sequence that is there, that is new, or that a FORK makes, and is answered with RESERVE_ACK or REFUSE, RELEASE frees
the sequence or its reserved rows. At the head a RESERVE_ACK or REFUSE counts its member, and the last one decides the command: it takes
effect, or completes with NO_PAGES; PAGE_LOST faults the sequence, at its next step where it has one to come. A read of word 0 of the route
window copies the entry selected. The model's own choices in it: log entries 35, 36, 42 and 129. -/
def Obligations.ItemsOfHeads : Prop :=
  ∀ (s : State) (it : List Byte) (q : Pkt) (u : State), s.freshPkt q = true → State.pchkOk q = true →
    (∀ c, c < 16 →
      let i := shadowKey c (leAt it 4 4)
      let x := s.tbl i
      let rows := leAt it 8 4
      let slot := leAt it 12 4
      let head := (s.rankOf q.src).getD 0
      let answers (kind : Nat) (t : State) : Prop :=
        (head < s.jobSize → (s.routeTo (s.rankId head) 3).isSome = true → ∃ p : Pkt, t.rig.inq = s.rig.inq ++ [p] ∧ p.typ = pkHead ∧
          p.dest = s.rankId head ∧ p.payload = itemBytes kind 0 0 (leAt it 4 4) 0 0 0 0) ∧ t.entries = s.entries
      (s.takeItem kBatch = some (it, q, u) → Completes (.batch c) s (fun t =>
        (∃ b ∈ t.remoteWait, b.step = State.pktStep q ∧ b.ctx = c ∧ ∃ m ∈ b.members, m.idx = i ∧ m.base = leAt it 8 4 ∧ m.p0 = leAt it 16 4 ∧
          m.samples = decide (leAt it 20 4 % 2 = 1) ∧ m.toks.length = leAt it 2 2) ∧
        (∀ b ∈ s.remoteWait, (b.step ≠ State.pktStep q ∨ b.ctx ≠ c) → b ∈ t.remoteWait) ∧
        t = { u with remoteWait := t.remoteWait })) ∧
      (s.takeItem kRanges = some (it, q, u) → Completes (.ranges c) s (fun t =>
        t = { u with
          remoteWait := s.remoteWait.map (State.putRanges i (State.pktStep q) (leAt it 1 1) it)
          batches := s.batches.map (State.putRanges i (State.pktStep q) (leAt it 1 1) it) })) ∧
      (s.takeItem kCommit = some (it, q, u) →
        (leAt it 1 1 = 0 → Completes (.commit c) s (fun t =>
          t.tbl i = { x with shadow := leAt it 8 4 } ∧ (∀ j, j ≠ i → t.tbl j = s.tbl j) ∧
          (∀ b ∈ t.batches, b.step = State.pktStep q → b.ctx = c → b.remote = true → b.swept = true ∨ ∀ m ∈ b.members, m.idx ≠ i) ∧
          t = { u with
            tables := t.tables
            batches := t.batches })) ∧
        (leAt it 1 1 ≠ 0 → Completes (.commit c) s (fun t =>
          (t.tbl i).shadow = x.shadow ∧
          (t.tbl i).resRows = (if leAt it 1 1 = 1 ∨ leAt it 1 1 = 2 then 0
            else x.resRows + BitVec.ofNat 16 (pagesFor (x.shadow + leAt it 2 2) - pagesFor x.shadow))))) ∧
      (s.takeItem kReserve = some (it, q, u) →
        (x.owned = true → slot = 0xFFFF →
          let v := s.dropRows i
          (v.cmdFits i c x.shadow rows false = true → Completes (.reserve ⟨c, none⟩) s (fun t => answers kReserveAck t ∧
            t.tbl i = { x with
              resRows := BitVec.ofNat 16 rows
              released := false
              headRank := head })) ∧
          (v.cmdFits i c x.shadow rows false = false → Completes (.reserve ⟨c, none⟩) s (fun t => answers kRefuse t ∧ t.tables = v.tables))) ∧
        (x.owned = false →
          (slot = 0xFFFF → s.cmdFits i c x.shadow rows true = true → Completes (.reserve ⟨c, none⟩) s (fun t => answers kReserveAck t ∧
            (t.tbl i).owned = true ∧ (t.tbl i).ctx = c ∧ (t.tbl i).resRows = x.resRows + BitVec.ofNat 16 rows ∧ (t.tbl i).headRank = head)) ∧
          (slot ≠ 0xFFFF → (s.pfx c slot).loaded = true → s.cmdFits i c (s.pfx c slot).length rows true = true →
            Completes (.reserve ⟨c, none⟩) s (fun t => answers kReserveAck t ∧
              (t.tbl i).owned = true ∧ (t.tbl i).shadow = (s.pfx c slot).length ∧ (t.tbl i).pages = (s.pfx c slot).pages ∧
              (t.xr i).prefixSlot = some slot ∧ (t.xr i).p0 = (s.pfx c slot).length)) ∧
          (slot ≠ 0xFFFF → (s.pfx c slot).loaded = false → Completes (.reserve ⟨c, none⟩) s (fun t => answers kRefuse t ∧ t.tables = s.tables)) ∧
          (∀ w : W32, slot = 0xFFFF → let j := shadowKey c w.toNat
            (s.tbl j).owned = true → s.fits c (s.forkNeed j) true = true → s.dirSize c + (s.tbl j).ptrs.length ≤ s.ptbFree →
            Completes (.reserve ⟨c, some w⟩) s (fun t => answers kReserveAck t ∧
              (t.tbl i).owned = true ∧ (t.tbl i).shadow = (s.tbl j).shadow ∧ t.xr i = s.xr j ∧ (t.tbl i).headRank = head)))) ∧
      (s.takeItem kRelease = some (it, q, u) →
        Completes (.headRelease ⟨c, true⟩) s (fun t => t.tbl i = {} ∧ t.xr i = {} ∧ t.entries = s.entries) ∧
        Completes (.headRelease ⟨c, false⟩) s (fun t =>
          t.tbl i = { x with
            resRows := 0
            released := false } ∧ (∀ j, j ≠ i → t.tbl j = s.tbl j) ∧ t = { u with tables := t.tables }))) ∧
    (∀ (a : Await) (r : Nat), s.rankOf q.src = some r → s.seq.awaits.find? (fun a => a.idx = leAt it 4 4 % 131072) = some a →
      let stays (no : Bool) (t : State) : Prop :=
        t.entries = s.entries ∧ t.seq.cplTail = s.seq.cplTail ∧ t.seq.held = s.seq.held ∧
        t.seq.awaits.find? (fun a => a.idx = leAt it 4 4 % 131072) = some { a with
          waiting := a.waiting.filter (· ≠ r)
          acked := if no then a.acked else a.acked ++ [r]
          refused := a.refused || no }
      let fails (t : State) : Prop :=
        t.entries = s.entries ∧ (∀ b ∈ t.seq.awaits, b.idx ≠ a.idx) ∧
        (a.cmd.opcode = 2 → (t.tbl a.idx).resRows = 0 ∧ State.Answered s t a.cmd a.cmd.handle sNoPages (stateCode (s.entry a.idx).st) 0) ∧
        (a.cmd.opcode ≠ 2 → State.Answered s t a.cmd 0 sNoPages 0 0)
      (s.takeItem kReserveAck = some (it, q, u) →
        ((∃ k ∈ a.waiting, k ≠ r) → Completes (.reserveAck true) s (stays false)) ∧
        ((∀ k ∈ a.waiting, k = r) → a.refused = true → Completes (.reserveAck true) s fails) ∧
        ((∀ k ∈ a.waiting, k = r) → a.refused = false → a.cmd.opcode = 2 → ((s.entry a.idx).st = .waiting ∨ (s.entry a.idx).st = .ended) →
          Completes (.reserveAck true) s (fun t =>
            t.entry a.idx = { s.entry a.idx with
              st := .admitted
              input := BitVec.ofNat 21 ((s.entry a.idx).nextValid.toNat + a.cmd.count)
              nextValid := false
              deadline := s.fromNow a.cmd.deadline
              hint := 0 } ∧ (∀ j, j ≠ a.idx → t.entry j = s.entry j) ∧ (∀ b ∈ t.seq.awaits, b.idx ≠ a.idx) ∧
            State.Answered s t a.cmd a.cmd.handle sOK 1 0)) ∧
        ((∀ k ∈ a.waiting, k = r) → a.refused = false → a.cmd.opcode = 1 → Completes (.reserveAck true) s (fun t =>
          (t.entry a.idx).st = .admitted ∧ (t.entry a.idx).gen = (s.entry a.idx).gen ∧ (t.entry a.idx).ctx = BitVec.ofNat 4 a.cmd.ctx ∧
          (∀ j, j ≠ a.idx → t.entry j = s.entry j) ∧ (∀ b ∈ t.seq.awaits, b.idx ≠ a.idx) ∧
          State.Answered s t a.cmd (BitVec.ofNat 32 (s.handleOf a.idx)) sOK 1 0))) ∧
      (s.takeItem kRefuse = some (it, q, u) →
        ((∃ k ∈ a.waiting, k ≠ r) → Completes (.refuse true) s (stays true)) ∧
        ((∀ k ∈ a.waiting, k = r) → Completes (.refuse true) s fails))) ∧
    (∀ i, s.takeItem kPageLost = some (it, q, u) → s.byHandle (BitVec.ofNat 32 (leAt it 4 4)) = some i →
      let e := s.entry i
      ((e.st = .prefill ∨ e.st = .decode ∨ e.st = .parked ∨ e.st = .restarting) → Completes .pageLost s (fun t =>
        t.entry i = { e with stepFault := if e.stepFault = 0 then 3 else e.stepFault } ∧ (∀ j, j ≠ i → t.entry j = s.entry j) ∧
        t = { u with entries := t.entries })) ∧
      ((e.st = .admitted ∨ e.st = .waiting ∨ e.st = .ended ∨ e.st = .expired) → Completes .pageLost s (fun t =>
        (t.entry i).st = .faulted ∧ (t.entry i).fault = 5 ∧ ∀ j, j ≠ i → t.entry j = s.entry j))) ∧
    (s.hostReads = true → Completes .rigRouteRead s (fun t =>
      let ws := (s.sail.routes[s.rig.routeSel.toNat]?).elim [0, 0] State.routeWords
      t = { s with
        rig := { s.rig with copy := ws }
        out := s.out ++ [.completion true (ws.getD 0 0).toNat] }))

/-! The host link, its interrupts, and security (chapter 17). -/

/-- R376, R379, R380, R384: the link comes up with all lanes locked and the order of lane pairs found; training starts again after 100 ms; Bus
Master Enable and D3hot are as the host sets them: where they stop the block's requests nothing else changes, and where they allow them the
replies held for free mailboxes go out; a link reset takes the link back to training (or leaves it off in FURL, or before it began), unbinds
the stream, ends the sessions, resets the vectors but their holdoffs, gives mailboxes 0 to 15 their reset values, releases the host's
cleats, aborts a sail command, stops the sequence engine, its rings emptied, and leaves the operator key, the entries, the batch steps and
the arrays; at the end of its holdoff a gathered message goes out, or is pending where the vector is masked. The model's own choices in it:
log entries 71 and 75. -/
def Obligations.HostLinkAndVectors : Prop :=
  ∀ s : State,
    (s.link.st = 1 → ∀ pairs, Completes (.hostLinkUp pairs) s (fun t =>
      t.link = { s.link with
        st := 2
        lanes := 0xFFFF
        pairMap := pairs } ∧
      t = { s with
        link := t.link
        vecs := t.vecs
        mbxs := t.mbxs
        out := t.out })) ∧
    (s.link.st = 1 → s.link.trainAt + 10000000 ≤ s.now → Completes .hostLinkTrainRetry s (fun t =>
      t = { s with link := { s.link with
        lanes := 0
        trainAt := s.now } })) ∧
    (∀ bme d3hot w, bme = false ∨ d3hot = true ∨ s.link.st ≠ 2 → Completes (.bmStop bme d3hot ⟨[], w⟩) s (fun t =>
      t.bmStop = true ∧ t = { s with link := { s.link with
        bme := bme
        d3hot := d3hot } })) ∧
    (∀ w, s.link.st = 2 → s.seq.held = [] → Completes (.bmStop true false ⟨[], w⟩) s (fun t =>
      t.bmStop = false ∧
      t.link = { s.link with
        bme := true
        d3hot := false } ∧
      (∀ k, k < 24 →
        ((s.mbx k).full = true ∨ (s.mbx k).held = [] → t.mbx k = s.mbx k) ∧
        (∀ r l, (s.mbx k).full = false → (s.mbx k).held = r :: l → .notice k r.bytes ∈ t.out ∧ t.mbx k = { s.mbx k with
          held := l
          addr := r.addr
          len := BitVec.ofNat 32 r.len
          seq := r.seq
          full := true })) ∧
      t = { s with
        link := t.link
        vecs := t.vecs
        mbxs := t.mbxs
        out := t.out })) ∧
    Completes .cxlLinkReset s (fun t =>
      t.link = { s.link with
        st := if s.pwr.furled ∨ s.link.st = 0 then 0 else 1
        lanes := 0
        trainAt := s.now
        bme := false
        d3hot := false
        sessions := []
        resets := s.link.resets + 1
        bound := false
        memIde := false
        ioIde := false
        memId := 0
        ioId := 0 } ∧
      (∀ v, v < 17 → (t.vec v).masked = true ∧ (t.vec v).holdoff = (s.vec v).holdoff ∧ (t.vec v).gathered = false) ∧
      (∀ k, k < 24 →
        let o := if 1 ≤ (s.mbx k).owner.toNat ∧ (s.mbx k).owner.toNat ≤ 63 then 0 else (s.mbx k).owner
        t.mbx k = if k < 16 then { owner := o } else { s.mbx k with owner := o }) ∧
      t.seq = { s.seq with
        enable := false
        cqTail := 0
        cqHead := 0
        cplTail := 0
        cplHead := 0
        linkStop := true
        fetched := [] } ∧
      t.sail.busy = false ∧ t.sail.status = (if s.sail.busy then sSailAborted else s.sail.status) ∧ t.sail.opkey = s.sail.opkey ∧
      t.entries = s.entries ∧ t.batches = s.batches ∧ t.arrs = s.arrs) ∧
    (∀ v, v < 17 → (s.vec v).gathered = true →
      ((s.vec v).masked = true → Completes (.vectorHoldoffEnd v) s (fun t =>
        t.vec v = { s.vec v with
          gathered := false
          pba := true } ∧
        (∀ w, w ≠ v → t.vec w = s.vec w) ∧ t = { s with vecs := t.vecs })) ∧
      ((s.vec v).masked = false → s.bmStop = false → ((s.vec v).sent = true → (s.vec v).sentAt + 100 * (s.vec v).holdoff.toNat ≤ s.now) →
        Completes (.vectorHoldoffEnd v) s (fun t =>
          t.vec v = { s.vec v with
            sent := true
            sentAt := s.now
            gathered := false } ∧
          (∀ w, w ≠ v → t.vec w = s.vec w) ∧
          t = { s with
            vecs := t.vecs
            out := s.out ++ [.msix v] })))

/-- R385, R386, R387: while the link is up and the security core runs, discovery, the version and unsupported requests are answered; a key
exchange opens a session, which FINISH completes; GET_MEASUREMENTS answers the 19 blocks and a signature of 114 bytes, or the error
Unspecified where no identity key is sealed; IDE_KM outside a finished session is an error, and in one with mutual authentication of the one
requester it binds the stream; the end of that session, or an integrity failure, unbinds it. The model's own choices in it: log entry 71. -/
def Obligations.SecureSessions : Prop :=
  ∀ s : State, s.link.st = 2 → s.clk.state ≠ 0 →
    Completes (.doeRequest .discovery) s (fun t => t = { s with out := s.out ++ [.doe 0 [0, 1, 2]] }) ∧
    Completes (.doeRequest .getVersion) s (fun t => t = { s with out := s.out ++ [.doe 0 [0x12, 0x13]] }) ∧
    Completes (.doeRequest .other) s (fun t => t = { s with out := s.out ++ [.doe 2 []] }) ∧
    (∀ n, s.clk.idOk = true → s.link.sessions.any (fun x => x.id = n) = false → Completes (.doeRequest (.keyExchange n)) s (fun t =>
      ∃ sig, sig.length = 114 ∧ t = { s with
        link := { s.link with sessions := ⟨n, false, none⟩ :: s.link.sessions }
        freeCtr := t.freeCtr
        out := s.out ++ [.doe 0 sig] })) ∧
    (∀ n r, s.link.sessions.any (fun x => x.id = n) = true → Completes (.doeRequest (.finish n r)) s (fun t =>
      t = { s with
        link := { s.link with sessions := ⟨n, true, r.map sha3⟩ :: s.link.sessions.filter (fun x => x.id ≠ n) }
        out := s.out ++ [.doe 0 []] })) ∧
    (s.clk.idOk = true → Completes .getMeasurements s (fun t => ∃ sig,
      t = { s with
        freeCtr := t.freeCtr
        out := s.out ++ [.doe 0 (s.measurements ++ sig)] } ∧ sig.length = 114 ∧ s.measurements.length = 627)) ∧
    (s.clk.idOk = false → Completes .getMeasurements s (fun t => t = { s with out := s.out ++ [.doe 1 []] })) ∧
    (∀ n a b, s.link.sessions.find? (fun x => x.id = n && x.done) = none → Completes (.ideKm n a b) s (fun t =>
      t = { s with out := s.out ++ [.doe 1 []] })) ∧
    (∀ n a b x d, s.link.sessions.find? (fun x => x.id = n && x.done) = some x → x.requester = some d →
      s.link.bound = false → (s.link.requester = none ∨ s.link.requester = some d) → Completes (.ideKm n a b) s (fun t =>
        t = { s with
          link := { s.link with
            bound := true
            boundSession := n
            requester := some d
            memIde := true
            ioIde := true
            memId := a
            ioId := b }
          out := s.out ++ [.doe 0 []] })) ∧
    (s.link.bound = true →
      Completes .ideIntegrityFailure s (fun t => t = { s with link := { s.link with
        bound := false
        memIde := false
        ioIde := false } }) ∧
      Completes (.endSession s.link.boundSession) s (fun t =>
        t = { s with
          link := { s.link with
            bound := false
            memIde := false
            ioIde := false
            sessions := s.link.sessions.filter (fun x => x.id ≠ s.link.boundSession) }
          out := s.out ++ [.doe 0 []] }))

/-- R388: a request to BAR2 that does not arrive on the bound stream completes with Unsupported Request: a write is ignored, a read of w bits
returns all ones, and MBX_SEC_REJ counts it. While no stream is bound, no write or command reaches a BAR2 register or mailbox: it is
counted, and nothing else changes. -/
def Obligations.Bar2NeedsTheBoundStream : Prop :=
  ∀ s : State,
    let rejected : State := { s with link := { s.link with secRej := satAdd s.link.secRej 1 } }
    Completes (.bar2Reject 0) s (fun t => t = rejected) ∧
    (∀ w, 0 < w → w ≤ 64 → Completes (.bar2Reject w) s (fun t => t = { rejected with out := s.out ++ [.completion false (2 ^ w - 1)] })) ∧
    (s.link.bound = false → s.hostMay = true →
      (∀ o width v, o < 2 ^ 32 → Completes (.registerWrite true false o width v) s (fun t => t = rejected)) ∧
      (∀ i v, i < 4 → Completes (.sailOpkeyWrite i v) s (fun t => t = rejected)) ∧
      (∀ k, 16 ≤ k → k < 24 →
        Completes (.doorbell k) s (fun t => t = rejected) ∧ Completes (.ack k) s (fun t => t = rejected) ∧
        (∀ v, Completes (.mbxCleatWrite k v) s (fun t => t = rejected)) ∧
        (∀ a, a < 64 → Completes (.mbxCleatRead k a) s (fun t =>
          t = { rejected with out := s.out ++ [.completion false (2 ^ 32 - 1)] }))))

/-- R390, R394: a doorbell sets FULL of a mailbox the host sends on, or OVERRUN where it is full; on a mailbox it does not send on, WR_REJ. ACK
empties a full mailbox the host receives on, in which a reply that waits is then put, its notice given; it does nothing to an empty one, and
sets WR_REJ on a mailbox the host does not receive on. A read of a free cleat answers 0 and claims it for the reader, but by alias 0, which
claims nothing; a read of a held one answers its owner; a write of the owner's alias releases it, any other is rejected. R382: the host's
write of the window lands in the operator region of its mast while the partition is off. The model's own choices in it: log entry 87. -/
def Obligations.MailboxesAndWindow : Prop :=
  (∀ (s : State) (k : Nat), k < 24 → s.mailboxMay = true → (16 ≤ k → s.link.bound = true) →
     (hostSends k = true → (s.mbx k).full = false → Completes (.doorbell k) s (fun t =>
       t.mbx k = { s.mbx k with full := true } ∧ (∀ j, j ≠ k → t.mbx j = s.mbx j) ∧
       t = { s with
         mbxs := t.mbxs
         spindles := t.spindles })) ∧
     (hostSends k = true → (s.mbx k).full = true → Completes (.doorbell k) s (fun t =>
       t.mbx k = { s.mbx k with overrun := true } ∧ (∀ j, j ≠ k → t.mbx j = s.mbx j) ∧ t = { s with mbxs := t.mbxs })) ∧
     (hostSends k = false → Completes (.doorbell k) s (fun t =>
       t.mbx k = { s.mbx k with wrRej := true } ∧ (∀ j, j ≠ k → t.mbx j = s.mbx j) ∧ t = { s with mbxs := t.mbxs })) ∧
     (hostReceives k = true → (s.mbx k).full = true →
       ((s.mbx k).held = [] → Completes (.ack k) s (fun t =>
         t.mbx k = { s.mbx k with full := false } ∧ (∀ j, j ≠ k → t.mbx j = s.mbx j) ∧ t = { s with mbxs := t.mbxs })) ∧
       (∀ r l, (s.mbx k).held = r :: l → s.bmStop = false → Completes (.ack k) s (fun t =>
         t.mbx k = { s.mbx k with
           held := l
           addr := r.addr
           len := BitVec.ofNat 32 r.len
           seq := r.seq } ∧
         .notice k r.bytes ∈ t.out ∧ (∀ j, j ≠ k → t.mbx j = s.mbx j) ∧
         t = { s with
           mbxs := t.mbxs
           vecs := t.vecs
           out := t.out }))) ∧
     (hostReceives k = true → (s.mbx k).full = false → Completes (.ack k) s (fun t => t = s)) ∧
     (hostReceives k = false → Completes (.ack k) s (fun t =>
       t.mbx k = { s.mbx k with wrRej := true } ∧ (∀ j, j ≠ k → t.mbx j = s.mbx j) ∧ t = { s with mbxs := t.mbxs })) ∧
     (∀ a, 0 < a → a < 1024 → (s.mbx k).owner = 0 → Completes (.mbxCleatRead k a) s (fun t =>
       t.mbx k = { s.mbx k with owner := BitVec.ofNat 10 a } ∧ (∀ j, j ≠ k → t.mbx j = s.mbx j) ∧
       t = { s with
         mbxs := t.mbxs
         out := s.out ++ [.completion true 0] })) ∧
     ((s.mbx k).owner = 0 → Completes (.mbxCleatRead k 0) s (fun t => t = { s with out := s.out ++ [.completion true 0] })) ∧
     (∀ a, a < 1024 → (s.mbx k).owner ≠ 0 → Completes (.mbxCleatRead k a) s (fun t =>
       t = { s with out := s.out ++ [.completion true (s.mbx k).owner.toNat] })) ∧
     (∀ v : W32, Completes (.mbxCleatWrite k v) s (fun t =>
       t.mbx k = (if v.setWidth 10 = (s.mbx k).owner then { s.mbx k with owner := 0 } else { s.mbx k with cleatRej := true }) ∧
       (∀ j, j ≠ k → t.mbx j = s.mbx j) ∧ t = { s with mbxs := t.mbxs }))) ∧
  (∀ (s : State) (m r : Nat) (b : List Byte), m < 4 → r + b.length ≤ 268435456 → s.clk.state = 1 → s.pwr.furled = false →
     (s.spn m).opEn = false → Completes (.cxlMemWindowWrite (2 * m * 268435456 + r) b) s (fun t =>
       (∀ i, i < b.length → t.hbmByte (2 * m) (3840 * 1048576 + r + i) = b.getD i 0) ∧
       (∀ k a, a < 2 ^ 37 → (k ≠ 2 * m ∨ a < 3840 * 1048576 + r ∨ 3840 * 1048576 + r + b.length ≤ a) → t.hbmByte k a = s.hbmByte k a) ∧
       t = { s with hbm := t.hbm }))

/-- R391, R392, R436: a well-formed request of a service that the mailbox carries is answered once: the mailbox is free again, and its reply box
carries the request's SEQ, and its notice the reply's bytes. INFO and LINK answer what they show; FW_STATUS answers the boot record, the
slots' headers and the slot that runs; ID_INFO the public key and the chain, or ID_FAIL where no identity key is sealed. FW_WRITE has put
the bytes of the request into the slot that does not run; FW_ACTIVATE puts that slot on trial where it passes its checks, and names the
failed check otherwise; FW_COMMIT ends the trial, and raises the least security version where the request says so. The model's own choices
in it: log entries 69, 70 and 76. -/
def Obligations.ServicesAnswer : Prop :=
  ∀ (s : State) (k : Nat) (msg : Option (List Byte)) (q : List Byte), k < 24 → hostSends k = true → (s.mbx k).full = true → s.clk.state = 1 →
    s.devFatal = false → s.message k msg = some q → State.requestOk q = true → (s.mbx (replyBox k)).full = false →
    (s.mbx (replyBox k)).held = [] → s.bmStop = false →
    let answers (t : State) (st : Byte) (body : List Byte) : Prop :=
      (t.mbx k).full = false ∧ (t.mbx (replyBox k)).full = true ∧ (t.mbx (replyBox k)).seq = (s.mbx k).seq ∧
      (∀ j, j ≠ k → j ≠ replyBox k → t.mbx j = s.mbx j) ∧ .notice (replyBox k) (State.makeReply q st body (s.mbx k).seq).bytes ∈ t.out
    let same (t : State) : Prop := t = { s with
      mbxs := t.mbxs
      vecs := t.vecs
      out := t.out }
    let code := leAt q 0 2
    (code = 1 → Completes (.info k msg) s (fun t => answers t sOK s.infoBody ∧ same t)) ∧
    (k < 7 → code = 2 → Completes (.link k msg) s (fun t =>
      answers t sOK (leBytes 8 s.linkStatBits ++ (upTo 32).flatMap (fun p => leBytes 4 (s.portStatBits p))) ∧ same t)) ∧
    (16 ≤ k →
      (code = 0x100 → Completes (.fwStatus k msg false) s (fun t =>
        answers t sOK ((((s.bootForce).map (fun x => bootBytes x.2)).getD (List.replicate 64 0)) ++ s.slotHeader false ++ s.slotHeader true
          ++ leBytes 1 s.clk.slot.toNat) ∧ same t)) ∧
      (code = 0x101 → leAt q 32 4 % 4096 = 0 → leAt q 32 4 + leAt q 36 4 ≤ 16777216 → 64 + leAt q 36 4 ≤ q.length →
        Completes (.fwWrite k msg false) s (fun t =>
          answers t sOK [] ∧
          (∀ i, i < leAt q 36 4 → t.flashByte (slotBase (!s.clk.slot) + leAt q 32 4 + i) = q.getD (64 + i) 0) ∧
          (∀ a, (a < slotBase (!s.clk.slot) + leAt q 32 4 ∨ slotBase (!s.clk.slot) + leAt q 32 4 + leAt q 36 4 ≤ a) →
            t.flashByte a = s.flashByte a) ∧
          t = { s with
            mbxs := t.mbxs
            vecs := t.vecs
            out := t.out
            flash := t.flash })) ∧
      (code = 0x102 → ∀ c r, s.bootForce = some (c, r) → 1 ≤ leAt q 32 1 → leAt q 32 1 ≤ 7 → 33 ≤ q.length →
        Completes (.fwActivate k msg false) s (fun t =>
          match s.slotFail (!s.clk.slot) r.minSvn with
          | some n => answers t (checkStatus n) [] ∧ same t
          | none => answers t sOK [] ∧ t.flashRead (0x10000 * (1 - c)) 64 = bootBytes { r with
              seqno := (r.seqno + 1) % 2 ^ 32
              active := !s.clk.slot
              trial := true
              fallback := false
              tries := leAt q 32 1 } ∧
            (∀ a, (a < 0x10000 * (1 - c) ∨ 0x10000 * (1 - c) + 64 ≤ a) → t.flashByte a = s.flashByte a))) ∧
      (code = 0x103 → ∀ c r, s.bootForce = some (c, r) → r.trial = true → Completes (.fwCommit k msg false) s (fun t =>
        answers t sOK [] ∧ t.flashRead (0x10000 * (1 - c)) 64 = bootBytes { r with
          seqno := (r.seqno + 1) % 2 ^ 32
          trial := false
          minSvn := if leAt q 32 1 % 2 = 1 then s.clk.svn.toNat else r.minSvn } ∧
        (∀ a, (a < 0x10000 * (1 - c) ∨ 0x10000 * (1 - c) + 64 ≤ a) → t.flashByte a = s.flashByte a))) ∧
      (code = 0x110 → Completes (.idInfo k msg false) s (fun t =>
        (if s.clk.idOk then answers t sOK (s.idPub ++ s.idChain) else answers t sIdFail []) ∧ same t)))

/-! Power (chapter 18). -/

/-- R397, R401, R403, R410, R411: what PWR_CMD, the chooser and the input sample do to a device not in FURL. REEF and DOUSE become the target of
the named groups that are less deep, FURL that of the device; SAIL brings the named groups from REEF to SAIL, and those in DOUSE under a
wake; the chooser picks the deepest state that fits the time to PWR_NEXT for each idle group (DOUSE for a group where that is FURL), and a
group in REEF that is not idle, or has neither a target nor the time, is in SAIL again; a sample shows its readings and the laser biases
below 90 % of their limit (Table 6.10), and steps the throttle by one of 16 at most, once in 10 µs; a die at 120 °C ends in DEVICE_FATAL
with every die off; an undervoltage sets UV and the cause PWR. The model's own choices in it: log entries 82, 105 and 137. -/
def Obligations.PowerCommands : Prop :=
  ∀ s : State, s.mailboxMay = true → s.pwr.groups.length = 4 → s.pwr.targets.length = 4 →
    (∀ w : BitVec 4, Completes (.pwrReef w) s (fun t =>
      (∀ g, g < 4 → t.pwr.targets.getD g none = if w.getLsbD g ∧ s.groupSt g = .sail then some .reef else s.pwr.targets.getD g none) ∧
      t = { s with pwr := { s.pwr with
        status := sOK
        cmdLast := 2
        targets := t.pwr.targets } })) ∧
    (∀ w : BitVec 4, Completes (.pwrDouse w) s (fun t =>
      (∀ g, g < 4 → t.pwr.targets.getD g none =
        if w.getLsbD g ∧ (s.groupSt g = .sail ∨ s.groupSt g = .reef) then some .douse else s.pwr.targets.getD g none) ∧
      t = { s with pwr := { s.pwr with
        status := sOK
        cmdLast := 3
        targets := t.pwr.targets } })) ∧
    Completes .pwrFurl s (fun t => t = { s with pwr := { s.pwr with
      status := sOK
      cmdLast := 4
      furlTarget := true } }) ∧
    (∀ w : BitVec 4, Completes (.pwrSail w) s (fun t =>
      t.pwr.status = sOK ∧ t.pwr.cmdLast = 1 ∧
      (∀ g, g < 4 → t.groupSt g = if w.getLsbD g ∧ s.groupSt g = .reef then .sail else s.groupSt g) ∧
      (∀ g, g < 4 → w.getLsbD g → s.groupSt g = .douse → ∃ x, t.pwr.wake = some x ∧ g ∈ x.groups ∧
        (s.pwr.wake = none → x.src = .douse ∧ x.cause = 4 ∧ x.start = s.now)) ∧
      t = { s with
        pwr := t.pwr
        dies := t.dies
        genCause := t.genCause
        vecs := t.vecs
        out := t.out })) ∧
    Completes .powerChooser s (fun t =>
      (∀ g, g < 4 →
        let x := if s.groupIdle g then chosenState s.pwr.autoMax.toNat (s.pwrNext - s.now) else .sail
        t.pwr.choice.getD g .sail = (if x = .furl then .douse else x) ∧
        t.groupSt g = if s.groupSt g = .reef ∧ (s.groupIdle g = false ∨ (s.pwr.targets.getD g none = none ∧ x = .sail)) then .sail
          else s.groupSt g) ∧
      t = { s with
        pwr := t.pwr
        genCause := t.genCause
        vecs := t.vecs
        out := t.out }) ∧
    (∀ volts amps watts avg10 bias,
      ((∀ x, s.hottestDie = some x → x < 1920) → Completes (.powerSample volts amps watts ⟨avg10, bias⟩) s (fun t =>
        t.pwr.volts = volts ∧ t.pwr.amps = amps ∧ t.pwr.watts = watts ∧
        (∀ e (v : W16), e < 9 → bias[e]? = some v → (s.laser e).2 ≠ 1000 →
          (v.toNat < 900 → t.laser e = ((s.laser e).1, v)) ∧ (900 ≤ v.toNat → (t.laser e).1 = true) ∧ (1000 ≤ v.toNat → (t.laser e).2 = 1000)) ∧
        (∀ e, (s.laser e).2 = 1000 → t.laser e = s.laser e) ∧
        (s.now < s.pwr.stepAt + 1000 → t.pwr.step = s.pwr.step) ∧
        (s.pwr.stepAt + 1000 ≤ s.now → t.pwr.stepAt = s.now ∧ t.pwr.step =
          if 97 * s.pwrLimit < 100 * avg10 ∨ (∃ x, s.hottestDie = some x ∧ 1760 ≤ x) then min 16 (s.pwr.step + 1)
          else if 100 * avg10 < 92 * s.pwrLimit then s.pwr.step - 1 else s.pwr.step) ∧
        t = { s with
          pwr := t.pwr
          lasers := t.lasers
          integ := t.integ
          vecs := t.vecs
          out := t.out })) ∧
      (∀ x, s.hottestDie = some x → 1920 ≤ x → Completes (.powerSample volts amps watts ⟨avg10, bias⟩) s (fun t =>
        t.devFatal = true ∧ ∀ m d, m < 4 → d < 8 → (t.die m d).powered = false))) ∧
    Completes .inputUndervoltage s (fun t =>
      t.pwr = { s.pwr with uv := true } ∧ t.genCause = s.genCause ||| 256 ∧
      t = { s with
        pwr := t.pwr
        genCause := t.genCause
        vecs := t.vecs
        out := t.out })

/-- R398, R403 to R406: an idle group with a deeper target enters REEF, or DOUSE, where its dies power down and its arrays are OFF or RETIRED,
and the sequence entries and HBM stay, as does the calibration where none runs on those dies; the device enters FURL, which drops the stores
and the identity key, and keeps the operator key and the flash. A first access shows the wake of a group in REEF, wakes the logic of a mast
in DOUSE, or begins the group's wake, by its kind; it does nothing to a group in SAIL; 1 ms after the last one the logic sleeps again; a die
whose power is stable has BLANK (or RETIRED) arrays, uncalibrated. The model's own choices in it: log entries 83, 111 and 134. -/
def Obligations.SleepStates : Prop :=
  ∀ s : State, s.pwr.groups.length = 4 → s.pwr.furled = false →
    (∀ g, g < 4 → s.wants g .reef = true → s.groupIdle g = true → Completes (.reefEntry g) s (fun t =>
      t.groupSt g = .reef ∧ (∀ h, h ≠ g → t.groupSt h = s.groupSt h) ∧
      t = { s with
        pwr := { s.pwr with groups := t.pwr.groups }
        genCause := t.genCause
        vecs := t.vecs
        out := t.out })) ∧
    (∀ g, g < 4 → s.wants g .douse = true → s.groupIdle g = true → s.sleepWaits = false → Completes (.douseEntry g) s (fun t =>
      t.groupSt g = .douse ∧ (∀ h, h ≠ g → t.groupSt h = s.groupSt h) ∧
      (∀ m d, m ∈ s.mastsOf g → d < 8 → (t.die m d).powered = false ∧ (t.die m d).poweringUp = false) ∧
      (∀ m p, m ∈ s.mastsOf g → p < 17408 → (t.arr m p).st = .off ∨ (t.arr m p).st = .retired) ∧
      t.entries = s.entries ∧ t.hbm = s.hbm ∧
      ((∀ j, s.adc.job = some j → ∀ k ∈ j.dies, k / 8 ∉ s.mastsOf g) → t.cals = s.cals))) ∧
    ((s.pwr.furlTarget = true ∨ s.pwr.furlChoice = true) → s.deviceIdle = true → s.sleepWaits = false → s.clk.state = 1 →
      Completes .furlEntry s (fun t =>
        t.pwr.furled = true ∧ t.link.st = 0 ∧ t.clk.state = 0 ∧ t.clk.idKey = [] ∧ t.pwr.ranSlot = s.clk.slot ∧
        t.masts = [] ∧ t.dies = [] ∧ t.rows = [] ∧ t.streams = [] ∧ t.store = [] ∧ t.flash = s.flash ∧ t.time = s.time ∧
        t.sail.opkey = s.sail.opkey)) ∧
    (∀ m, m < 4 →
      (s.groupSt (s.groupOfMast m) = .sail → ∀ kind, kind < 5 → Completes (.firstAccess m kind) s (fun t => t = s)) ∧
      (s.groupSt (s.groupOfMast m) = .reef → ∀ kind, kind < 2 → Completes (.firstAccess m kind) s (fun t =>
        t = { s with pwr := { s.pwr with
          lastFrom := 1
          lastCause := 1
          lastDur := 800 } })) ∧
      (s.groupSt (s.groupOfMast m) = .douse → Completes (.firstAccess m 2) s (fun t =>
        (m, s.now) ∈ t.pwr.awake ∧ t = { s with pwr := { s.pwr with
          lastFrom := 2
          lastCause := 1
          lastDur := 5000
          awake := t.pwr.awake } })) ∧
      (s.groupSt (s.groupOfMast m) = .douse → s.pwr.wake = none → ∀ kind, kind = 3 ∨ kind = 4 → Completes (.firstAccess m kind) s (fun t =>
        t.pwr.wake = some ⟨.douse, 1, s.now, [s.groupOfMast m], 0⟩ ∧ t.pwr.groups = s.pwr.groups)) ∧
      Completes (.returnToRetention m) s (fun t =>
        (∀ x, x ∈ t.pwr.awake ↔ x ∈ s.pwr.awake ∧ ¬(x.1 = m ∧ x.2 + 100000 ≤ s.now)) ∧
        t = { s with pwr := { s.pwr with awake := t.pwr.awake } }) ∧
      (∀ d, d < 8 → (s.die m d).poweringUp = true → Completes (.diePowerStable m d) s (fun t =>
        t.die m d = { powered := true } ∧
        (∀ k e, k < 4 → e < 8 → (k, e) ≠ (m, d) → (t.die k e).powered = (s.die k e).powered) ∧
        (∀ p, p < 17408 → dieOf p = d →
          (t.arr m p).st = (if (s.arr m p).st = .off then .blank else (s.arr m p).st) ∧ (t.cal m p).cal = .invalid) ∧
        (∀ k p, k < 4 → p < 17408 → (k ≠ m ∨ dieOf p ≠ d) → t.arr k p = s.arr k p) ∧
        t.rows = s.rows ∧ t.masts = s.masts)))

/-- R402, R407, R408, R409: the device wakes itself before PWR_NEXT; a delayed wake begins when its slot delay is over, and not before; a wake
from DOUSE brings back the calibration of arrays whose AGE_EPOCH stands and, of an array that served a slot, starts the rewrite from its
image where that stands at the array's level map, and ends once no rewrite is left; a wake from FURL runs the slot that ran, or the other
where that fails its checks, or is in RECOVERY where both do, and then goes through its stages to SAIL. The model's own choices in it: log
entries 82 and 83. -/
def Obligations.Wakes : Prop :=
  ∀ s : State, s.pwr.groups.length = 4 →
    (s.pwr.furled = true → s.pwr.wake = none →
      (s.pwrNext ≠ 2 ^ 64 - 1 → s.pwrNext ≤ s.now + 5000000 → Completes .selfWake s (fun t =>
        t.pwr.wake = some ⟨.furl, 2, s.now, upTo 4, 0⟩ ∧ t = { s with pwr := t.pwr })) ∧
      (∀ u, s.lan.delayed = some u → u ≤ s.now → Completes .wakeSlotDelayEnd s (fun t =>
        t.pwr.wake = some ⟨.furl, 3, s.now, upTo 4, 0⟩ ∧
        t = { s with
          pwr := t.pwr
          lan := { s.lan with delayed := none } }))) ∧
    ((∀ u, s.lan.delayed = some u → s.now < u) → Completes .wakeSlotDelayEnd s (fun t => t = s)) ∧
    (∀ u, s.pwr.furled = false → s.lan.delayed = some u → u ≤ s.now → Completes .wakeSlotDelayEnd s (fun t =>
      t.lan = { s.lan with delayed := none } ∧
      (∀ g, g < 4 → t.groupSt g = if s.groupSt g = .reef then .sail else s.groupSt g) ∧
      (∀ g, g < 4 → s.groupSt g = .douse → ∃ x, t.pwr.wake = some x ∧ g ∈ x.groups))) ∧
    (s.pwr.furled = false → s.pwr.wake = none → ∀ g, g < 4 → s.groupSt g = .douse → s.pwrNext ≠ 2 ^ 64 - 1 →
      s.pwrNext ≤ s.now + 500000 → Completes .selfWake s (fun t =>
        ∃ x, t.pwr.wake = some x ∧ g ∈ x.groups ∧ x.src = .douse ∧ x.cause = 2 ∧ x.start = s.now)) ∧
    (∀ w, s.pwr.wake = some w → w.src = .douse → s.allPowered (w.groups.flatMap s.mastsOf) = true →
      (w.stage = 0 → Completes .douseWake s (fun t =>
        t.pwr.wake = some { w with stage := 1 } ∧
        (∀ x, x ∈ s.pwr.valid → (w.groups.flatMap s.mastsOf).contains x.1 = true → s.pwr.epochs.getD x.1 0 = s.age.epoch →
          (t.cal x.1 x.2).cal = .valid) ∧
        (s.pwr.served = [] → t.arrs = s.arrs ∧ t.rows = s.rows) ∧
        (∀ m p r, s.pwr.served = [(m, p)] → (w.groups.flatMap s.mastsOf).contains m = true → (s.arr m p).st = .blank →
          (s.arr m p).slot = some r → (s.arr m p).cmdBusy = false → (s.arr m p).write = none →
          (s.derivedAt r.ctx m (s.imageSlot m r)).isSome = true →
          (s.builtImage r.ctx m (s.imageSlot m r)).map (·.1) = some (s.arr m p).lmap →
          (t.arr m p).st = .writing ∧ (t.arr m p).slot = some r ∧ (t.arr m p).write.map (·.lmap) = some (s.arr m p).lmap))) ∧
      (w.stage ≠ 0 → s.stillWriting (s.pwr.served.filter (fun x => (w.groups.flatMap s.mastsOf).contains x.1)) = false →
        Completes .douseWake s (fun t =>
          t.pwr.wake = none ∧ (∀ g, g < 4 → g ∈ w.groups → t.groupSt g = .sail) ∧ t.pwr.lastFrom = 2 ∧
          t.pwr.lastCause = BitVec.ofNat 3 w.cause ∧ t.pwr.lastDur = satNat 32 (s.now - w.start)))) ∧
    (∀ w, s.pwr.wake = some w → w.src = .furl →
      (w.stage = 0 → Completes .furlWake s (fun t =>
        let m := ((s.bootForce).map (·.2.minSvn)).getD 0
        t.pwr.furled = false ∧ t.pwr.wake = some { w with stage := 1 } ∧ t.link.st = 1 ∧ t.link.trainAt = s.now ∧
        t.clk.state = (if (s.slotFail s.pwr.ranSlot m).isNone ∨ (s.slotFail (!s.pwr.ranSlot) m).isNone then 1 else 2) ∧
        t.time = s.time)) ∧
      (s.clk.state = 1 →
        (w.stage = 1 → Completes .furlWake s (fun t => t.pwr.wake = some { w with stage := 2 } ∧ t.flash = s.flash)) ∧
        (w.stage = 2 → s.allPowered (upTo 4) = true → Completes .furlWake s (fun t =>
          t.pwr.wake = some { w with stage := 3 } ∧ t.flash = s.flash)) ∧
        (w.stage = 3 → s.adc.busy = false → Completes .furlWake s (fun t => t.pwr.wake = some { w with stage := 4 } ∧ t.flash = s.flash)) ∧
        (w.stage = 4 → s.arrs.any (fun ka => ka.2.write.isSome || ka.2.fw.isSome) = false → Completes .furlWake s (fun t =>
          t.pwr.wake = none ∧ t.pwr.plan = [] ∧ t.pwr.factors = [] ∧ t.pwr.trims = [] ∧ t.pwr.ageing = [] ∧
          (∀ g, g < 4 → g ∈ w.groups → t.groupSt g = .sail) ∧ t.flash = s.flash))))

/-! The lanyard (chapter 18); clocks, resets and boot (chapter 19). -/

/-- R409, R414, R416: a frame addressed to the device is counted and acted on where its command is enabled, and rejected otherwise; a frame
addressed to another device changes nothing, and one of KIND 3 is bad. NOP does nothing more; REEF, DOUSE and FURL set targets of every
group, and nothing more in FURL; WAKE wakes the device at once, or after the slot delay where the frame names a job group or all (the
earlier of two delays holds), and is rejected within 10 ms of the last one while the line is NOISY; a RESET with another payload, and a
reserved command, are rejected. R413, R415, R416: bad frames are counted, also by the window of 1 s, which at its end sets NOISY above 1,000
and clears it at 100 or fewer; a stuck line is shown, and a frame in progress is then bad; while the line is stuck nothing is received or
counted, until it is not. The model's own choices in it: log entries 72 and 84. -/
def Obligations.LanyardRuns : Prop :=
  (∀ (s : State) (kind addr : Nat), kind < 4 → addr < 131072 → s.lan.stuck = false →
     let counted : State := { s with lan := { s.lan with accepted := s.lan.accepted + 1 } }
     let rejected : State := { s with lan := { s.lan with rej := satAdd s.lan.rej 1 } }
     (s.addressed kind addr = true →
       Completes (.nop kind addr) s (fun t => t = counted) ∧
       Completes (.lanyardReservedCmd kind addr) s (fun t => t = rejected) ∧
       (s.lan.sleepEn = true → s.pwr.furled = false → s.pwr.targets.length = 4 →
         Completes (.reef kind addr) s (fun t =>
           (∀ g, g < 4 → t.pwr.targets.getD g none = if s.groupSt g = .sail then some .reef else s.pwr.targets.getD g none) ∧
           t = { counted with pwr := { s.pwr with targets := t.pwr.targets } }) ∧
         Completes (.douse kind addr) s (fun t =>
           (∀ g, g < 4 → t.pwr.targets.getD g none =
             if s.groupSt g = .sail ∨ s.groupSt g = .reef then some .douse else s.pwr.targets.getD g none) ∧
           t = { counted with pwr := { s.pwr with targets := t.pwr.targets } }) ∧
         Completes (.furl kind addr) s (fun t => t = { counted with pwr := { s.pwr with furlTarget := true } })) ∧
       (s.lan.sleepEn = true → s.pwr.furled = true →
         Completes (.reef kind addr) s (fun t => t = counted) ∧ Completes (.douse kind addr) s (fun t => t = counted) ∧
         Completes (.furl kind addr) s (fun t => t = counted)) ∧
       (s.lan.sleepEn = false →
         Completes (.reef kind addr) s (fun t => t = rejected) ∧ Completes (.douse kind addr) s (fun t => t = rejected) ∧
         Completes (.furl kind addr) s (fun t => t = rejected)) ∧
       (s.lan.wakeEn = true → ¬(s.lan.noisy = true ∧ ∃ u, s.lan.wakeAt = some u ∧ s.now < u + 1000000) →
         (kind = 0 → s.pwr.furled = true → Completes (.wake kind addr) s (fun t =>
           t.pwr.wake = some (s.pwr.wake.getD ⟨.furl, 3, s.now, upTo 4, 0⟩) ∧
           t = { s with
             pwr := t.pwr
             lan := { s.lan with
               accepted := s.lan.accepted + 1
               wakeAt := some s.now } })) ∧
         (kind = 0 → s.pwr.furled = false → s.pwr.groups.length = 4 → Completes (.wake kind addr) s (fun t =>
           t.lan = { s.lan with
             accepted := s.lan.accepted + 1
             wakeAt := some s.now } ∧
           (∀ g, g < 4 → t.groupSt g = if s.groupSt g = .reef then .sail else s.groupSt g) ∧
           (∀ g, g < 4 → s.groupSt g = .douse → ∃ x, t.pwr.wake = some x ∧ g ∈ x.groups))) ∧
         (kind ≠ 0 → Completes (.wake kind addr) s (fun t =>
           let u := s.now + 10000 * ((s.lanHeld.map (fun x => x.2.2)).getD 0)
           t = { s with lan := { s.lan with
             accepted := s.lan.accepted + 1
             wakeAt := some s.now
             delayed := some (match s.lan.delayed with
               | some v => min u v
               | none => u) } }))) ∧
       (s.lan.wakeEn = false → Completes (.wake kind addr) s (fun t => t = rejected)) ∧
       (s.lan.wakeEn = true → s.lan.noisy = true → (∃ u, s.lan.wakeAt = some u ∧ s.now < u + 1000000) →
         Completes (.wake kind addr) s (fun t => t = rejected)) ∧
       (∀ payload, (s.lan.resetEn = false ∨ payload ≠ 0xC33C3C) →
         Completes (.reset kind addr payload) s (fun t => t = rejected))) ∧
     (kind = 3 → ∀ i, i ∈ [Instr.nop kind addr, .wake kind addr, .reef kind addr, .douse kind addr, .furl kind addr,
       .lanyardReservedCmd kind addr, .reset kind addr 0xC33C3C] → Completes i s (fun t => t = { s with lan := { s.lan with
         bad := satAdd s.lan.bad 1
         windowBad := s.lan.windowBad + 1 } })) ∧
     (kind ≠ 3 → s.addressed kind addr = false → ∀ i, i ∈ [Instr.nop kind addr, .wake kind addr, .reef kind addr, .douse kind addr, .furl kind addr,
       .lanyardReservedCmd kind addr, .reset kind addr 0xC33C3C] → Completes i s (fun t => t = s))) ∧
  (∀ s : State,
     (s.lan.stuck = false →
       Completes .lanyardBadFrame s (fun t => t = { s with lan := { s.lan with
         bad := satAdd s.lan.bad 1
         windowBad := s.lan.windowBad + 1 } }) ∧
       ∀ inFrame : Bool, Completes (.lanyardStuck inFrame) s (fun t => t = { s with lan := { s.lan with
         stuck := true
         stuckSeen := true
         bad := if inFrame then satAdd s.lan.bad 1 else s.lan.bad
         windowBad := if inFrame then s.lan.windowBad + 1 else s.lan.windowBad } })) ∧
     (s.lan.stuck = true →
       Completes .lanyardBadFrame s (fun t => t = s) ∧ (∀ inFrame : Bool, Completes (.lanyardStuck inFrame) s (fun t => t = s)) ∧
       ∀ kind addr, kind < 4 → addr < 131072 → ∀ i, i ∈ [Instr.nop kind addr, .wake kind addr, .reef kind addr, .douse kind addr,
         .furl kind addr, .lanyardReservedCmd kind addr, .reset kind addr 0xC33C3C] → Completes i s (fun t => t = s)) ∧
     Completes .lanyardUnstuck s (fun t => t = { s with lan := { s.lan with stuck := false } }) ∧
     (s.now < s.lan.windowAt + 100000000 → Completes .lanyardWindowEnd s (fun t => t = s)) ∧
     (s.lan.windowAt + 100000000 ≤ s.now → Completes .lanyardWindowEnd s (fun t => t = { s with lan := { s.lan with
       noisy := if 1000 < s.lan.windowBad then true else if s.lan.windowBad ≤ 100 then false else s.lan.noisy
       noisySeen := s.lan.noisySeen || decide (1000 < s.lan.windowBad)
       windowBad := 0
       windowAt := s.lan.windowAt + 100000000 } })))

/-- R397, R423, R426, R427: a cold reset and an input fault leave the reset values and the flash; a warm reset keeps LOCAL_TIME, the flash, the
operator key with its lock and the error log, counts itself, has LAST 2 (a warm reset) and the identity key gone, and leaves every array OFF
or RETIRED, no plan in force, and no batch steps, entries, contexts, rows, HBM contents, streams or mailboxes; each ends DEVICE_FATAL, but a
warm reset of a device whose crystal has failed (R421). R421, R437: a failed crystal, root PLL or memory PLL is DEVICE_FATAL and shown in
CLK_STAT, the stack's contents being lost with its PLL; an optical PLL's loss is a DEGRADED record (the record alone where no halyard of the
engine is UP), and every halyard of the engine loses its lanes and is no longer UP, or, for the last engine, the host link is reset; the
first expiry of the management core's watchdog halts the job, one during a restart, or a fault of the security core, the device. The model's
own choices in it: log entry 80. -/
def Obligations.ResetsAndFailures : Prop :=
  (∀ s : State,
     let cold : State := { State.reset with
       pending := s.pending
       freeCtr := s.freeCtr
       out := s.out
       flash := s.flash }
     Completes .coldReset s (fun t => t = cold ∧ t.devFatal = false) ∧
     Completes .inputFault s (fun t => t = cold) ∧
     (∀ kind addr, kind < 4 → addr < 131072 → s.lan.stuck = false → s.addressed kind addr = true → s.lan.resetEn = true →
       s.clk.xtalOk = true → Completes (.reset kind addr 0xC33C3C) s (fun t =>
         t.devFatal = false ∧ t.time = s.time ∧ t.flash = s.flash ∧ t.pending = s.pending ∧ t.sail.opkey = s.sail.opkey ∧
         t.sail.locked = s.sail.locked ∧ t.integ.log = s.integ.log ∧ t.integ.tail = s.integ.tail ∧ t.integ.head = s.integ.head ∧
         t.clk.last = 2 ∧ t.clk.warm = satAdd s.clk.warm 1 ∧ t.clk.state = 0 ∧ t.clk.idKey = [] ∧ t.sail.inForce = false ∧
         (∀ m p, (t.arr m p).st = .off ∨ (t.arr m p).st = .retired) ∧
         t.batches = [] ∧ t.entries = [] ∧ t.rows = [] ∧ t.hbm = [] ∧ t.ctxs = [] ∧ t.mbxs = [] ∧ t.streams = [])) ∧
     (∀ kind addr, kind < 4 → addr < 131072 → s.lan.stuck = false → s.addressed kind addr = true → s.lan.resetEn = true →
       s.clk.xtalOk = false → Completes (.reset kind addr 0xC33C3C) s (fun t => t.devFatal = s.devFatal ∧ t.time = s.time))) ∧
  (∀ s : State,
     Completes .crystalFailure s (fun t => t.devFatal = true ∧ t.clk = { s.clk with xtalOk := false }) ∧
     Completes .rootPllUnlock s (fun t => t.devFatal = true ∧ t.clk = { s.clk with rootLock := false }) ∧
     (∀ k, k < 8 → Completes (.hbmPllUnlock k) s (fun t =>
       t.devFatal = true ∧ t.clk.hbmLock.getLsbD k = false ∧ (∀ j, j < 8 → j ≠ k → t.clk.hbmLock.getLsbD j = s.clk.hbmLock.getLsbD j) ∧
       (∀ a, a < 2 ^ 37 → t.hbmByte k a = 0))) ∧
     (∀ e, e < 9 → Completes (.opticalPllUnlock e) s (fun t =>
       t.clk.optLock.getLsbD e = false ∧ (∀ j, j < 9 → j ≠ e → t.clk.optLock.getLsbD j = s.clk.optLock.getLsbD j) ∧ t.devFatal = s.devFatal ∧
       (e = 8 ∨ (∀ i, i < 4 → (s.port (4 * e + i)).st ≠ .up) → t.integ = (s.logOnly .degraded (State.clockInfo (0x520 + e))).integ) ∧
       (e < 8 → ∀ i, i < 4 → (t.port (4 * e + i)).lanes = 0 ∧ (t.port (4 * e + i)).st ≠ .up) ∧
       (e = 8 → t.link.st = (if s.pwr.furled ∨ s.link.st = 0 then 0 else 1) ∧ t.link.resets = s.link.resets + 1 ∧ t.link.sessions = []))) ∧
     (∀ e, e < 9 → Completes (.opticalPllLock e) s (fun t =>
       t.clk.optLock.getLsbD e = true ∧ (∀ j, j < 9 → j ≠ e → t.clk.optLock.getLsbD j = s.clk.optLock.getLsbD j) ∧
       t = { s with clk := { s.clk with optLock := t.clk.optLock } })) ∧
     (s.devFatal = false → s.integ.phase = 0 → Completes .mgmtWatchdog s (fun t =>
       t.integ.phase = 1 ∧ t.batches = [] ∧ t.integ.tail = s.integ.tail + 1)) ∧
     (s.integ.phase ≠ 0 → Completes .mgmtWatchdog s (fun t => t.devFatal = true)) ∧
     Completes .securityCoreFault s (fun t => t.devFatal = true))

/-- R432 to R435: ROM_BOOT, once, locks the clocks, starts the link's training and chooses a slot: with a boot record in force and its slot
passing the checks, that slot, else the other; a slot on trial spends a try, written to the record's other copy, and with no tries left
gives way to the other slot; without a record the slots are A, then B; with no slot that passes, RECOVERY. FIRMWARE_RELEASE then runs the
slot chosen and zeroes the window's regions; before a slot is chosen it does nothing. The model's own choices in it: log entries 79 and 80. -/
def Obligations.RomAndRelease : Prop :=
  ∀ s : State, s.clk.state = 0 → s.devFatal = false → s.pwr.furled = false →
    (s.clk.chosen = none → Completes .romBoot s (fun t =>
      t.clk.xtalOk = true ∧ t.clk.rootLock = true ∧ t.clk.hbmLock = 0xFF ∧ t.clk.optLock = 0x1FF ∧ t.clk.romAt = s.now ∧
      t.link.st = 1 ∧ t.link.trainAt = s.now ∧
      (∀ c r, s.bootForce = some (c, r) → r.trial = false →
        match s.slotFail r.active r.minSvn, s.slotFail (!r.active) r.minSvn with
        | none, _ => t.clk.chosen = some r.active ∧ t.clk.slot = r.active ∧ t.clk.fallback = false ∧ t.clk.state = 0 ∧ t.flash = s.flash
        | some _, none => t.clk.chosen = some (!r.active) ∧ t.clk.slot = !r.active ∧ t.clk.fallback = true ∧ t.clk.state = 0
        | some _, some _ => t.clk.chosen = none ∧ t.clk.state = 2 ∧ t.flash = s.flash) ∧
      (∀ c r, s.bootForce = some (c, r) → r.trial = true → 0 < r.tries →
        match s.slotFail r.active r.minSvn, s.slotFail (!r.active) r.minSvn with
        | none, _ => t.clk.chosen = some r.active ∧ t.clk.slot = r.active ∧ t.clk.fallback = false ∧ t.clk.state = 0 ∧
            t.flashRead (0x10000 * (1 - c)) 64 = bootBytes { r with
              seqno := (r.seqno + 1) % 2 ^ 32
              tries := r.tries - 1 }
        | some _, none => t.clk.chosen = some (!r.active) ∧ t.clk.slot = !r.active ∧ t.clk.fallback = true ∧ t.clk.state = 0
        | some _, some _ => t.clk.chosen = none ∧ t.clk.state = 2) ∧
      (s.bootForce = none →
        match s.slotFail false 0, s.slotFail true 0 with
        | none, _ => t.clk.chosen = some false ∧ t.clk.slot = false ∧ t.clk.fallback = false ∧ t.clk.state = 0
        | some _, none => t.clk.chosen = some true ∧ t.clk.slot = true ∧ t.clk.fallback = true ∧ t.clk.state = 0
        | some _, some _ => t.clk.chosen = none ∧ t.clk.state = 2) ∧
      (∀ c r, s.bootForce = some (c, r) → r.trial = true → r.tries = 0 →
        match s.slotFail (!r.active) r.minSvn with
        | none => t.clk.chosen = some (!r.active) ∧ t.clk.slot = !r.active ∧ t.clk.fallback = true ∧ t.clk.state = 0
        | some _ => t.clk.chosen = none ∧ t.clk.state = 2 ∧ t.flash = s.flash))) ∧
    (s.clk.chosen ≠ none → Completes .romBoot s (fun t => t = s)) ∧
    (s.clk.chosen = none → Completes .firmwareRelease s (fun t => t = s)) ∧
    (∀ b, s.clk.chosen = some b → Completes .firmwareRelease s (fun t =>
      t.clk.state = 1 ∧ t.clk.chosen = none ∧ t.clk.ticks = satNat 32 (s.now - s.clk.romAt) ∧ t.clk.slot = s.clk.slot ∧
      (∀ k a, a < 2 ^ 37 → t.hbmByte k a = if 3840 * 1048576 ≤ a ∧ a < 4096 * 1048576 then 0 else s.hbmByte k a) ∧
      t.pwr.wake = s.pwr.wake ∧ t.flash = s.flash ∧ t.time = s.time))
end

