-- ==== Sys2Proof/Laws/Bank.lean ====
section
/-! SUPPORT. Sparse banks: a read after a write, and the canonical form that every write keeps. -/

namespace Sys2Proof.Machine

variable {V : Type} {d : V}

theorem tabGet_tabDrop : ∀ (t : Tab V) (k x : Nat), tabGet d (tabDrop k t) x = if x = k then d else tabGet d t x
  | [], k, x => by simp [tabDrop, tabGet]
  | (k', v) :: t, k, x => by
    by_cases h : k' = k <;> by_cases hx : x = k
    · simp [tabDrop, h, hx, tabGet_tabDrop t k k]
    · have : ¬ k = x := fun e => hx e.symm
      simp [tabDrop, h, hx, this, tabGet, tabGet_tabDrop t k x]
    · have : ¬ k' = x := fun e => h (by omega)
      subst hx
      simp [tabDrop, h, tabGet, tabGet_tabDrop t x x]
    · simp [tabDrop, h, hx, tabGet, tabGet_tabDrop t k x]

theorem tabDrop_all (q : Nat → Bool) : ∀ (t : Tab V) (k : Nat), (t.all (fun kv => q kv.1)) = true →
    ((tabDrop k t).all (fun kv => q kv.1)) = true
  | [], _, _ => rfl
  | (k', v) :: t, k, h => by
    simp only [List.all_cons, Bool.and_eq_true] at h
    by_cases hk : k' = k
    · simp only [tabDrop, hk, if_true]
      exact tabDrop_all q t k h.2
    · simp only [tabDrop, hk, if_false, List.all_cons, Bool.and_eq_true]
      exact ⟨h.1, tabDrop_all q t k h.2⟩

variable [DecidableEq V]

/-- A read after a write. -/
theorem tabGet_tabSet : ∀ (t : Tab V) (k : Nat) (v : V) (x : Nat),
    tabGet d (tabSet d t k v) x = if x = k then v else tabGet d t x
  | [], k, v, x => by
    by_cases hv : v = d <;> by_cases hx : x = k <;> simp [tabSet, tabCons, tabGet, hv, hx]
    exact fun h => absurd h.symm hx
  | (k', v') :: t, k, v, x => by
    simp only [tabSet]
    by_cases h1 : k < k'
    · by_cases hv : v = d <;> by_cases hx : x = k
      · have : ¬ k' = x := by omega
        simp [h1, tabCons, hv, hx, tabGet, tabGet_tabDrop]
        omega
      · simp [h1, tabCons, hv, hx, tabGet, tabGet_tabDrop]
      · simp [h1, tabCons, hv, hx, tabGet]
      · have : ¬ k = x := fun e => hx e.symm
        simp [h1, tabCons, hv, hx, this, tabGet, tabGet_tabDrop]
    · by_cases h2 : k = k'
      · subst h2
        by_cases hv : v = d <;> by_cases hx : x = k
        · simp [tabCons, hv, hx, tabGet_tabDrop]
        · have : ¬ k = x := fun e => hx e.symm
          simp [tabCons, hv, hx, this, tabGet, tabGet_tabDrop]
        · simp [tabCons, hv, hx, tabGet]
        · have : ¬ k = x := fun e => hx e.symm
          simp [tabCons, hv, hx, this, tabGet, tabGet_tabDrop]
      · simp only [h1, h2, if_false, tabGet]
        by_cases hx : k' = x
        · have : ¬ x = k := fun e => h2 (by omega)
          simp [hx, this]
        · simp only [hx, if_false]
          exact tabGet_tabSet t k v x

/-- A read of the number just written. -/
@[simp] theorem tabGet_tabSet_self (t : Tab V) (k : Nat) (v : V) : tabGet d (tabSet d t k v) k = v := by
  rw [tabGet_tabSet, if_pos rfl]

/-- A read of another number. -/
theorem tabGet_tabSet_ne (t : Tab V) (k : Nat) (v : V) (x : Nat) (h : x ≠ k) : tabGet d (tabSet d t k v) x = tabGet d t x := by
  rw [tabGet_tabSet, if_neg h]

theorem tabWfFrom_mono : ∀ (t : Tab V) (lo lo' : Nat), lo' ≤ lo → tabWfFrom d lo t = true → tabWfFrom d lo' t = true
  | [], _, _, _, _ => rfl
  | (k, v) :: t, lo, lo', h, w => by
    simp [tabWfFrom] at w ⊢
    exact ⟨⟨by omega, w.1.2⟩, w.2⟩

theorem tabWfFrom_tabCons (t : Tab V) (lo k : Nat) (v : V) (h : lo ≤ k) (w : tabWfFrom d (k + 1) t = true) :
    tabWfFrom d lo (tabCons d k v t) = true := by
  by_cases hv : v = d
  · simp [tabCons, hv]
    exact tabWfFrom_mono t (k + 1) lo (by omega) w
  · simp [tabCons, hv, tabWfFrom, h, w]

theorem tabWfFrom_tabDrop : ∀ (t : Tab V) (lo k : Nat), tabWfFrom d lo t = true → tabWfFrom d lo (tabDrop k t) = true
  | [], _, _, _ => rfl
  | (k', v) :: t, lo, k, w => by
    simp [tabWfFrom] at w
    have ih := tabWfFrom_tabDrop t (k' + 1) k w.2
    by_cases h : k' = k
    · simp only [tabDrop, h, if_true]
      exact tabWfFrom_mono _ (k' + 1) lo (by omega) ih
    · simp [tabDrop, h, tabWfFrom, w, ih]

theorem tabWfFrom_tabSet : ∀ (t : Tab V) (lo k : Nat) (v : V), lo ≤ k → tabWfFrom d lo t = true →
    tabWfFrom d lo (tabSet d t k v) = true
  | [], lo, k, v, h, _ => tabWfFrom_tabCons [] lo k v h rfl
  | (k', v') :: t, lo, k, v, h, w => by
    simp [tabWfFrom] at w
    simp only [tabSet]
    by_cases h1 : k < k'
    · simp only [h1, if_true]
      exact tabWfFrom_tabCons _ lo k v h (by simp [tabWfFrom, w, tabWfFrom_tabDrop]; omega)
    · by_cases h2 : k = k'
      · subst h2
        simp only [Nat.lt_irrefl, if_false, if_true]
        exact tabWfFrom_tabCons _ lo k v h (tabWfFrom_tabDrop t _ k w.2)
      · simp only [h1, h2, if_false]
        simp [tabWfFrom, w]
        exact tabWfFrom_tabSet t (k' + 1) k v (by omega) w.2

/-- A write keeps the canonical form. -/
theorem tabWf_tabSet (t : Tab V) (k : Nat) (v : V) (w : tabWf d t = true) : tabWf d (tabSet d t k v) = true :=
  tabWfFrom_tabSet t 0 k v (Nat.zero_le k) w

theorem tabWfFrom_filter (p : Nat × V → Bool) : ∀ (t : Tab V) (lo : Nat), tabWfFrom d lo t = true →
    tabWfFrom d lo (t.filter p) = true
  | [], _, _ => rfl
  | (k, v) :: t, lo, w => by
    simp [tabWfFrom] at w
    by_cases h : p (k, v) = true
    · simp [List.filter, h, tabWfFrom, w]
      exact tabWfFrom_filter p t (k + 1) w.2
    · simp [List.filter, h]
      exact tabWfFrom_mono _ (k + 1) lo (by omega) (tabWfFrom_filter p t (k + 1) w.2)

/-- Dropping entries keeps the canonical form. -/
theorem tabWf_filter (p : Nat × V → Bool) (t : Tab V) (w : tabWf d t = true) : tabWf d (t.filter p) = true :=
  tabWfFrom_filter p t 0 w

theorem tabWfFrom_tabMapAll (f : Nat → V → V) : ∀ (t : Tab V) (lo : Nat), tabWfFrom d lo t = true →
    tabWfFrom d lo (tabMapAll d f t) = true
  | [], _, _ => rfl
  | (k, v) :: t, lo, w => by
    simp [tabWfFrom] at w
    exact tabWfFrom_tabCons _ lo k _ w.1.1 (tabWfFrom_tabMapAll f t (k + 1) w.2)

/-- Changing every entry keeps the canonical form. -/
theorem tabWf_tabMapAll (f : Nat → V → V) (t : Tab V) (w : tabWf d t = true) : tabWf d (tabMapAll d f t) = true :=
  tabWfFrom_tabMapAll f t 0 w

/-- Every listed number of a kind stays of that kind, where the number written is of it. -/
theorem tabSet_all (q : Nat → Bool) : ∀ (t : Tab V) (k : Nat) (v : V), q k = true → (t.all (fun kv => q kv.1)) = true →
    ((tabSet d t k v).all (fun kv => q kv.1)) = true
  | [], k, v, hk, _ => by by_cases hv : v = d <;> simp [tabSet, tabCons, hv, hk]
  | (k', v') :: t, k, v, hk, h => by
    simp only [List.all_cons, Bool.and_eq_true] at h
    have hd := tabDrop_all q t k h.2
    simp only [tabSet]
    by_cases h1 : k < k'
    · by_cases hv : v = d
      · simp only [h1, if_true, tabCons, hv, List.all_cons, Bool.and_eq_true]
        exact ⟨h.1, hd⟩
      · simp only [h1, if_true, tabCons, hv, if_false, List.all_cons, Bool.and_eq_true]
        exact ⟨hk, h.1, hd⟩
    · by_cases h2 : k = k'
      · by_cases hv : v = d
        · simp only [h1, h2, if_true, if_false, tabCons, hv, Nat.lt_irrefl]
          rw [← h2]; exact hd
        · simp only [h2, if_true, if_false, tabCons, hv, Nat.lt_irrefl, List.all_cons, Bool.and_eq_true]
          exact ⟨h.1, by rw [← h2]; exact hd⟩
      · simp only [h1, h2, if_false, List.all_cons, Bool.and_eq_true]
        exact ⟨h.1, tabSet_all q t k v hk h.2⟩

end Sys2Proof.Machine
end

