-- ==== Sys2Proof/Laws/State.lean ====
section
/-! SUPPORT. Reads of State after its writers, and what the form of every meaning keeps. -/

namespace Sys2Proof.Machine

/-! The form of a meaning. -/

/-- A command that is taken completes with what its meaning makes. -/
theorem completes_act {i : Instr} {s : State} {P : State → Prop} {ok : Bool} {f : State → State} (h : exec i s = act ok s f)
    (hok : ok = true) (hp : P (s.keepBoot (f s))) : Completes i s P :=
  ⟨_, by rw [h, act, if_pos hok], hp⟩

theorem completes_actBoot {i : Instr} {s : State} {P : State → Prop} {ok : Bool} {f : State → State} (h : exec i s = actBoot ok s f)
    (hok : ok = true) (hp : P (s.keepFlash (f s))) : Completes i s P :=
  ⟨_, by rw [h, actBoot, if_pos hok], hp⟩

theorem completes_actFlash {i : Instr} {s : State} {P : State → Prop} {ok : Bool} {f : State → State} (h : exec i s = actFlash ok s f)
    (hok : ok = true) (hp : P (s.keepLife (f s))) : Completes i s P :=
  ⟨_, by rw [h, actFlash, if_pos hok], hp⟩

theorem completes_actReset {i : Instr} {s : State} {P : State → Prop} {ok : Bool} {f : State → State}
    (h : exec i s = actReset ok s f) (hok : ok = true) (hp : P { f s with
      pending := s.pending
      flash := s.flash }) : Completes i s P :=
  ⟨_, by rw [h, actReset, if_pos hok], hp⟩

namespace State

variable (s t : State)

@[simp] theorem keepLife_pending : (s.keepLife t).pending = s.pending := rfl
@[simp] theorem keepLife_time : (s.keepLife t).time = s.time := rfl
@[simp] theorem keepFlash_pending : (s.keepFlash t).pending = s.pending := rfl
@[simp] theorem keepFlash_time : (s.keepFlash t).time = s.time := rfl
@[simp] theorem keepFlash_flash : (s.keepFlash t).flash = s.flash := rfl
@[simp] theorem keepBoot_pending : (s.keepBoot t).pending = s.pending := rfl
@[simp] theorem keepBoot_time : (s.keepBoot t).time = s.time := rfl
@[simp] theorem keepBoot_flash : (s.keepBoot t).flash = s.flash := rfl
@[simp] theorem keepBoot_idKey : (s.keepBoot t).clk.idKey = s.clk.idKey := rfl
@[simp] theorem keepBoot_state : (s.keepBoot t).clk.state = s.clk.state := rfl

/-- What the form of a meaning leaves as the meaning has it. -/
@[simp] theorem keepBoot_masts : (s.keepBoot t).masts = t.masts := rfl
@[simp] theorem keepBoot_dies : (s.keepBoot t).dies = t.dies := rfl
@[simp] theorem keepBoot_arrs : (s.keepBoot t).arrs = t.arrs := rfl
@[simp] theorem keepBoot_adc : (s.keepBoot t).adc = t.adc := rfl
@[simp] theorem keepBoot_trim : (s.keepBoot t).trim = t.trim := rfl
@[simp] theorem keepBoot_age : (s.keepBoot t).age = t.age := rfl
@[simp] theorem keepBoot_seq : (s.keepBoot t).seq = t.seq := rfl
@[simp] theorem keepBoot_entries : (s.keepBoot t).entries = t.entries := rfl
@[simp] theorem keepBoot_hbm : (s.keepBoot t).hbm = t.hbm := rfl
@[simp] theorem keepBoot_out : (s.keepBoot t).out = t.out := rfl
@[simp] theorem keepBoot_rig : (s.keepBoot t).rig = t.rig := rfl
@[simp] theorem keepBoot_ports : (s.keepBoot t).ports = t.ports := rfl
@[simp] theorem keepBoot_mbxs : (s.keepBoot t).mbxs = t.mbxs := rfl
@[simp] theorem keepBoot_link : (s.keepBoot t).link = t.link := rfl
@[simp] theorem keepBoot_pwr : (s.keepBoot t).pwr = t.pwr := rfl
@[simp] theorem keepBoot_lan : (s.keepBoot t).lan = t.lan := rfl
@[simp] theorem keepBoot_streams : (s.keepBoot t).streams = t.streams := rfl
@[simp] theorem keepBoot_batches : (s.keepBoot t).batches = t.batches := rfl
@[simp] theorem keepBoot_kv : (s.keepBoot t).kv = t.kv := rfl
@[simp] theorem keepBoot_ctxs : (s.keepBoot t).ctxs = t.ctxs := rfl

/-! The readers of banks, after the form of a meaning. -/

@[simp] theorem keepBoot_mast (m : Nat) : (s.keepBoot t).mast m = t.mast m := rfl
@[simp] theorem keepBoot_die (m d : Nat) : (s.keepBoot t).die m d = t.die m d := rfl
@[simp] theorem keepBoot_arr (m p : Nat) : (s.keepBoot t).arr m p = t.arr m p := rfl
@[simp] theorem keepBoot_cal (m p : Nat) : (s.keepBoot t).cal m p = t.cal m p := rfl
@[simp] theorem keepBoot_fac (m p g : Nat) : (s.keepBoot t).fac m p g = t.fac m p g := rfl
@[simp] theorem keepBoot_row (m p r : Nat) : (s.keepBoot t).row m p r = t.row m p r := rfl
@[simp] theorem keepBoot_colWord (m p j : Nat) : (s.keepBoot t).colWord m p j = t.colWord m p j := rfl
@[simp] theorem keepBoot_atrim (m p : Nat) : (s.keepBoot t).atrim m p = t.atrim m p := rfl
@[simp] theorem keepBoot_ageGrp (m g : Nat) : (s.keepBoot t).ageGrp m g = t.ageGrp m g := rfl
@[simp] theorem keepBoot_laser (e : Nat) : (s.keepBoot t).laser e = t.laser e := rfl
@[simp] theorem keepBoot_spl (m p : Nat) : (s.keepBoot t).spl m p = t.spl m p := rfl
@[simp] theorem keepBoot_region (m p : Nat) : (s.keepBoot t).region m p = t.region m p := rfl
@[simp] theorem keepBoot_acc (m n : Nat) : (s.keepBoot t).acc m n = t.acc m n := rfl
@[simp] theorem keepBoot_entry (i : Nat) : (s.keepBoot t).entry i = t.entry i := rfl
@[simp] theorem keepBoot_ctx (c : Nat) : (s.keepBoot t).ctx c = t.ctx c := rfl
@[simp] theorem keepBoot_vec (v : Nat) : (s.keepBoot t).vec v = t.vec v := rfl
@[simp] theorem keepBoot_mbx (k : Nat) : (s.keepBoot t).mbx k = t.mbx k := rfl
@[simp] theorem keepBoot_pdesc (n : Nat) : (s.keepBoot t).pdesc n = t.pdesc n := rfl
@[simp] theorem keepBoot_tbl (i : Nat) : (s.keepBoot t).tbl i = t.tbl i := rfl
@[simp] theorem keepBoot_input (i : Nat) : (s.keepBoot t).input i = t.input i := rfl
@[simp] theorem keepBoot_xr (i : Nat) : (s.keepBoot t).xr i = t.xr i := rfl
@[simp] theorem keepBoot_smpOf (i : Nat) : (s.keepBoot t).smpOf i = t.smpOf i := rfl
@[simp] theorem keepBoot_reel (i : Nat) : (s.keepBoot t).reel i = t.reel i := rfl
@[simp] theorem keepBoot_pfx (c x : Nat) : (s.keepBoot t).pfx c x = t.pfx c x := rfl
@[simp] theorem keepBoot_stream (m : Nat) : (s.keepBoot t).stream m = t.stream m := rfl
@[simp] theorem keepBoot_line (m l : Nat) : (s.keepBoot t).line m l = t.line m l := rfl
@[simp] theorem keepBoot_inboxOf (m : Nat) : (s.keepBoot t).inboxOf m = t.inboxOf m := rfl
@[simp] theorem keepBoot_spn (m : Nat) : (s.keepBoot t).spn m = t.spn m := rfl
@[simp] theorem keepBoot_spindle (m i : Nat) : (s.keepBoot t).spindle m i = t.spindle m i := rfl
@[simp] theorem keepBoot_port (p : Nat) : (s.keepBoot t).port p = t.port p := rfl
@[simp] theorem keepBoot_hbmByte (k o : Nat) : (s.keepBoot t).hbmByte k o = t.hbmByte k o := rfl

/-- A meaning that leaves alone what the form keeps answers its own state. -/
theorem keepLife_eq {s t : State} (h1 : t.pending = s.pending) (h2 : t.time = s.time) (h3 : t.sail.opkey = s.sail.opkey)
    (h4 : t.sail.locked = s.sail.locked) (h5 : t.integ.jobState = s.integ.jobState) : s.keepLife t = t := by
  have e1 : (if s.sail.locked then s.sail.opkey else t.sail.opkey) = t.sail.opkey := by rw [h3]; split <;> rfl
  have e2 : (s.sail.locked || t.sail.locked) = t.sail.locked := by rw [h4]; exact Bool.or_self _
  have e3 : (if s.integ.jobState = 5 then 5 else t.integ.jobState) = t.integ.jobState := by
    rw [h5]; split <;> simp_all
  simp only [keepLife, e1, e2, e3, ← h1, ← h2]

theorem keepFlash_eq {s t : State} (h1 : t.pending = s.pending) (h2 : t.time = s.time) (h3 : t.sail.opkey = s.sail.opkey)
    (h4 : t.sail.locked = s.sail.locked) (h5 : t.integ.jobState = s.integ.jobState) (h6 : t.flash = s.flash) :
    s.keepFlash t = t := by
  simp only [keepFlash, keepLife_eq h1 h2 h3 h4 h5, ← h6]

theorem keepBoot_eq {s t : State} (h1 : t.pending = s.pending) (h2 : t.time = s.time) (h3 : t.sail.opkey = s.sail.opkey)
    (h4 : t.sail.locked = s.sail.locked) (h5 : t.integ.jobState = s.integ.jobState) (h6 : t.flash = s.flash)
    (h7 : t.clk.idKey = s.clk.idKey) (h8 : t.clk.state = s.clk.state) : s.keepBoot t = t := by
  simp only [keepBoot, keepFlash_eq h1 h2 h3 h4 h5 h6, ← h7, ← h8]

/-- As `keepBoot_eq`, for a meaning that leaves those parts of State whole. -/
theorem keepBoot_of {s t : State} (h1 : t.pending = s.pending) (h2 : t.time = s.time) (h3 : t.sail = s.sail)
    (h5 : t.integ = s.integ) (h6 : t.flash = s.flash) (h7 : t.clk = s.clk) : s.keepBoot t = t :=
  keepBoot_eq h1 h2 (by rw [h3]) (by rw [h3]) (by rw [h5]) h6 (by rw [h7]) (by rw [h7])

/-! Reads after writes. -/

@[simp] theorem mast_setMast (m : Nat) (v : Mast) : (s.setMast m v).mast m = v := tabGet_tabSet_self ..
@[simp] theorem die_setDie (m d : Nat) (v : Die) : (s.setDie m d v).die m d = v := tabGet_tabSet_self ..
@[simp] theorem arr_setArr (m p : Nat) (v : Arr) : (s.setArr m p v).arr m p = v := tabGet_tabSet_self ..
@[simp] theorem cal_setCal (m p : Nat) (v : ArrCal) : (s.setCal m p v).cal m p = v := tabGet_tabSet_self ..
@[simp] theorem atrim_setAtrim (m p : Nat) (v : ArrTrim) : (s.setAtrim m p v).atrim m p = v := tabGet_tabSet_self ..
@[simp] theorem laser_setLaser (e : Nat) (v : Bool × W16) : (s.setLaser e v).laser e = v := tabGet_tabSet_self ..
@[simp] theorem spl_setSpl (m p : Nat) (v : Spl) : (s.setSpl m p v).spl m p = v := tabGet_tabSet_self ..
@[simp] theorem acc_setAcc (m n : Nat) (v : Acc) : (s.setAcc m n v).acc m n = v := tabGet_tabSet_self ..
@[simp] theorem entry_setEntry (i : Nat) (v : SeqEntry) : (s.setEntry i v).entry i = v := tabGet_tabSet_self ..
@[simp] theorem ctx_setCtx (c : Nat) (v : Ctx) : (s.setCtx c v).ctx c = v := tabGet_tabSet_self ..
@[simp] theorem vec_setVec (k : Nat) (v : Vec) : (s.setVec k v).vec k = v := tabGet_tabSet_self ..
@[simp] theorem mbx_setMbx (k : Nat) (v : Mbx) : (s.setMbx k v).mbx k = v := tabGet_tabSet_self ..
@[simp] theorem port_setPort (p : Nat) (v : Port) : (s.setPort p v).port p = v := tabGet_tabSet_self ..
@[simp] theorem stream_setStream (m : Nat) (v : Stream) : (s.setStream m v).stream m = v := tabGet_tabSet_self ..
@[simp] theorem spindle_setSpindle (m i : Nat) (v : Spindle) : (s.setSpindle m i v).spindle m i = v := tabGet_tabSet_self ..
@[simp] theorem spn_setSpn (m : Nat) (v : Spn) : (s.setSpn m v).spn m = v := tabGet_tabSet_self ..
@[simp] theorem reel_setReel (i : Nat) (v : Reel) : (s.setReel i v).reel i = v := tabGet_tabSet_self ..
@[simp] theorem hbmByte_setHbmByte (k o : Nat) (b : Byte) : (s.setHbmByte k o b).hbmByte k o = b := tabGet_tabSet_self ..
@[simp] theorem flashByte_setFlashByte (a : Nat) (b : Byte) : (s.setFlashByte a b).flashByte a = b := tabGet_tabSet_self ..

theorem hbmByte_setHbmByte_ne (k o k' o' : Nat) (b : Byte) (h : k' * 2 ^ 37 + o' ≠ k * 2 ^ 37 + o) :
    (s.setHbmByte k o b).hbmByte k' o' = s.hbmByte k' o' := tabGet_tabSet_ne _ _ _ _ h

end State

/-! Memories keep their canonical form. -/

theorem State.hbm_wf_setHbmByte (s : State) (k o : Nat) (b : Byte) (h : Memory.wf 0 s.hbm = true) :
    Memory.wf 0 (s.setHbmByte k o b).hbm = true := tabWf_tabSet _ _ _ h

theorem State.hbm_wf_hbmWrite : ∀ (l : List Byte) (s : State) (k o : Nat), Memory.wf 0 s.hbm = true →
    Memory.wf 0 (s.hbmWrite k o l).hbm = true
  | [], _, _, _, h => h
  | b :: t, s, k, o, h => State.hbm_wf_hbmWrite t (s.setHbmByte k o b) k (o + 1) (s.hbm_wf_setHbmByte k o b h)

/-- A write of bytes leaves every other byte of HBM alone. -/
theorem State.hbmByte_hbmWrite : ∀ (l : List Byte) (s : State) (k o k' o' : Nat), o + l.length ≤ 2 ^ 37 → o' < 2 ^ 37 →
    ¬ (k' = k ∧ o ≤ o' ∧ o' < o + l.length) → (s.hbmWrite k o l).hbmByte k' o' = s.hbmByte k' o'
  | [], _, _, _, _, _, _, _, _ => rfl
  | b :: t, s, k, o, k', o', h, h', hn => by
    simp only [List.length_cons] at h hn
    have ih := State.hbmByte_hbmWrite t (s.setHbmByte k o b) k (o + 1) k' o' (by omega) h' (by omega)
    simp only [State.hbmWrite]
    rw [ih]
    exact s.hbmByte_setHbmByte_ne k o k' o' b (by omega)

theorem State.flashOk_setFlashByte (s : State) (a : Nat) (b : Byte) (ha : a < flashBytes) (h : s.FlashOk) :
    (s.setFlashByte a b).FlashOk :=
  ⟨tabWf_tabSet _ _ _ h.1, tabSet_all (fun a => decide (a < flashBytes)) s.flash a b (by simpa using ha) h.2⟩

theorem State.flashOk_flashWrite : ∀ (l : List Byte) (s : State) (a : Nat), a + l.length ≤ flashBytes → s.FlashOk →
    (s.flashWrite a l).FlashOk
  | [], _, _, _, h => h
  | b :: t, s, a, ha, h => by
    simp only [List.length_cons] at ha
    exact State.flashOk_flashWrite t _ (a + 1) (by omega) (s.flashOk_setFlashByte a b (by omega) h)

end Sys2Proof.Machine
end

