-- ==== Sys2Proof/Laws/Frames.lean ====
section
/-! SUPPORT. What the shared operations touch: each lemma says once which parts of State an operation may change, as an equation
with the state before, so that every other part is unchanged by definition. -/

namespace Sys2Proof.Machine

theorem State.raise_frame (s : State) (k : Nat) : ∃ v o, s.raise k = { s with
    vecs := v
    out := o } := by
  simp only [State.raise]
  split
  · exact ⟨_, _, rfl⟩
  · split <;> exact ⟨_, _, rfl⟩

theorem State.sendGathered_frame (s : State) (k : Nat) : ∃ v o, s.sendGathered k = { s with
    vecs := v
    out := o } := by
  simp only [State.sendGathered]
  split
  · exact ⟨_, _, rfl⟩
  · split
    · exact ⟨_, _, rfl⟩
    · split <;> exact ⟨_, _, rfl⟩

theorem State.cause_frame (s : State) (b : Nat) : ∃ v o, s.cause b = { s with
    genCause := s.genCause ||| BitVec.ofNat 11 (2 ^ b)
    vecs := v
    out := o } := by
  simp only [State.cause]
  split
  · obtain ⟨v, o, e⟩ := State.raise_frame { s with genCause := s.genCause ||| BitVec.ofNat 11 (2 ^ b) } 3
    rw [e]; exact ⟨_, _, rfl⟩
  · exact ⟨_, _, rfl⟩

theorem putRec_jobState (g : Integ) (r : ErrRec) : (State.putRec g r).jobState = g.jobState := by
  simp only [State.putRec]; split <;> (try split) <;> rfl

theorem putRec_phase (g : Integ) (r : ErrRec) : (State.putRec g r).phase = g.phase := by
  simp only [State.putRec]; split <;> (try split) <;> rfl

theorem State.logOnly_frame (s : State) (v : Sev) (i : RecInfo) : ∃ g x o, s.logOnly v i = { s with
    integ := g
    vecs := x
    out := o } ∧ g.jobState = s.integ.jobState ∧ g.phase = s.integ.phase := by
  simp only [State.logOnly]
  generalize (if s.escalates v = true then Sev.devFatal else v) = v'
  split
  · generalize hg : State.putRec s.integ _ = g
    obtain ⟨x, o, e⟩ := State.raise_frame { s with integ := g } 2
    rw [e]; exact ⟨_, _, _, rfl, by rw [← hg, putRec_jobState], by rw [← hg, putRec_phase]⟩
  · exact ⟨_, _, _, rfl, putRec_jobState _ _, putRec_phase _ _⟩

/-- A finding below CONTEXT_FATAL is logged and takes no other action (R334). -/
theorem State.log_mild (s : State) (v : Sev) (i : RecInfo) (h : State.sevCode v ≤ 2) : s.log v i = s.logOnly v i := by
  cases v <;> simp [State.sevCode] at h <;> simp [State.log, State.escalates, State.sevAction]

theorem State.transient_frame (s : State) (i : RecInfo) : ∃ g x o, s.transient i = { s with
    integ := g
    vecs := x
    out := o } ∧ g.jobState = s.integ.jobState ∧ g.phase = s.integ.phase := by
  simp only [State.transient, State.log_mild _ .corrected i (by decide)]
  obtain ⟨g, x, o, e, h⟩ := s.countCorrected.logOnly_frame .corrected i
  rw [e]; exact ⟨g, x, o, rfl, h⟩

theorem State.setGroup_frame (s : State) (k : Nat) (st : PwrState) : ∃ c v o, s.setGroup k st = { s with
    pwr := { s.pwr with groups := s.pwr.groups.set k st }
    genCause := c
    vecs := v
    out := o } := by
  simp only [State.setGroup]
  split
  · exact ⟨_, _, _, rfl⟩
  · obtain ⟨v, o, e⟩ := State.cause_frame { s with pwr := { s.pwr with groups := s.pwr.groups.set k st } } gPwr
    rw [e]; exact ⟨_, _, _, rfl⟩

theorem State.event_frame (s : State) (m i e : Nat) : ∃ x, s.event m i e = { s with spindles := x } := ⟨_, rfl⟩

/-- A fold whose step changes one part of State changes that part alone. -/
theorem foldl_frame {α : Type} (P : State → State → Prop) (hr : ∀ s, P s s) (ht : ∀ s t u, P s t → P t u → P s u)
    (f : State → α → State) (hf : ∀ s a, P s (f s a)) : ∀ (l : List α) (s : State), P s (l.foldl f s)
  | [], s => hr s
  | a :: l, s => ht _ _ _ (hf s a) (foldl_frame P hr ht f hf l (f s a))

theorem State.raiseSpindles_frame (s : State) (m e : Nat) : ∃ x, s.raiseSpindles m e = { s with spindles := x } := by
  simp only [State.raiseSpindles]
  split
  · exact ⟨_, rfl⟩
  · refine foldl_frame (fun s t => ∃ x, t = { s with spindles := x }) (fun s => ⟨_, rfl⟩) ?_ _ ?_ _ s
    · rintro s t u ⟨x, rfl⟩ ⟨y, rfl⟩; exact ⟨y, rfl⟩
    · intro s a; exact s.event_frame m a e

theorem State.powerMast_frame (s : State) (m : Nat) : ∃ x, s.powerMast m = { s with dies := x } := by
  simp only [State.powerMast]
  refine foldl_frame (fun s t => ∃ x, t = { s with dies := x }) (fun s => ⟨_, rfl⟩) ?_ _ ?_ _ s
  · rintro s t u ⟨x, rfl⟩ ⟨y, rfl⟩; exact ⟨y, rfl⟩
  · intro s d; exact ⟨_, rfl⟩

theorem State.pumpPower_frame : ∀ (n : Nat) (s : State), ∃ x u a, s.pumpPower n = { s with
    dies := x
    pwr := { s.pwr with
      upQueue := u
      upAt := a } }
  | 0, s => ⟨_, _, _, rfl⟩
  | n + 1, s => by
    simp only [State.pumpPower]
    split
    · exact ⟨_, _, _, rfl⟩
    · split
      · exact ⟨_, _, _, rfl⟩
      · rename_i m _
        generalize hs : ({ s with pwr := { s.pwr with
            upQueue := s.pwr.upQueue.filter (· ≠ m)
            upAt := s.now :: s.pwr.upAt.filter (fun t => decide (s.now < t + 25000)) } } : State) = s1
        obtain ⟨y, e⟩ := s1.powerMast_frame m
        obtain ⟨x, u, a, h⟩ := State.pumpPower_frame n (s1.powerMast m)
        rw [h, e, ← hs]; exact ⟨_, _, _, rfl⟩

theorem State.queuePower_frame (s : State) (ms : List Nat) : ∃ x u a, s.queuePower ms = { s with
    dies := x
    pwr := { s.pwr with
      upQueue := u
      upAt := a } } := by
  simp only [State.queuePower]
  obtain ⟨x, u, a, h⟩ := State.pumpPower_frame 4
    { s with pwr := { s.pwr with upQueue := s.pwr.upQueue ++ ms.filter (fun m => !s.pwr.upQueue.contains m) } }
  rw [h]; exact ⟨_, _, _, rfl⟩

/-- The start of a wake touches the power manager, the dies it puts in line for power, and the interrupt of a change of state. -/
theorem State.startWake_frame (s : State) (gs : List Nat) (k : Nat) : ∃ p d c v o, s.startWake gs k = { s with
    pwr := p
    dies := d
    genCause := c
    vecs := v
    out := o } ∧ p.furled = s.pwr.furled := by
  simp only [State.startWake]
  split
  · split <;> exact ⟨_, _, _, _, _, rfl, rfl⟩
  · generalize gs.filter (fun g => decide (s.groupSt g = .reef)) = reefs
    generalize gs.filter _ = douses
    let Q := fun s t : State => ∃ p d c v o, t = { s with
      pwr := p
      dies := d
      genCause := c
      vecs := v
      out := o } ∧ p.furled = s.pwr.furled
    have hr : ∀ s, Q s s := fun s => ⟨_, _, _, _, _, rfl, rfl⟩
    have ht : ∀ s t u, Q s t → Q t u → Q s u := by
      rintro s t u ⟨p, d, c, v, o, rfl, h⟩ ⟨p', d', c', v', o', rfl, h'⟩
      exact ⟨_, _, _, _, _, rfl, h'.trans h⟩
    have hg : ∀ (s : State) (g : Nat), Q s (s.setGroup g .sail) := by
      intro s g; obtain ⟨c, v, o, e⟩ := s.setGroup_frame g .sail; rw [e]; exact ⟨_, _, _, _, _, rfl, rfl⟩
    have h1 : ∀ p : Power, p.furled = s.pwr.furled → Q s (reefs.foldl (fun s g => s.setGroup g .sail) { s with pwr := p }) := fun p hp =>
      ht _ _ _ (⟨_, _, _, _, _, rfl, hp⟩ : Q s { s with pwr := p }) (foldl_frame Q hr ht _ hg reefs _)
    have h2 : Q s (reefs.foldl (fun s g => s.setGroup g .sail) (if reefs.isEmpty = true then s else
      { s with pwr := { s.pwr with
          targets := s.pwr.targets.mapIdx (fun g t => if reefs.contains g then none else t)
          choice := s.pwr.choice.mapIdx (fun g t => if reefs.contains g then .sail else t)
          lastFrom := 1
          lastCause := BitVec.ofNat 3 k
          lastDur := 800 } })) := by
      split
      · exact foldl_frame Q hr ht _ hg reefs _
      · exact h1 _ rfl
    split
    · exact h2
    · refine ht _ _ _ h2 ?_
      generalize reefs.foldl _ _ = s1
      have hq : ∀ (p : Power) (ms : List Nat), p.furled = s1.pwr.furled → Q s1 (({ s1 with pwr := p } : State).queuePower ms) := by
        intro p ms hp
        obtain ⟨x, u, a, h⟩ := State.queuePower_frame { s1 with pwr := p } ms
        exact ⟨_, _, _, _, _, h, hp⟩
      exact hq _ _ rfl

theorem State.wakeForWork_frame (s : State) : ∃ p d c v o, s.wakeForWork = { s with
    pwr := p
    dies := d
    genCause := c
    vecs := v
    out := o } := by
  simp only [State.wakeForWork]
  split
  · exact ⟨_, _, _, _, _, rfl⟩
  · obtain ⟨p, d, c, v, o, h, _⟩ := s.startWake_frame _ 1; exact ⟨p, d, c, v, o, h⟩

/-- What logging an event and acting on its severity may touch: the log, the interrupt vectors, the context stopped, and all that
a halt of the job gives up or sends (R187, R232, R334 to R341). -/
def State.LogTouches (s t : State) : Prop := ∃ v0 v1 v2 v3 v4 v5 v6 v7 v8 v9 v10 v11 v12 v13 v14 v15 v16, t = { s with
  pdescs := v0
  tables := v1
  accs := v2
  entries := v3
  streams := v4
  inboxes := v5
  logits := v6
  rolled := v7
  batches := v8
  remoteWait := v9
  sampled := v10
  beatOn := v11
  integ := v12
  rig := v13
  ctxs := v14
  vecs := v15
  out := v16 }

theorem State.LogTouches.refl (s : State) : s.LogTouches s := ⟨_, _, _, _, _, _, _, _, _, _, _, _, _, _, _, _, _, rfl⟩

theorem State.LogTouches.trans (s t u : State) (h : s.LogTouches t) (k : t.LogTouches u) : s.LogTouches u := by
  obtain ⟨a0, a1, a2, a3, a4, a5, a6, a7, a8, a9, a10, a11, a12, a13, a14, a15, a16, rfl⟩ := h
  obtain ⟨b0, b1, b2, b3, b4, b5, b6, b7, b8, b9, b10, b11, b12, b13, b14, b15, b16, rfl⟩ := k
  exact ⟨_, _, _, _, _, _, _, _, _, _, _, _, _, _, _, _, _, rfl⟩

theorem State.sendControl_frame (s : State) (r a b c d : Nat) : ∃ x, s.sendControl r a b c d = { s with rig := x } := by
  simp only [State.sendControl]
  split
  · exact ⟨_, rfl⟩
  · split <;> exact ⟨_, rfl⟩

theorem State.sendTree_frame (s : State) (o k r : Nat) : ∃ x, s.sendTree o k r = { s with rig := x } := by
  simp only [State.sendTree]
  split
  · exact ⟨_, rfl⟩
  · refine foldl_frame (fun s t => ∃ x, t = { s with rig := x }) (fun s => ⟨_, rfl⟩) ?_ _ ?_ _ s
    · rintro s t u ⟨x, rfl⟩ ⟨y, rfl⟩; exact ⟨y, rfl⟩
    · intro s a; exact s.sendControl_frame _ _ _ _ _

theorem State.sendData_frame (s : State) (r vc t : Nat) (d p : List Byte) : ∃ x, s.sendData r vc t d p = { s with rig := x } := by
  simp only [State.sendData]
  split
  · exact ⟨_, rfl⟩
  · split <;> exact ⟨_, rfl⟩

theorem State.returnRows_frame (s : State) (i c n t : Nat) : ∃ d x, s.returnRows i c n t = { s with
    pdescs := d
    tables := x } := by
  let Q := fun s t : State => ∃ d y, t = { s with
    pdescs := d
    tables := y }
  have hr : ∀ s, Q s s := fun s => ⟨_, _, rfl⟩
  have ht : ∀ s t u, Q s t → Q t u → Q s u := by
    rintro s t u ⟨x, y, rfl⟩ ⟨x', y', rfl⟩; exact ⟨_, _, rfl⟩
  have h := foldl_frame Q hr ht (fun (r : State) x =>
    match r.tblPage i (pagesFor n * s.layerCount c + x) with
    | some p => (r.emptyFrame p).setTblPage i (pagesFor n * s.layerCount c + x) none
    | none => r) (by intro r x; split <;> exact ⟨_, _, rfl⟩)
    (upTo ((pagesFor (n + t) - pagesFor n) * s.layerCount c)) s
  exact ht _ _ _ h ⟨_, _, rfl⟩

theorem State.haltWork_frame (s : State) : ∃ d x, s.haltWork = { s with
    pdescs := d
    tables := x
    accs := tabMapAll {} (fun _ a => releaseAcc a) s.accs
    entries := tabMapAll {} (fun _ e => restartEntry e) s.entries
    streams := tabMapAll {} (fun _ x => { x with busy := false, started := false, jobs := [], engines := [], splices := [], left := [], done := [] }) s.streams
    inboxes := []
    logits := []
    rolled := s.rolled ++ (s.batches.filter (fun b => !b.swept)).filter (fun b => !b.remote)
    batches := []
    remoteWait := []
    sampled := []
    beatOn := false
    integ := { s.integ with
      repeats := []
      kernels := []
      verify := s.integ.verify ++ (s.batches.filter (fun b => !b.swept)).flatMap (fun b => b.members.flatMap (fun m => m.pages ++ m.took))
      round := none
      digBusy := false } } := by
  simp only [State.haltWork]
  let Q := fun s t : State => ∃ d x, t = { s with
    pdescs := d
    tables := x }
  have hr : ∀ s, Q s s := fun s => ⟨_, _, rfl⟩
  have ht : ∀ s t u, Q s t → Q t u → Q s u := by
    rintro s t u ⟨x, y, rfl⟩ ⟨x', y', rfl⟩; exact ⟨_, _, rfl⟩
  obtain ⟨d, x, e⟩ := foldl_frame Q hr ht (fun (s : State) (b : Batch) => b.members.foldl (State.rollMember b) s)
    (fun s b => foldl_frame Q hr ht _ (fun s m => s.returnRows_frame _ _ _ _) b.members s)
    (s.batches.filter (fun b => !b.swept)) s
  rw [e]; exact ⟨_, _, rfl⟩

theorem State.haltHere_touches (s : State) : s.LogTouches s.haltHere := by
  simp only [State.haltHere]
  split
  · exact State.LogTouches.refl s
  · obtain ⟨x, e⟩ := State.sendTree_frame (s.enterHalt (s.integ.epoch + 1) s.deviceId 1) s.deviceId pkHalt 1
    obtain ⟨d, y, h⟩ := s.haltWork_frame
    rw [e]; simp only [State.enterHalt, h]; exact ⟨_, _, _, _, _, _, _, _, _, _, _, _, _, _, _, _, _, rfl⟩

theorem State.enterHalt_touches (s : State) (e : W32) (o r : Nat) : s.LogTouches (s.enterHalt e o r) := by
  obtain ⟨d, y, h⟩ := s.haltWork_frame
  simp only [State.enterHalt, h]; exact ⟨_, _, _, _, _, _, _, _, _, _, _, _, _, _, _, _, _, rfl⟩

theorem State.deviceFatal_touches (s : State) : s.LogTouches s.deviceFatal := by
  simp only [State.deviceFatal]
  have key : ∀ (s1 : State) (g : Integ) (o : Nat), s1.LogTouches (({ s1 with integ := g } : State).sendTree o pkHalt 2) := by
    intro s1 g o
    obtain ⟨x, e⟩ := State.sendTree_frame { s1 with integ := g } o pkHalt 2
    exact ⟨_, _, _, _, _, _, _, _, _, _, _, _, _, _, _, _, _, e⟩
  split
  · exact .refl s
  · split
    · exact key s _ _
    · exact .trans _ _ _ (s.enterHalt_touches _ _ _) (key _ _ _)

theorem State.log_touches (s : State) (v : Sev) (i : RecInfo) : s.LogTouches (s.log v i) := by
  simp only [State.log]
  obtain ⟨g, x, o, e, _⟩ := s.logOnly_frame v i
  have h1 : s.LogTouches (s.logOnly v i) := by rw [e]; exact ⟨_, _, _, _, _, _, _, _, _, _, _, _, _, _, _, _, _, rfl⟩
  refine State.LogTouches.trans _ _ _ h1 ?_
  generalize s.logOnly v i = t
  generalize (if s.escalates v = true then Sev.devFatal else v) = w
  cases w <;> simp only [State.sevAction]
  · exact .refl t
  · exact .refl t
  · exact .refl t
  · split
    · exact ⟨_, _, _, _, _, _, _, _, _, _, _, _, _, _, _, _, _, rfl⟩
    · exact .refl t
  · exact t.haltHere_touches
  · exact t.deviceFatal_touches

end Sys2Proof.Machine
end

