-- ==== Sys2Proof/Tests/Slice0.lean ====
section
/-! SUPPORT. Tests: a state and operands that meet the hypotheses of each statement, clause by clause; ill-formed commands; single
steps whose results the spec gives. -/

set_option Elab.async false

namespace Sys2Proof.Tests

open Sys2Proof Sys2Proof.Machine

/-! States that the tests start from. -/

/-- A device whose firmware runs: it takes commands of the host, and its masts run. -/
def live : State := { State.reset with clk := {
  xtalOk := true
  state := 1 } }

/-- A device that has halted for good, with an operator key locked. -/
def dead : State :=
  let g : Integ := { live.integ with jobState := 5 }
  let x : Sail := { live.sail with
    opkey := [1, 2, 3, 4]
    locked := true }
  { live with
    integ := g
    sail := x }

/-- A batch step of context 0 in group 0 with one sequence of one token. -/
def oneBatch : Batch := ⟨0, 0, 0, 0, [⟨0, 0, [5], false, true, [], [], false, [], 0, false⟩], false, [], false, false, false, false, [], [0], 0, false, false⟩

/-- Context 0 runs in native mode: one layer group of layer 0 on mast 0, with an operation of the program. -/
def oneSection (op : Nat) (plies : List PlyPanel) : Section :=
  { panel := ⟨false, 1, 64, [1, 0, 0, 0], [plies.length, 0, 0, 0], 5, 0, 0, 0, 0, 0, [0, 0, 0, 0, 0, 0, 0, 0],
      [0, 0, 0, 0, 0, 0, 0, 0], [], [⟨0, 0, 1⟩]⟩
    plies := plies
    prog := [op, 0x10]
    raw := []
    sealBytes := [] }

def oneCtx (op : Nat) (plies : List PlyPanel) : Ctx :=
  { st := .running
    bound := true
    sect := some (oneSection op plies)
    plyBase := [0, 0x7FF, 0x7FF, 0x7FF]
    region := [] }

/-- The live device with one array of mast 3, the last, as given. -/
def withArr (a : Arr) : State := live.setArr 3 17407 a

def blankArr : Arr := { st := .blank }
def activeArr : Arr := { st := .active, slot := some ⟨0, 0⟩ }
def aWrite : WriteJob := { lmap := 2, span := 8, src := 0, colMap := [], row := 0, failed := [], pattern := false, restart := false }

/-- What holds of the default and of every entry listed holds of every entry. -/
theorem tabGet_of_all {V : Type} (P : V → Prop) (d : V) (hd : P d) : ∀ (l : Tab V), (∀ x ∈ l, P x.2) → ∀ k, P (tabGet d l k)
  | [], _, _ => hd
  | (k', v) :: l, h, k => by
    simp only [tabGet]
    split
    · exact h _ (List.mem_cons_self ..)
    · exact tabGet_of_all P d hd l (fun x hx => h x (List.mem_cons_of_mem _ hx)) k

/-- A tensor of one value on stack 0. -/
def oneTensor : Tensor := ⟨0, 4, 0, 0, 1, 1, 0, 4⟩

/-! The device as a whole, the beat, the register map. -/

theorem wit_live : live.hostMay = true ∧ live.mailboxMay = true ∧ live.windowMay = true ∧ live.hostReads = true ∧ live.mastRuns 0 = true ∧
    live.mastRuns 3 = true := by decide +kernel

theorem wit_StepRunsTheFront : ({ live with pending := [.cxlLinkReset, .inputFault] } : State).pending = .cxlLinkReset :: [.inputFault] ∧
    live.pending = [] ∧ live.clk.xtalOk = true ∧ State.reset.pending = [] ∧ State.reset.clk.xtalOk = false := by decide +kernel

theorem wit_OnlyAColdResetChanges : ∃ t, exec .securityCoreFault dead = .next t ∧ Instr.securityCoreFault ≠ .coldReset ∧
    Instr.securityCoreFault ≠ .inputFault ∧ dead.sail.locked = true := ⟨_, rfl, by decide, by decide, by decide⟩

theorem wit_OnlyAResetEndsDeviceFatal :
    (∃ t, exec .cxlLinkReset dead = .next t ∧ dead.devFatal = true ∧ ∀ k a p, Instr.cxlLinkReset ≠ .reset k a p) ∧
    dead.lan.stuck = false ∧ dead.addressed 2 0 = true ∧ dead.lan.resetEn = true ∧ dead.clk.xtalOk = true ∧
    dead.addressed 0 131071 = false := by
  refine ⟨⟨_, rfl, by decide, ?_⟩, by decide, by decide, by decide, by decide, by decide⟩
  intro k a p h; cases h

theorem wit_BootStateIsTheRomsAlone : ∃ t, exec .cxlLinkReset dead = .next t ∧ (∀ k a p, Instr.cxlLinkReset ≠ .reset k a p) ∧
    (∀ k m b, Instr.cxlLinkReset ≠ .fwWrite k m b) ∧ (∀ k m b, Instr.cxlLinkReset ≠ .fwActivate k m b) ∧
    (∀ k m b, Instr.cxlLinkReset ≠ .fwCommit k m b) := by
  refine ⟨_, rfl, ?_, ?_, ?_, ?_⟩ <;> intro _ _ _ h <;> cases h

theorem wit_FlashStaysWellFormed : State.reset.FlashOk ∧ ∃ t, step { State.reset with pending := [.romBoot] } = .next t := by
  exact ⟨⟨by decide, by decide⟩, _, rfl⟩

theorem wit_HaltedDeviceTakesNoCommand : dead.devFatal = true := by decide

theorem wit_BeatsAndSlices :
    (live.integ.phase = 0 ∧ live.devFatal = false ∧ live.beatOn = false) ∧
    (let s : State := { live with
      beatOn := true
      batches := [oneBatch]
      ctxs := [(0, oneCtx 0 [])] }
     s.beatOn = true ∧ ∃ b ∈ s.batches, s.beatDone b = false) ∧
    (let c : Ctx := { oneCtx 0 [] with
      sliced := true
      holder := true
      sliceOn := true
      sliceStart := 7 }
     let s : State := { live with
      time := 500007
      ctxs := [(15, c)] }
     (upTo 16).find? (fun c => (s.ctx c).sliced && (s.ctx c).holder) = some 15 ∧ (s.ctx 15).sliceOn = true ∧
       (s.ctx 15).sliceStart + 100000 * (((s.ctx 15).sect.map (·.panel.slice)).getD 0) ≤ s.now) := by
  refine ⟨by decide, ⟨by decide, oneBatch, by decide, by decide +kernel⟩, by decide +kernel⟩

theorem wit_BeatsAndSlices_2 :
    (live.batches = [] ∧ live.rolled = [] ∧ live.remoteWait = [] ∧ ∀ c, (live.ctx c).st ≠ .running) ∧
    (let s : State := { live with
      beatOn := true
      batches := [{ oneBatch with finished := true }] }
     s.beatOn = true ∧ ∀ b ∈ s.batches, s.beatDone b = true) ∧
    ({ live with integ := { live.integ with phase := 1 } } : State).integ.phase ≠ 0 ∧
    (let c : Ctx := { oneCtx 0 [] with
      sliced := true
      holder := true }
     let s : State := { live with ctxs := [(0, c)] }
     (upTo 16).find? (fun c => (s.ctx c).sliced && (s.ctx c).holder) = some 0 ∧ (s.ctx 0).sliceOn = false) ∧
    (upTo 16).find? (fun c => (live.ctx c).sliced && (live.ctx c).holder) = none := by
  refine ⟨⟨rfl, rfl, rfl, fun c => ?_⟩, ⟨by decide, by decide +kernel⟩, by decide, by decide +kernel, by decide +kernel⟩
  simp [live, State.ctx, State.reset, tabGet]

theorem wit_RegisterWriteReadsBack : live.hostMay = true ∧ 0x3800204 ∈ [0x10, 0x3800204] := by decide +kernel

/-! Charge arrays. -/

/-- Mast 3 with all dies powered and just below 120 °C. -/
def hotMast : State := { live with dies := (upTo 8).map (fun d => (kDie 3 d, { powered := true, valid := true, temp := 1919 })) }

theorem wit_StepSlotsAndTemperature :
    live.mastRuns 3 = true ∧
    (∀ d, d < 8 → (hotMast.die 3 d).powered = true) ∧ (List.replicate 8 (1919 : W16)).length = 8 ∧
    ((List.replicate 8 (1919 : W16)).map (·.toInt)).max? = some 1919 ∧
    (∀ x ∈ [({ p := 17407, col := 1039, phase := 3, n := 0, unresolved := some 7 } : RawCode)], x.p < 17408 ∧ x.col < 1040 ∧ x.phase < 4) ∧
    (∀ x ∈ List.replicate 8 (1919 : W16), x.toInt < 1920) := by
  refine ⟨by decide +kernel, by decide +kernel, by decide, by decide, by decide, ?_⟩
  intro x hx
  rw [List.eq_of_mem_replicate hx]; decide

theorem wit_StepSlotsAndTemperature_2 : ∀ k d, (hotMast.die k d).valid = true → (hotMast.die k d).temp.toInt < 1920 := by
  intro k d _
  exact tabGet_of_all (fun x : Die => x.temp.toInt < 1920) {} (by decide) hotMast.dies (by decide +kernel) (kDie k d)

theorem wit_WriteIsTakenOrRefused :
    (let s := withArr blankArr
     s.hostMay = true ∧ (s.arr 3 17407).slot = none ∧ (s.arr 3 17407).cmdBusy = false ∧ (s.arr 3 17407).st ≠ .active ∧
       (s.arr 3 17407).st ≠ .retired ∧ (s.arr 3 17407).cfgLmap ≠ 3 ∧ 4 ≤ (s.arr 3 17407).cfgSpan.toNat ∧
       (s.arr 3 17407).cfgSpan.toNat ≤ 10 ∧ State.srcOk 3 (State.hbmOf 6 79998951424) 1048576 = true) ∧
    ((withArr activeArr).hostMay = true ∧ ((withArr activeArr).arr 3 17407).slot.isSome = true) ∧
    ((withArr { blankArr with cmdBusy := true }).arr 3 17407).cmdBusy = true ∧
    ((withArr { st := .active }).arr 3 17407).st = .active ∧ ((withArr { st := .retired }).arr 3 17407).st = .retired ∧
    ((withArr { blankArr with cfgSpan := 11 }).arr 3 17407).cfgSpan.toNat = 11 := by decide +kernel

theorem wit_WriteRowWindow :
    let j : WriteJob := { aWrite with
      row := 1023
      src := BitVec.ofNat 64 (State.hbmOf 6 0) }
    let s := withArr { st := .writing, write := some j }
    (s.arr 3 17407).write = some j ∧ (s.arr 3 17407).st = .writing ∧ (s.arr 3 17407).queued = false ∧ (s.arr 3 17407).fw = none ∧
      j.image = none ∧ j.pattern = false ∧ j.restart = false ∧ j.row < 1024 ∧
      (s.imageBytes 3 j.image j.src.toNat (1024 * j.row) 1024).all (State.inMap j.lmap) = true ∧
      ((s.setHbmByte 6 (1024 * 1024 - 1) 0x08).imageBytes 3 j.image j.src.toNat (1024 * j.row) 1024).all (State.inMap j.lmap) = false := by decide +kernel

theorem wit_WritesEnd :
    (let s := ((withArr { st := .writing, queued := true, write := some aWrite }).modMast 3 (fun x => { x with wrQueue := [17407] })).setDie 3 7
      { powered := true }
     s.startable 3 = some 17407) ∧
    (let j : WriteJob := { aWrite with
      row := 1025
      failed := [0, 1023] }
     let s := withArr { st := .writing, write := some j }
     (s.arr 3 17407).write = some j ∧ (s.arr 3 17407).queued = false ∧ j.restart = false ∧ (s.arr 3 17407).fw = none ∧
       (∀ r ∈ j.failed, r ∉ [5]) ∧ (∃ r ∈ j.failed, r ∈ [1023])) ∧
    (let s := withArr { st := .ready, colP := 1039 }
     (s.arr 3 17407).slot = none ∧ (s.arr 3 17407).cmdBusy = false ∧ (s.arr 3 17407).st = .ready ∧ 1026 ≤ (s.arr 3 17407).colP.toNat ∧
       (s.arr 3 17407).colP.toNat ≤ 1039 ∧ s.spareAssigned 3 17407 13 = false ∧ State.srcOk 3 (State.hbmOf 6 79998951424) 1048576 = true) ∧
    (let j : ColJob := { colP := 1026, colL := 0, src := 0, row := 0, failed := [], swap := false }
     let s := withArr { st := .active, col := some j }
     (s.arr 3 17407).col = some j ∧ (s.arr 3 17407).fw = none ∧ (s.atrim 3 17407).colTodo = [] ∧ j.pattern = false) := by
  refine ⟨by decide +kernel, ⟨by decide +kernel, by decide +kernel, by decide, by decide +kernel, by decide, 1023, by decide, by decide⟩,
    by decide +kernel, by decide +kernel⟩

theorem wit_ArraysLeaveService :
    (let s := withArr { st := .writing, write := some aWrite, cmdBusy := true }
     s.hostMay = true ∧ (s.arr 3 17407).st = .writing ∧ (s.arr 3 17407).slot = none ∧ (s.arr 3 17407).cmdBusy = true) ∧
    (let s := withArr { st := .ready }
     (s.arr 3 17407).cmdBusy = false ∧ (s.arr 3 17407).st = .ready ∧ (s.arr 3 17407).fw = none ∧ (s.atrim 3 17407).colTodo = []) ∧
    ((withArr activeArr).arr 3 17407).slot.isSome = true ∧ ((withArr { st := .retired }).arr 3 17407).st = .retired ∧
    ((withArr activeArr).arr 3 17407).st = .active := by decide +kernel

theorem wit_RestoreRuns :
    (let s := (withArr { st := .ready }).modMast 3 (fun x => { x with
       slotNo := 510
       stepCtr := 63 })
     s.mastRuns 3 = true ∧ s.isMaint 3 = true ∧ (s.mast 3).slotDone = false ∧ (s.mast 3).slotNo < 511 ∧
       State.restored (s.arr 3 17407) = true ∧ (s.arr 3 17407).col = none ∧ (List.replicate 1040 (0 : Byte)).length = 1040) ∧
    781 ≤ ((live.modMast 3 (fun x => { x with slotNo := 781 })).mast 3).slotNo ∧
    ((withArr { st := .ready }).arr 3 17407).st = .ready ∧ ((withArr activeArr).arr 3 17407).st = .active := by decide +kernel

/-! Column conversion, plies, trim, ageing, the plan. -/

def lastDie : State := live.setDie 3 7 { powered := true, valid := true, temp := 640 }
def calReady : State := { lastDie with adc := { mask := 0x80000000 } }
def calJob : CalJob := ⟨[31], [(31, 720)], true⟩
def calAt (ph : BitVec 3) : State :=
  let s := lastDie.setCal 3 17407 { cal := .calibrating }
  { s with adc := {
    busy := true
    phase := ph
    mask := 0x80000000
    job := some calJob } }
/-- A converter whose mean codes are the levels placed at it. -/
def goodMeas : CalMeas := ⟨0, 0, State.sweepCodes.map State.dacLevel, true, State.verifyCodes.map State.dacLevel, List.replicate 8 (3 / 5)⟩

theorem wit_CalibrationRuns :
    (calReady.hostMay = true ∧ calReady.adc.busy = false ∧ (∀ k ∈ maskDies calReady.adc.mask, calReady.dieInUse k = false) ∧
      (maskDies calReady.adc.mask).filter (fun k => (calReady.die (k / 8) (k % 8)).powered) ≠ []) ∧
    ((calAt 2).adc.job = some calJob ∧ (calAt 2).adc.phase.toNat < 3) ∧ (calAt 3).adc.phase = 3 ∧
    (calAt 4).hostMay = true ∧ (calAt 4).adc.phase = 4 ∧ kDie 3 (dieOf 17407) ∈ calJob.dies ∧
    calJob.temps.find? (fun x => x.1 = kDie 3 (dieOf 17407)) = some (kDie 3 (dieOf 17407), 720) ∧
    ((calAt 4).cal 3 17407).cal = .calibrating := by decide +kernel

/-- R65: a converter whose mean codes are the levels passes; one without a standard deviation of a VERIFY code, or above 0.6 LSB, does
not. -/
theorem test_converter_passes : State.convPasses goodMeas = true ∧
    State.convPasses { goodMeas with devs := List.replicate 7 (3 / 5) } = false ∧
    State.convPasses { goodMeas with devs := List.replicate 7 (3 / 5) ++ [61 / 100] } = false := by decide +kernel

def setAt (ph : BitVec 3) : State := { lastDie with
  adc := {
    busy := true
    phase := ph }
  trim := {
    busy := true
    phase := ph - 4 } }
def selAt (st : ArrState) : State := { live.setArr 3 17407 { st := st } with adc := { sel := 0xE1FF8083 } }

theorem wit_FactorsAreKept :
    (live.hostMay = true ∧ live.adc.busy = false) ∧ (setAt 5).adc.phase = 5 ∧ (setAt 5).adc.busy = true ∧ (setAt 6).adc.phase = 6 ∧
    ((selAt .ready).hostMay = true ∧ (selAt .ready).adcSelOk = true ∧
      ((selAt .ready).cal (selAt .ready).adcSelMast (selAt .ready).adcSelArr).cal ≠ .calibrating ∧
      ((selAt .ready).arr (selAt .ready).adcSelMast (selAt .ready).adcSelArr).st ≠ .active) ∧
    ((selAt .active).arr (selAt .active).adcSelMast (selAt .active).adcSelArr).st = .active ∧
    mapOk (mapOfWord 0x80818000) = true ∧ mapOk (mapOfWord 0x80818081) = false ∧
    (((selAt .ready).setCal 3 17407 { cal := .calibrating }).cal 3 17407).cal = .calibrating ∧
    ({ live with adc := { sel := 0xE2000083 } } : State).adcSelOk = false := by decide +kernel

theorem wit_TrimColumnsAndSets :
    (live.trim.busy = false ∧ (setAt 5).trim.phase = 1 ∧ (setAt 5).trim.busy = true ∧ (setAt 6).trim.phase = 2) ∧
    live.trimSelOk = true ∧ ({ live with trim := { sel := 0x21FF8401 } } : State).trimSelOk = true ∧
    ({ live with trim := { sel := 0x400 + 2 } } : State).trimSelOk = false ∧
    (0x38000000000000 <<< 8 : W64).toNat >>> 40 = 3670016 ∧ (0x50000000000000 <<< 8 : W64).toNat >>> 40 = 5242880 ∧
    (0x37FFFF00000000 <<< 8 : W64).toNat >>> 40 < 3670016 := by decide +kernel

theorem wit_TrimCycleEnds :
    (let s := ((withArr { st := .ready }).modMast 3 (fun x => { x with trimRc := 16 })).modAtrim 3 17407 (fun x => { x with measured := 16 })
     s.mastRuns 3 = true ∧ 16 ≤ (s.mast 3).trimRc ∧ s.arrsOf 3 State.restored = [17407] ∧ (s.atrim 3 17407).colSwaps = [] ∧
       16 ≤ (s.atrim 3 17407).measured) ∧
    (live.mast 3).trimRc < 16 := by decide +kernel

theorem wit_AgeingAndLasers :
    (live.age.busy = false ∧ (∀ m, m < 4 → (live.arrsOf m (fun a => decide (a.st = .active) || decide (a.st = .writing))) = [])) ∧
    (withArr activeArr).arrsOf 3 (fun a => decide (a.st = .active) || decide (a.st = .writing)) ≠ [] ∧
    (live.laser 8).2 ≠ 1000 ∧ ((live.setLaser 8 (true, 1000)).laser 8).2 = 1000 := by decide +kernel

/-- A LOAD that has asked for the plan. -/
def sailLoading : State := { live with sail := {
  busy := true
  step := 3
  job := some ⟨0x1000, 256, []⟩ } }
def bound : State := { live with link := { bound := true } }

theorem wit_PlanAndOperatorKey :
    (bound.link.bound = true ∧ bound.sail.locked = false ∧ bound.hostMay = true ∧ live.link.bound = false) ∧
    (let s : State := { live with sail := {
       src := 0x1000
       len := 256 } }
     s.hostMay = true ∧ s.sail.busy = false ∧ s.sail.src.toNat % 4096 = 0 ∧ 256 ≤ s.sail.len.toNat ∧ s.sail.len.toNat ≤ 16777216) ∧
    sailLoading.sail.job = some ⟨0x1000, 256, []⟩ ∧ sailLoading.hostMay = true ∧ sailLoading.sail.busy = true ∧
    ({ bound with sail := { locked := true } } : State).sail.locked = true ∧ live.sail.busy = false ∧ live.sail.len.toNat < 256 := by decide +kernel

theorem wit_SpliceRegions :
    (let s := live.setSpl 3 17407 { src := BitVec.ofNat 64 (State.hbmOf 7 79999983616) }
     s.hostMay = true ∧ (s.arr 3 17407).slot = none ∧ (s.spl 3 17407).busy = false ∧ (s.arr 3 17407).st ≠ .active ∧
       (s.arr 3 17407).st ≠ .retired ∧ (2 : BitVec 2) ≠ 3 ∧ State.srcOk 3 (s.spl 3 17407).src.toNat 16384 = true ∧
       (s.arr 3 17407).fw = none ∧ (s.atrim 3 17407).colTodo = []) ∧
    (withArr activeArr).hostMay = true ∧ ((withArr activeArr).arr 3 17407).slot.isSome = true ∧ ((withArr activeArr).arr 3 17407).fw = none ∧
    (let s := live.setSpl 3 17407 { st := .loading, busy := true, latchSrc := BitVec.ofNat 64 (State.hbmOf 7 0) }
     (s.spl 3 17407).busy = true ∧ (s.spl 3 17407).image = none) := by decide +kernel

/-! Streams: the layer program. -/

/-- The stream of mast 0 stands at an operation of context 0's program, with one token of one sequence in flight. -/
def atOp (op : Nat) : State := { live with
  batches := [oneBatch]
  ctxs := [(0, oneCtx op [])]
  streams := [(0, { busy := true })] }
def here (op : Nat) : State.At := ⟨oneBatch, [(0, op), (1, 0x10)], 0, op, 0, 0, 0, 0⟩

theorem wit_VectorOperations :
    (atOp (0x05 + 2 ^ 32)).mastRuns 0 = true ∧ (here 0x05).pos + 1 < (here 0x05).ops.length ∧
    (atOp (0x05 + 2 ^ 32)).atOp 0 cNorm = some (here (0x05 + 2 ^ 32)) ∧ (atOp (0x06 + 2 ^ 32)).atOp 0 cRope = some (here (0x06 + 2 ^ 32)) ∧
    (atOp (0x07 + 2 ^ 32)).atOp 0 cAct = some (here (0x07 + 2 ^ 32)) ∧ (atOp (0x08 + 2 ^ 32)).atOp 0 cAdd = some (here (0x08 + 2 ^ 32)) ∧
    (atOp (0x09 + 2 ^ 32)).atOp 0 cScale = some (here (0x09 + 2 ^ 32)) ∧ (atOp (0x0F + 2 ^ 32)).atOp 0 cCheck = some (here (0x0F + 2 ^ 32)) := by
  decide +kernel

/-- The same with the operation last of its stream. -/
def atLast (op : Nat) : State := { atOp op with ctxs := [(0, { oneCtx op [] with sect := some { oneSection op [] with prog := [op] } })] }

theorem wit_PassEnds : ((atLast 0x05).atOp 0 cNorm = some ⟨oneBatch, [(0, 0x05)], 0, 0x05, 0, 0, 0, 0⟩ ∧
    (atLast 0x0C).atOp 0 cGather = some ⟨oneBatch, [(0, 0x0C)], 0, 0x0C, 0, 0, 0, 0⟩) ∧ (atLast 0x05).isReload 0 = false := by decide +kernel

def attending : State :=
  let c : Ctx := { oneCtx (0x03 + 2 ^ 32) [] with manifest := some ⟨[oneTensor], [], [], []⟩ }
  { atOp (0x03 + 2 ^ 32) with
    ctxs := [(0, c)]
    streams := [(0, { busy := true, started := true, jobs := [⟨0, [0]⟩], buf0 := some 0 })] }

theorem wit_AttentionOperations :
    (atOp 0x04).atOp 0 cExpand = some (here 0x04) ∧ (atOp 0x03).atOp 0 cAttend = some (here 0x03) ∧ ((atOp 0x03).stream 0).started = false ∧
    (attending.atOp 0 cAttend = some (here (0x03 + 2 ^ 32)) ∧ (attending.stream 0).jobs = [⟨0, [0]⟩] ∧
      attending.expansion 0 0 = some (oneTensor, [0, 0, 0, 0]) ∧
      attending.jobBlocked (here (0x03 + 2 ^ 32)) (State.memberOf oneBatch 0) ⟨0, [0]⟩ = false ∧
      State.gangOf ⟨0, [0]⟩ ≤ (attending.freeEngines 0).length ∧
      attending.jobReadOnly (here (0x03 + 2 ^ 32)) (State.memberOf oneBatch 0) ⟨0, [0]⟩ = false) ∧
    (let s := attending.modStream 0 (fun x => { x with engines := (upTo 64).map (fun e => (e, 1)) })
     s.atOp 0 cAttend = some (here (0x03 + 2 ^ 32)) ∧ (s.stream 0).jobs = [⟨0, [0]⟩] ∧
       s.expansion 0 0 = some (oneTensor, [0, 0, 0, 0]) ∧ (s.freeEngines 0).length < State.gangOf ⟨0, [0]⟩) := by decide +kernel

def sendOp : Nat := 0x0A + 2 ^ 32 + 0xFFFF * 2 ^ 96
def recvOp : Nat := 0x0B + 2 ^ 32 + 0xFFFF * 2 ^ 96
def aRow : InRow := ⟨0, 0, 0, 1, 0, 0, 0, 0, [1, 2, 3, 4], 1, 9⟩
def bigRow : InRow := { aRow with
  width := 65535
  tag := 1 }

def farOp : Nat := 0x0A + 2 ^ 32 + 2 ^ 96
/-- A GATHER of the token 5 of context 0 under the vocabulary given. -/
def gatherOp : Nat := 0x0C + 2 ^ 32
def gathering (vocab : Nat) : State :=
  let c : Ctx := { oneCtx gatherOp [] with manifest := some ⟨[oneTensor], [], [], []⟩ }
  let x : CtxPanel := { (oneSection gatherOp []).panel with vocab := vocab }
  { atOp gatherOp with ctxs := [(0, { c with sect := some { oneSection gatherOp [] with panel := x } })] }

theorem wit_MovementOperations :
    ((atOp sendOp).atOp 0 cSend = some (here sendOp) ∧ State.blockToks oneBatch 0 = [(0, 0)] ∧ opA12 sendOp = 0xFFFF ∧
      ((atOp sendOp).stream 0).done = [] ∧ (atOp sendOp).rowsInside 0 = false ∧ (atOp sendOp).inboxRoom (opB14 sendOp % 4) (opWidth sendOp) (opFmtS sendOp) = true) ∧
    ((atOp sendOp).setInbox 0 (List.replicate 2048 bigRow)).inboxRoom 0 (opWidth sendOp) (opFmtS sendOp) = false ∧
    (let s := (atOp recvOp).setInbox 0 [aRow]
     s.atOp 0 cRecv = some (here recvOp) ∧ s.recvRow 0 (here recvOp) 0 = some aRow ∧ aRow.width = opWidth recvOp ∧ aRow.fmt = opFmtD recvOp ∧
       rowLines aRow.width aRow.fmt ≤ aRow.parts) ∧
    (atOp recvOp).recvRow 0 (here recvOp) 0 = none ∧
    (let s : State := { atOp recvOp with
       time := 10000001
       streams := [(0, { busy := true, started := true })] }
     s.atOp 0 cRecv = some (here recvOp) ∧ (s.stream 0).started = true ∧ (s.stream 0).tmo ≠ 0 ∧
       (s.stream 0).since + (s.stream 0).tmo.toNat < s.now) ∧
    ((atOp farOp).atOp 0 cSend = some (here farOp) ∧ ((atOp farOp).stream 0).done = [] ∧ opA12 farOp ≠ 0xFFFF ∧
      opA12 farOp ≠ (atOp farOp).jobRank) ∧
    (let s := (atOp recvOp).setInbox 0 [{ aRow with width := 7 }]
     s.atOp 0 cRecv = some (here recvOp) ∧ s.recvRow 0 (here recvOp) 0 = some { aRow with width := 7 } ∧ 7 ≠ opWidth recvOp) := by
  decide +kernel

theorem wit_MovementOperations_2 :
    (State.memberOf oneBatch 0).toks.getD 0 0 = 5 ∧ oneBatch.remote = false ∧ oneBatch.replay = false ∧
    ∀ v ∈ [5, 64], (gathering v).atOp 0 cGather = some (here gatherOp) ∧ (gathering v).mastRuns 0 = true ∧
      (gathering v).tensorOf 0 ((here gatherOp).tensor (opA10 gatherOp)) = some oneTensor ∧ (gathering v).vocabOf 0 = v := by
  decide +kernel

/-- Mast 1 named too. -/
def barrierOp : Nat := 0x10 + 2 * 2 ^ 80
def onePly : PlyPanel := ⟨0, 0, 4, 8, false, false, 0, 4, [], [], 0, 1024, 7, [(false, 0)]⟩
def plyOp : Nat := 0x01 + 2 ^ 32 + 2 ^ 120
def logitsOp : Nat := 0x0D + 2 ^ 32 + 2 ^ 112
def spliceOp : Nat := 0x02 + 2 ^ 32 + 2 ^ 120
def atPly (op : Nat) : State := { (atOp op).setArr 0 0 activeArr with ctxs := [(0, oneCtx op [onePly])] }
def repeatOp : Nat := 0x11
def twoLayers : State :=
  let c : Ctx := oneCtx repeatOp []
  let x : CtxPanel := { (oneSection repeatOp []).panel with
    layers := 2
    groups := [⟨0, 1, 1⟩] }
  { atOp repeatOp with ctxs := [(0, { c with sect := some { oneSection repeatOp [] with panel := x } })] }

theorem wit_StreamsStartAndTurn :
    ((atPly plyOp).stream 0).started = false ∧ State.plyCount (here plyOp) = 1 ∧
    (atPly plyOp).plyOf 0 0 (State.plyFirst (here plyOp)) = some onePly ∧ (atPly plyOp).freeAcc 0 = some 0 ∧
    ((atPly plyOp).boundArrays 0 onePly).any (·.isEmpty) = false ∧ State.plyToks (here plyOp) = [(0, 0)] ∧
    (atPly plyOp).atOp 0 cPlyMvm = some (here plyOp) ∧
    (State.plyCount (here logitsOp) = 1 ∧ (atPly logitsOp).plyOf 0 0 (State.plyFirst (here logitsOp)) = some onePly ∧
      State.plyToks (here logitsOp) = [(0, 0)] ∧ (atPly logitsOp).atOp 0 cLogits = some (here logitsOp)) ∧
    ((atPly spliceOp).atOp 0 cSplice = some (here spliceOp) ∧ opCode spliceOp = cSplice ∧ onePly.pins = [] ∧
      (atPly spliceOp).accsOf 0 (here spliceOp) = [] ∧ State.plyCount (here spliceOp) = 1) ∧
    (let s : State := { atPly plyOp with accs := (upTo 256).map (fun n => (n, { bound := true })) }
     s.atOp 0 cPlyMvm = some (here plyOp) ∧ s.freeAcc 0 = none ∧ (s.boundArrays 0 onePly).any (·.isEmpty) = false) := by decide +kernel

/-- A SPLICE of a ply with a partial input, which finds nothing of its feeder. -/
def unfed : PlyPanel := { onePly with pins := [⟨0, 0, 3⟩] }
def atUnfed : State := { (atOp spliceOp).setArr 0 0 activeArr with ctxs := [(0, oneCtx spliceOp [unfed])] }
def reloading (op num layers : Nat) : State :=
  let x : CtxPanel := { (oneSection op []).panel with
    reload := true
    layers := layers
    groups := [⟨0, num, 1⟩] }
  { atOp op with ctxs := [(0, { oneCtx op [] with sect := some { oneSection op [] with panel := x } })] }

theorem wit_StreamsStartAndTurn_3 :
    (atUnfed.atOp 0 cSplice = some (here spliceOp) ∧ atUnfed.plyOf 0 0 (State.plyFirst (here spliceOp)) = some unfed ∧
      atUnfed.accsOf 0 (here spliceOp) = [] ∧
      (State.plyToks (here spliceOp)).all (fun x => ((atUnfed.plyPins 0 (here spliceOp) unfed x.2).zip unfed.pins).all
        (fun q => State.tagFits q.1.1 q.2)) = false) ∧
    (let s := reloading repeatOp 1 2
     s.isReload 0 = true ∧ s.atOp 0 cRepeat = some (here repeatOp) ∧ s.firstLayer 0 0 + 0 ≠ s.lastLayer 0 0) ∧
    (let s := reloading repeatOp 0 1
     s.isReload 0 = true ∧ s.atOp 0 cRepeat = some (here repeatOp) ∧ s.firstLayer 0 0 + 0 = s.lastLayer 0 0) ∧
    (let s : State := { atOp 0x0E with batches := [{ oneBatch with swept := true }] }
     s.atOp 0 cSample = some { here 0x0E with b := { oneBatch with swept := true } }) ∧
    (let s := (atOp barrierOp).modStream 0 (fun x => { x with
       started := true
       bars := 1 })
     s.atOp 0 cBarrier = some (here barrierOp) ∧ (s.stream 0).started = true ∧
       (∀ j, j < 4 → (opA10 barrierOp >>> j) % 2 = 1 → j ≠ 0 → s.reached (here barrierOp) j 1 = true)) := by decide +kernel

theorem wit_StreamsStartAndTurn_2 :
    ((atOp barrierOp).atOp 0 cBarrier = some (here barrierOp) ∧ ((atOp barrierOp).stream 0).started = false ∧
      (∀ j, j < 4 → (opA10 barrierOp >>> j) % 2 = 1 → j ≠ 0 → ((atOp barrierOp).stream j).busy = false)) ∧
    (let s := (atOp barrierOp).modStream 1 (fun x => { x with busy := true })
     (opA10 barrierOp >>> 1) % 2 = 1 ∧ (s.stream 1).busy = true ∧ (s.stream 1).step = oneBatch.step ∧ (s.stream 1).ctx.toNat = oneBatch.ctx ∧
       (s.stream 1).block.toNat = 0 ∧ (s.stream 1).bars ≤ (s.stream 0).bars) ∧
    (twoLayers.atOp 0 cRepeat = some (here repeatOp) ∧ twoLayers.isReload 0 = false ∧
      twoLayers.firstLayer 0 0 + (here repeatOp).iter < twoLayers.lastLayer 0 0 ∧ bodyStart (here repeatOp).ops < (here repeatOp).ops.length) ∧
    ((atOp repeatOp).atOp 0 cRepeat = some (here repeatOp) ∧ (atOp repeatOp).lastLayer 0 0 ≤ (atOp repeatOp).firstLayer 0 0 + 0) ∧
    ((atOp 0x0E).atOp 0 cSample = some (here 0x0E) ∧ ceilDiv (batchToks oneBatch) 1024 ≤ 0 + 1 ∧ oneBatch.swept = false) := by decide +kernel

/-- A ply of no slots on accumulator 255, with its tiles. -/
def bareplies : PlyPanel := { onePly with
  slots := []
  k := 0 }
def onAcc (a : Acc) : State :=
  let s : State := { atOp plyOp with ctxs := [(0, oneCtx plyOp [bareplies])] }
  s.setAcc 0 255 { a with bound := true }
def aTok (tau : Nat) : TileTok := { tau := tau, tok := 0, ok := true, vals := [], sums := [] }

theorem wit_TokensAndTiles :
    (let s := onAcc { todo := [(7, 0)], t0 := { st := .filling, toks := (upTo 7).map aTok } }
     s.mastRuns 0 = true ∧ s.accOp 0 255 = some (here plyOp) ∧ s.accPanel 0 255 = some bareplies ∧ (s.acc 0 255).todo = [(7, 0)] ∧
       (State.getTile (s.acc 0 255) (s.acc 0 255).fill).st ≠ .closed ∧ (State.getTile (s.acc 0 255) (s.acc 0 255).fill).st ≠ .draining) ∧
    (let s := onAcc { todo := [(7, 0)], t0 := { st := .closed } }
     s.accOp 0 255 = some (here plyOp) ∧ (s.acc 0 255).t0.st = .closed) ∧
    (let s := onAcc { t1 := { st := .closed, toks := [aTok 0] } }
     (State.getTile (s.acc 0 255) 1).st = .closed ∧ (State.getTile (s.acc 0 255) 1).toks.all (·.ok) = true) ∧
    (let s := onAcc { t1 := { st := .draining, toks := [aTok 0] } }
     s.accOp 0 255 = some (here plyOp) ∧ s.accPanel 0 255 = some bareplies ∧ (State.getTile (s.acc 0 255) 1).st = .draining) := by
  decide +kernel

def aRepeat (arb : Bool) : Repeat :=
  { mast := 0, acc := 255, tau := 3, finds := [], time := 0, nested := false, arbitrating := arb, outside := [], wide := [] }
def repeating (arb : Bool) (out : List Nat) : State :=
  let s := onAcc { t1 := { st := .closed, toks := [{ aTok 3 with ok := false }] } }
  { s with integ := { repeats := [{ aRepeat arb with outside := out }] } }

theorem wit_RepeatsResolve :
    (let s := repeating false []
     s.accOp 0 255 = some (here plyOp) ∧ s.accPanel 0 255 = some bareplies ∧ s.integ.repeats.head? = some (aRepeat false) ∧
      State.tokOf (s.acc 0 255) 3 = some { aTok 3 with ok := false } ∧
      (let v := ((s.slotSpent 0 0).tokenVerdict 0 255 (here plyOp) bareplies 3 0 [] []).2
       v.finds = [] ∧ v.wide = []) ∧
      ((s.slotSpent 0 0).tokenVerdict 0 255 (here plyOp) bareplies 3 0 [] [.partialIn 5 true]).2.finds ≠ []) ∧
    ((repeating true []).integ.repeats.head? = some (aRepeat true) ∧ (aRepeat true).outside = []) ∧
    (repeating true [17407]).integ.repeats.head? = some { aRepeat true with outside := [17407] } := by decide +kernel

/-! Contexts and their weights. -/

/-- Context 15 of the live device, as given. -/
def withCtx (x : Ctx) : State := { live with ctxs := [(15, x)] }
def aManifest : Manifest := ⟨[oneTensor], [⟨7, 4096, 0, []⟩], [0, 0, 0, 0, 0, 0, 0, 0], [9]⟩
def aWload : Wload := ⟨0x1000, 0, some aManifest⟩
def loading (ph : BitVec 3) : Ctx := { oneCtx 0x05 [] with
  st := .stopped
  busy := true
  wload := some aWload
  phase := ph
  shards := 1
  missing := [0]
  loadTmo := 1 }

theorem wit_WeightLoadBeginsAndEnds :
    (let s := withCtx { st := .stopped, wbase := 0xFFFFFFFFFFFFF000 }
     s.hostMay = true ∧ (s.ctx 15).st = .stopped ∧ (s.ctx 15).wload = none ∧ s.loadNames 15 = false ∧ (s.ctx 15).wbase ≠ 0 ∧
       (s.ctx 15).wbase.toNat % 4096 = 0) ∧
    (let s := withCtx (loading 4)
     (s.ctx 15).wload = some aWload ∧ aWload.manifest = some aManifest ∧ (s.ctx 15).phase = 4 ∧ s.hostMay = true ∧ (s.ctx 15).st ≠ .absent ∧
       (∀ k, k < 4 → ∀ p ∈ s.arrsOf k (fun a => decide (a.slot.map (·.ctx) = some 15)), (s.arr k p).write = none ∧ (s.arr k p).fw = none ∧ (s.spl k p).busy = false)) := by
  decide +kernel

theorem wit_ManifestAndShards :
    (let s := withCtx (loading 1); (s.ctx 15).wload = some aWload ∧ (s.ctx 15).phase = 1) ∧
    (let s := withCtx (loading 2)
     s.hostMay = true ∧ (s.ctx 15).wload.isSome = true ∧ (s.ctx 15).phase = 2 ∧ bitsOf (0x7000 : W64).toNat 0 12 < (s.ctx 15).shards.toNat ∧
       bitsOf (0x7000 : W64).toNat 0 12 ∈ (s.ctx 15).missing ∧ s.posts.length < 64 ∧ (s.ctx 15).shards.toNat ≤ bitsOf (0x7001 : W64).toNat 0 12) ∧
    (let s : State := { withCtx (loading 2) with posts := [⟨15, 0, 0x7000⟩] }
     s.running 7 = some ⟨15, 0, 0x7000⟩ ∧ s.postShard ⟨15, 0, 0x7000⟩ = some ⟨7, 4096, 0, []⟩ ∧
       s.regionHeld 15 7 0 4096 = false ∧ (let u : State := { s with
         ctxs := [(15, { loading 2 with region := [[], [], [], [], [], [], [], [(chunkLow, 1)]] })]
         pdescs := [(7 * 2097152, { inuse := true })] }
       s.posts = u.posts ∧ u.running 7 = some ⟨15, 0, 0x7000⟩ ∧ u.regionHeld 15 7 0 4096 = true)) ∧
    (let s : State := { withCtx (loading 2) with time := 100000 }
     (s.ctx 15).wload = some aWload ∧ (s.ctx 15).phase = 2 ∧ (s.ctx 15).loadTmo ≠ 0 ∧ (s.ctx 15).missing ≠ [] ∧
       aWload.start + 100000 * (s.ctx 15).loadTmo.toNat ≤ s.now) := by decide +kernel

/-- No fetch runs while nothing is posted. -/
theorem wit_ManifestAndShards_2 : ∀ k p, (withCtx (loading 2)).running k = some p → (p.ctx, p.idx) ≠ (15, bitsOf (0x7000 : W64).toNat 0 12) := by
  intro k p h; exact absurd h (by simp [State.running, withCtx, live, State.reset])

/-- A PLY tensor whose column scales are all 3F3F3F3Fh, the rest zero, at the foot of the region of context 15 on stack 6. -/
def plainTensor : Tensor := ⟨1, 2, 6, 1, 0, 0, 0, 1064960⟩
def plainPly (fuses : Bool) : PlyPanel := ⟨3, 0, 2, 8, false, fuses, 0, 2, [], [], 0, 0, 7, [(false, 0)]⟩
def plainCtx (fuses : Bool) : Ctx := { loading 3 with
  sect := some (oneSection 0 [plainPly fuses])
  wload := some ⟨0x1000, 0, some ⟨[plainTensor], [], [0, 0, 0, 0, 0, 0, 512, 0], [9]⟩⟩
  region := [[], [], [], [], [], [], [(chunkLow, 4)]] }
def foot : Nat := 6 * 2 ^ 37 + frame0
def building (fuses : Bool) : State := { withCtx (plainCtx fuses) with hbm := (List.range' foot 4096).map (fun i => (i, 0x3F)) }

theorem tabGet_run (v : Byte) (k : Nat) : ∀ n a, tabGet 0 ((List.range' a n).map (fun i => (i, v))) k = if a ≤ k ∧ k < a + n then v else 0
  | 0, a => by simp [tabGet] <;> omega
  | n + 1, a => by
    simp only [List.range'_succ, List.map_cons, tabGet, tabGet_run v k n]
    split
    · rw [if_pos (by omega)]
    · congr 1; exact propext (by omega)

theorem hbmRead_eq (s : State) (k : Nat) : ∀ n o, s.hbmRead k o n = (List.range' o n).map (s.hbmByte k)
  | 0, _ => rfl
  | n + 1, o => by simp [State.hbmRead, hbmRead_eq s k n, List.range'_succ]

theorem slice_run (g : Nat → Byte) (a n o m : Nat) (h : o + m ≤ n) :
    slice ((List.range' a n).map g) o m = (List.range' (a + o) m).map g := by
  have e : List.take m (List.drop o (List.range' a n)) = List.range' (a + o) m := by
    rw [List.drop_range', List.take_range'_of_length_ge (by omega)]; simp
  simp only [slice, ← List.map_drop, ← List.map_take, e, List.length_map, List.length_range', Nat.sub_self, List.replicate_zero, List.append_nil]

/-- The tensor's bytes from the foot of the region, as firmware reads them. -/
def plainAt (i : Nat) : Byte := if frame0 ≤ i ∧ i < frame0 + 4096 then 0x3F else 0
def plainBytes : PlyTensor := ⟨2, (List.range' frame0 1064960).map plainAt⟩

theorem building_reads (f : Bool) : (building f).tensorBytes 15 plainTensor = plainBytes.bytes := by
  have e : (building f).regionPieces 15 6 0 1064960 = [(frame0, 1064960)] := by cases f <;> decide +kernel
  have r : ∀ n, [(frame0, n)].flatMap (fun x => (building f).hbmRead 6 x.1 x.2) = (List.range' frame0 n).map plainAt := by
    intro n
    rw [List.flatMap_cons, List.flatMap_nil, List.append_nil, hbmRead_eq]
    refine List.map_congr_left (fun i _ => ?_)
    simp only [State.hbmByte, building, tabGet_run, plainAt, foot]
    congr 1; exact propext (by omega)
  rw [State.tensorBytes, State.regionRead, plainTensor, e]; exact r _

theorem plain_t (j : Nat) (h : j < 1024) : plainBytes.t j = 0x3F3F3F3F := by
  have e : ∀ i, i < 4096 → plainAt (frame0 + i) = 0x3F := fun i hi => if_pos (by omega)
  simp only [PlyTensor.t, plainBytes, leAt]
  rw [slice_run _ _ _ _ _ (by omega)]
  simp only [List.range'_succ, List.range'_zero, List.map_cons, List.map_nil, Nat.add_assoc]
  rw [e _ (by omega), e _ (by omega), e _ (by omega), e _ (by omega)]
  rfl

theorem plain_zero (o n : Nat) (h : 4096 ≤ o) (k : o + n ≤ 1064960) : leAt plainBytes.bytes o n = 0 := by
  simp only [plainBytes, leAt]
  rw [slice_run _ _ _ _ _ k]
  have e : ∀ m a, frame0 + 4096 ≤ a → leNat ((List.range' a m).map plainAt) = 0 := by
    intro m
    induction m with
    | zero => intro a _; rfl
    | succ m ih =>
      intro a h
      simp only [List.range'_succ, List.map_cons, leNat, ih (a + 1) (by omega)]
      rw [show plainAt a = 0 from if_neg (by omega)]; rfl
  exact e _ _ (by omega)

theorem plain_plans : planFails plainBytes 0 0 = false := by
  simp only [planFails, upTo, List.any_eq_false, List.mem_range]
  intro j hj
  have hs : plainBytes.shift j = 0 := by
    simp only [PlyTensor.shift]; rw [plain_zero _ _ (by omega) (by omega)]; rfl
  have hc : ∀ i, i < 1024 → plainBytes.code 0 i j = 0 := fun i hi => by
    simp only [PlyTensor.code]; exact plain_zero _ _ (by omega) (by omega)
  have ht := plain_t j hj
  have hf : plainBytes.fmt = 2 := rfl
  simp only [PlyTensor.sBits, PlyTensor.s, ht, hs, hf, Bool.or_eq_true, List.any_eq_true, not_or, List.mem_range, not_exists, not_and]
  refine ⟨⟨⟨by decide +kernel, by decide +kernel⟩, by decide +kernel⟩, fun i hi => ?_⟩
  simp only [hc i hi]
  exact ⟨⟨by simp, by decide +kernel⟩, by decide +kernel⟩

theorem plain_fits (x : PlyTensor) (l : BitVec 2) : (deriveImage x 0 [] l 0).excess = false := by
  have hn : needsEntry l 0 = false := by
    have : ∀ l : BitVec 2, needsEntry l 0 = false := by decide
    exact this l
  have h : ∀ j, (planColumn x 0 [] l 0 j).2 = [] := by
    intro j
    simp only [planColumn, idleRow, Nat.zero_le, decide_true, Bool.true_or, if_true]
    generalize upTo 1024 = L
    simp [hn]
  have z : ∀ L : List Nat, List.foldl (· + ·) 0 (L.map (fun _ => 0)) = 0 := by
    intro L; induction L with
    | nil => rfl
    | cons a t ih => simpa using ih
  simp only [deriveImage, List.map_map, Function.comp_def, h, List.length_nil, z]
  simp

theorem wit_DerivedImageIsBuilt_2 : ∀ f : Bool, ∃ u d, (∀ x ∈ ((building f).ctx 15).digests, ¬(x.1 = 3 ∧ x.2.1 = 0)) ∧
    ((building f).ctx 15).phase = 3 ∧ ((building f).ctx 15).wload.isSome = true ∧ (building f).slotHeld 15 3 0 = false ∧
    (building f).useOf 15 3 0 = some u ∧ (building f).tensorOf 15 u.ply.tensor = some plainTensor ∧
    (building f).deriveSlot 15 3 0 0 = some (d, false) ∧ (building f).derivedAt 15 3 0 = some (6, 2097152) ∧ d.excess = false ∧
    fuseFails ⟨plainTensor.fmt, (building f).tensorBytes 15 plainTensor⟩ u.ply.scaleEn u.ply.biasEn = f := by
  intro f
  have hu : (building f).useOf 15 3 0 = some ⟨plainPly f, 0, 0, 0, false⟩ := by cases f <;> decide +kernel
  have ht : (building f).tensorOf 15 0 = some plainTensor := by cases f <;> decide +kernel
  refine ⟨_, deriveImage plainBytes 0 [] 0 0, ?_, ?_, ?_, ?_, hu, ht, ?_, ?_, plain_fits _ _, ?_⟩
  · cases f <;> decide +kernel
  · cases f <;> decide +kernel
  · cases f <;> decide +kernel
  · cases f <;> decide +kernel
  · simp only [State.deriveSlot, hu]
    have : (plainPly f).tensor = 0 := rfl
    simp only [this, ht]
    have e : (⟨plainTensor.fmt, (building f).tensorBytes 15 plainTensor⟩ : PlyTensor) = plainBytes := by rw [building_reads f]; rfl
    have := plain_plans
    simp only [e, plainPly, this]
  · cases f <;> decide +kernel
  · have e : (⟨plainTensor.fmt, (building f).tensorBytes 15 plainTensor⟩ : PlyTensor) = plainBytes := by rw [building_reads f]; rfl
    rw [e]
    cases f
    · simp [fuseFails, plainPly]
    · simp only [fuseFails, plainPly, List.any_eq_true]
      refine ⟨0, by simp [upTo], ?_⟩
      have z := plain_zero (4096 + 4 * 0) 4 (by omega) (by omega)
      simp only [PlyTensor.c, z]; decide

theorem wit_DerivedImageIsBuilt :
    (let s := withCtx { loading 3 with digests := [(3, 0, 0, [])] }
     (s.ctx 15).phase = 3 ∧ (s.ctx 15).wload.isSome = true ∧ ∃ d ∈ (s.ctx 15).digests, d.1 = 3 ∧ d.2.1 = 0) ∧
    (let c := { plainCtx false with wload := some ⟨0x1000, 0, some ⟨[{ plainTensor with size := 0 }], [], [], []⟩⟩ }
     let s := withCtx c
     s.useOf 15 3 0 = some ⟨plainPly false, 0, 0, 0, false⟩ ∧ s.slotHeld 15 3 0 = false ∧
       (s.deriveSlot 15 3 0 0).map (·.2) = some true ∧ (s.derivedAt 15 3 0).isSome = true) := by decide +kernel

theorem wit_ContextsRunAndStop :
    (∀ b : Bool, let s := withCtx { st := .stopped, bound := b }
      s.hostMay = true ∧ (s.ctx 15).st = .stopped ∧ (s.ctx 15).wload = none ∧ s.loadNames 15 = false) ∧
    (let s := withCtx { st := .running }; s.hostMay = true ∧ (s.ctx 15).st = .running) ∧
    (let s := withCtx { st := .draining }; s.hostMay = true ∧ (s.ctx 15).st = .draining ∧ s.inFlight 15 = false) := by decide +kernel

theorem wit_WeightBaseWrites :
    (∀ x ∈ [CtxState.running, .draining, .absent, .stopped], let s := withCtx { st := x }; s.hostMay = true ∧ (s.ctx 15).st = x) ∧
    (let s := withCtx { st := .draining, heldWbase := some 0x1000 }
     (s.ctx 15).st = .draining ∧ s.inFlight 15 = false ∧ (s.ctx 15).heldWbase = some 0x1000) ∧
    (let s := withCtx { st := .draining }; (s.ctx 15).st = .draining ∧ s.inFlight 15 = false ∧ (s.ctx 15).heldWbase = none) ∧
    live.lan.stuck = false ∧ live.addressed 2 131071 = true ∧ live.lan.resetEn = true := by decide +kernel

/-! The sequence engine. -/

/-- The host link is up and the engine enabled, with a context 0 that samples. -/
def engine : State :=
  let q : SeqRegs := { live.seq with enable := true }
  let l : HostLink := { live.link with
    st := 2
    bme := true }
  { live with
    seq := q
    link := l
    ctxs := [(0, oneCtx 0x0E [])] }
def slotOf (op : Nat) : List Byte := BitVec.ofNat 8 op :: List.replicate 63 0
/-- A command on entry 131,071, whose generation is 1. -/
def aDesc (op : Nat) : Desc := ⟨op, 0, 0, 0, 0x3FFFF, 7, 1, 0, 0, 0, 0xFFFF, 0, 0⟩
def aCpl : Cpl := ⟨7, 0x3FFFF, 0, 4, 8, 0⟩
def heldOne : State := { engine with
  time := 10000
  seq := { engine.seq with held := [aCpl] } }
def withEntry (e : SeqEntry) : State := { engine with entries := [(131071, e)] }

theorem wit_SequenceRings :
    (engine.hostMay = true ∧ engine.seq.enable = true ∧ engine.cplFull = false ∧ engine.seq.held = [] ∧ engine.bmStop = false ∧
      engine.seq.cqHead.toNat % engine.seq.cqSize.toNat ≠ (0xFFFF : W16).toNat % engine.seq.cqSize.toNat) ∧
    (∀ op ∈ [1, 9], 1 ≤ (descOf (slotOf op)).opcode ∧ (descOf (slotOf op)).opcode ≤ 9) ∧
    (∀ op ∈ [0, 10], (descOf (slotOf op)).opcode = 0 ∨ 9 < (descOf (slotOf op)).opcode) ∧
    (heldOne.hostMay = true ∧ heldOne.seq.held = [aCpl] ∧ heldOne.seq.enable = true ∧ heldOne.bmStop = false ∧ heldOne.cplFull = false ∧
      (heldOne.seq.cplTail.toNat + 1) % heldOne.seq.cplSize.toNat ≠ (63 : W16).toNat % heldOne.seq.cplSize.toNat ∧
      heldOne.seq.retryAt + 10000 ≤ heldOne.now ∧ ({ heldOne with time := 9999 } : State).now < heldOne.seq.retryAt + 10000) := by decide +kernel

/-- A reel of 64 records, and a sampler record whose every cut is off. -/
def aReel : List Byte := List.replicate 8 0 ++ [64] ++ List.replicate 55 0
def aSampler : List Byte := List.replicate 8 0 ++ leBytes 4 0x3F800000 ++ leBytes 4 0x3F800000 ++ List.replicate 8 0 ++ leBytes 4 0x3F800000 ++
  List.replicate 228 0
/-- A section with no layer group, which needs no page. -/
def bareCtx : Ctx :=
  let x : Section := oneSection 0x0E []
  let y : Section := { x with panel := { x.panel with groups := [] } }
  { oneCtx 0x0E [] with sect := some y }
def bareEngine : State := { engine with ctxs := [(0, bareCtx)] }
/-- The same as rank 0 of a job of two devices. -/
def twoDevices : State :=
  let p : DevicePanel := ⟨0, 1, 2, 0, 0, 0, 0, 0, 0, 0, []⟩
  let x : Sail := { bareEngine.sail with device := some p }
  { bareEngine with sail := x }

theorem wit_SubmitAdmits :
    (∀ s ∈ [bareEngine, twoDevices], (aDesc 1).opcode = 1 ∧ s.seqMay (aDesc 1) = true ∧
      (s.unfetch (aDesc 1)).submitCheck (aDesc 1) (some aReel) (some aSampler) = none ∧ (s.unfetch (aDesc 1)).freeEntry = some 0) ∧
    (bareEngine.unfetch (aDesc 1)).members = [] ∧ (twoDevices.unfetch (aDesc 1)).members ≠ [] ∧
    (bareEngine.unfetch (aDesc 1)).submitCheck (aDesc 1) none (some aSampler) = some sBadReel := by decide +kernel

def anEntry (x : SeqState) : SeqEntry := { st := x, length := 5 }
def bareEntry (x : SeqState) : State := { bareEngine with
  entries := [(131071, anEntry x)]
  reels := [(131071, reelFrom aReel 0)]
  inputs := [(131071, { copying := 1024 })]
  tables := [(131071, { owned := true })] }

theorem wit_EntryCommands :
    (∀ x ∈ [SeqState.waiting, .ended], let s := bareEntry x; let d := aDesc 2; let u := s.unfetch d
      s.seqMay d = true ∧ d.opcode = 2 ∧ State.badAlign d = false ∧ u.entryRefusal d true = (none, 131071) ∧ (s.entry 131071).st = x ∧ d.count ≠ 0 ∧
        (s.entry 131071).length.toNat + ((s.entry 131071).nextValid.toNat + d.count) ≤ 1048576 ∧
        ((s.entry 131071).nextValid.toNat + d.count + 1023) / 1024 ≤ u.inputFree ∧
        u.cmdFits 131071 (s.entry 131071).ctx.toNat (s.entry 131071).length.toNat
          (u.cmdRows 131071 (s.entry 131071).ctx.toNat (s.entry 131071).length.toNat ((s.entry 131071).nextValid.toNat + d.count)) false = true ∧
        u.members = []) ∧
    (let s := bareEntry .expired; let d := aDesc 3
     s.seqMay d = true ∧ (s.unfetch d).entryRefusal d true = (none, 131071) ∧ (s.entry 131071).st = .expired ∧ (s.entry 131071).inFlight = false ∧
       2 ≤ reelRoom (s.reel 131071) ∧ (s.reel 131071).held = [] ∧ (s.reel 131071).heldQ = 0) ∧
    (∀ x ∈ [SeqState.admitted, .restarting, .parked, .waiting, .ended, .cancelled, .expired, .faulted], let s := bareEntry x; let d := aDesc 4
      s.seqMay d = true ∧ (s.unfetch d).byHandle d.handle = some 131071 ∧ (s.entry 131071).st = x ∧ (s.entry 131071).moving = false) ∧
    (∀ x ∈ [SeqState.prefill, .decode], ∀ b : Bool, let s : State := { bareEngine with entries := [(131071, { st := x, inFlight := b })] }
      let d := aDesc 4
      s.seqMay d = true ∧ (s.unfetch d).byHandle d.handle = some 131071 ∧ (s.entry 131071).st = x ∧ (s.entry 131071).inFlight = b) ∧
    (let s := bareEntry .decode; let d := aDesc 9; s.seqMay d = true ∧ (s.unfetch d).byHandle d.handle = some 131071) := by decide +kernel

theorem wit_EntryCommands_2 : ∀ x ∈ [SeqState.waiting, .ended], let s := bareEntry x; let d := aDesc 5; let u := s.unfetch d
    s.seqMay d = true ∧ State.badAlign d = false ∧ u.entryRefusal d true = (none, 131071) ∧ (s.entry 131071).st = x ∧ reelOk aReel = true ∧
      smpOk aSampler (u.vocabOf (s.entry 131071).ctx.toNat) = true ∧ u.freeEntry = some 0 ∧ u.ctxFull (s.entry 131071).ctx.toNat = false ∧
      u.fits (s.entry 131071).ctx.toNat (u.forkNeed 131071) true = true ∧
      u.dirSize (s.entry 131071).ctx.toNat + (s.tbl 131071).ptrs.length ≤ u.ptbFree ∧ u.members = [] := by decide +kernel

/-- A move of entry 131,071 whose last page is as given: an HBM page of one reference, or a host frame. -/
def moveOf (r : Bool) : Move := ⟨r, 131071, aDesc (if r then 7 else 6), []⟩
def moving (r : Bool) (pages : Tab Nat) : State := { bareEntry (if r then .spilled else .ended) with
  kv := { bareEngine.kv with
    moves := [moveOf r]
    hostPages := 1 }
  ctxs := [(0, oneCtx 0x0E [])]
  pdescs := [(5, {
    inuse := true
    refs := 1 }), (16777216, {
    inuse := true
    refs := 1 })]
  tables := [(131071, {
    owned := true
    pages := pages })] }

theorem wit_MovesAndRelease :
    (∀ x ∈ [SeqState.waiting, .ended, .cancelled, .expired, .faulted], let s := bareEntry x; let d := aDesc 6
      s.seqMay d = true ∧ (s.unfetch d).entryRefusal d false = (none, 131071) ∧ (s.entry 131071).st = x ∧
        (s.unfetch d).spillFits 131071 (s.entry 131071).ctx.toNat = true) ∧
    (let s := bareEntry .spilled; let d := aDesc 7
     s.seqMay d = true ∧ (s.unfetch d).entryRefusal d false = (none, 131071) ∧ (s.entry 131071).st = .spilled ∧
       (s.unfetch d).recallFits 131071 (s.entry 131071).ctx.toNat (decide ((s.entry 131071).prior = .expired)) = true) ∧
    (∀ r : Bool, let s := moving r []; s.nextMove = some (moveOf r) ∧ s.reelMay = true ∧ s.movePages (moveOf r) = []) ∧
    (∀ r : Bool, let s := moving r [(0, if r then 16777217 else 6)]
      s.nextMove = some (moveOf r) ∧ s.movePages (moveOf r) = [(0, if r then 16777216 else 5)]) ∧
    (let s : State := { moving false [] with seq := { engine.seq with linkStop := true } }
     s.nextMove = some (moveOf false) ∧ s.reelMay = false) ∧
    (∀ x ∈ [SeqState.ended, .decode], let s := bareEntry x; let d := aDesc 8
      s.seqMay d = true ∧ (s.unfetch d).entryRefusal d false = (none, 131071) ∧ State.endedState (s.entry 131071) = decide (x = .ended) ∧
        (s.entry 131071).cancels = [] ∧ s.reelMay = true) ∧
    (let s : State := { bareEntry .ended with
       seq := { engine.seq with linkStop := true }
       reels := [(131071, { reelFrom aReel 0 with queue := [[1]] })] }
     s.seqMay (aDesc 8) = true ∧ (s.unfetch (aDesc 8)).entryRefusal (aDesc 8) false = (none, 131071) ∧ s.reelMay = false ∧
       (s.reel 131071).queue ≠ []) := by
  decide +kernel

/-- With its last page transferred, a SPILL has none left. -/
theorem wit_MovesAndRelease_2 : let s : State := { moving false [(0, 6)] with pdescs := [(5, {
      inuse := true
      refs := 1 })] }
    s.movePages (moveOf false) = [(0, 5)] ∧ (s.spillPage 131071 (s.entry 131071).ctx.toNat (0, 5)).movePages (moveOf false) = [] := by
  intro s
  have h : s.takeHost (s.entry 131071).ctx.toNat = (some 0, ({ s with freeCtr := 1 } : State).setPdesc 16777216 {
      refs := 1
      inuse := true
      ctx := 0 }) := by
    simp only [State.takeHost, State.free, show ∀ k, ({ s with freeCtr := k } : State).hostLimit = 1 from fun _ => rfl, Nat.mod_one, Nat.one_ne_zero,
      if_false, show State.takeHost.go { s with freeCtr := s.freeCtr + 1 } 1 1 0 = some 0 by decide +kernel]
    rfl
  refine ⟨by decide +kernel, ?_⟩
  simp only [State.spillPage, h]
  decide +kernel

/-- A step of the sequence of entry 131,071 in context 15: its batch, with what holds of the sampler's part of it. -/
def lastBatch (r d : Bool) (smp : Bool) : Batch := ⟨3, 15, 0, 0, [⟨131071, 5, [5], false, smp, [], [], false, [], 0, false⟩], true, [], false, r, d, false, [], [0],
  0, false, false⟩
def stepping (b : Batch) (e : SeqEntry) : State := { withEntry e with
  ctxs := [(15, oneCtx 0x0E [])]
  batches := [b]
  logits := (upTo 64).map (fun v => ((15 * 1024) * 1048576 + v, some 0)) }

theorem wit_StepsOfASequence :
    (let s := bareEntry .admitted
     (s.entry 131071).st = .admitted ∧ (s.entry 131071).cancelPend = false ∧ s.deadlinePassed (s.entry 131071) = false ∧
       (s.entry 131071).inFlight = false ∧ 2 ≤ reelRoom (s.reel 131071) ∧ (s.reel 131071).held = [] ∧ (s.reel 131071).heldQ = 0) ∧
    (∀ x ∈ [SeqState.prefill, .decode, .parked], let s := { withEntry { st := x, deadline := 1 } with time := 1 }
      (s.entry 131071).st = x ∧ (s.entry 131071).inFlight = false ∧ s.deadlinePassed (s.entry 131071) = true) ∧
    (let s : State := { engine with smps := [(131071, { due := some 5 })] }; (s.smpOf 131071).due = some 5) ∧
    (let b := lastBatch true false true; let s := stepping b { st := .decode, inFlight := true }
     s.batches.find? (fun b => b.ctx = 15 && b.released && !b.sampledAll) = some b ∧ s.logitsPresent b = true ∧
       State.samplingOf b = b.members ∧ b.replay = false) := by decide +kernel

def aRecDue : RecDue := ⟨131071, 3, 0, 1, 1, [5], 6, 0, true, false, 9, 0, 0, [], []⟩
theorem wit_StepsOfASequence_2 :
    (∀ smp : Bool, let b := lastBatch true true smp; let s := stepping b { st := .decode, inFlight := true }
      s.batches.find? (fun b => b.ctx = 15 && b.sampledAll && !b.swept && !b.replay) = some b ∧ b.members = [(State.memberOf b 0)]) ∧
    (let s : State := { engine with noticesDue := [(15, [1, 2])] }; s.noticesDue = (15, [1, 2]) :: []) ∧
    (let s : State := { engine with recorder := { engine.recorder with
       due := [aRecDue]
       armed := [(131071, List.replicate 8 0)] } }
     s.recorder.due = [aRecDue] ∧ s.recorder.armed.find? (fun a => a.1 = aRecDue.idx) = some (131071, List.replicate 8 0) ∧
       (upTo 8).map (fun k => aRecDue.ranges.getD k 0) = List.replicate 8 0 ∧ s.ringUsed + 2 ≤ s.ringUnits - 1 ∧
       ((layRecords s.ringUnits s.recorder.tail.toNat [s.stepBody aRecDue]).map (fun x => recUnits x.2)).foldl (· + ·) 0 = 2 ∧
       (let u : State := { s with recorder := { s.recorder with head := 2 } }
        u.ringUnits - 1 < u.ringUsed + 2)) := by decide +kernel

/-! Reels, pages, prefixes, ranges; spindles. -/

def reelsOf (x : Reel) (e : SeqEntry) : State := { withEntry e with
  reels := [(131071, x)]
  time := 10000 }
def queued : Reel := { reelFrom aReel 0 with queue := [[1, 0, 0, 0, 2], [2, 0, 0, 0]] }

theorem wit_ReelsAreWritten :
    (let s := reelsOf queued { st := .decode }
     s.reelMay = true ∧ (s.reel 131071).stopped = false ∧ (s.reel 131071).queue = [1, 0, 0, 0, 2] :: [[2, 0, 0, 0]] ∧
       (s.reel 131071).tailOwed = false ∧ (s.entry 131071).st ≠ .free ∧ s.hostMay = true ∧
       s.byHandle 0x3FFFF = some 131071 ∧ s.byHandle 0x1FFFF = none ∧ s.hostReads = true) ∧
    (let s := reelsOf (reelFrom aReel 0) { st := .parked }
     s.reelMay = true ∧ s.smp.pollUs ≠ 0 ∧ (s.entry 131071).st = .parked ∧ (s.reel 131071).readAt + 100 * s.smp.pollUs.toNat ≤ s.now) ∧
    (let s := reelsOf { reelFrom aReel 0 with held := [[3]] } { st := .decode }
     s.reelMay = true ∧ s.smp.pollUs ≠ 0 ∧ (s.reel 131071).held ≠ [] ∧ (s.reel 131071).readAt + 100 * s.smp.pollUs.toNat ≤ s.now) := by
  decide +kernel

/-- The last frame of stack 7 holds a page that a batch has, and no step needs. -/
def lastPage : Nat := 16777215
/-- A context whose weights take all of stack 7 above frame 0. -/
def crowded : State :=
  let x : Section := oneSection 0x0E []
  let y : Section := { x with panel := { x.panel with weightMib := [0, 0, 0, 0, 0, 0, 0, 1] } }
  { withEntry { st := .decode } with
    ctxs := [(0, { oneCtx 0x0E [] with
      sect := some y
      region := [[], [], [], [], [], [], [], [(chunkLow, 1)]] })]
    pdescs := [(lastPage, {
      inuse := true
      refs := 1 })]
    tables := [(131071, { pages := [(0, lastPage + 1)] })] }

theorem wit_PagesMove :
    (∀ n ∈ [0, 63, 64], let s : State := { live with kv := { live.kv with copying := [(1, lastPage, n)] } }
      s.kv.copying = (1, lastPage, n) :: [] ∧ n ≤ 64) := by decide +kernel

theorem wit_PagesMove_2 :
    (∀ l : Bool, let s : State := { live with
       pdescs := [(lastPage, {
         defer := true
         lost := l
         tag := 2 })]
       batches := [lastBatch false false false] }
     lastPage < 33554432 ∧ (s.pdesc lastPage).defer = true ∧
       (∀ b ∈ s.batches ++ s.rolled, b.swept = false → State.stepReached (s.pdesc lastPage).tag.toNat b.step = false)) := by decide +kernel

theorem wit_PagesMove_3 : lastPage < 33554432 ∧ crowded.frameDisplaced lastPage = true ∧ crowded.pinned lastPage = false ∧
      crowded.tblPage 131071 0 = some lastPage := by decide +kernel

/-- A frame whose tag a step in flight has not passed is not freed. -/
theorem wit_PagesMove_4 : let s : State := { live with
       pdescs := [(lastPage, {
         defer := true
         tag := 3 })]
       batches := [lastBatch false false false] }
     (s.pdesc lastPage).defer = true ∧ ∃ b ∈ s.batches ++ s.rolled, b.swept = false ∧ State.stepReached (s.pdesc lastPage).tag.toNat b.step = true :=
  ⟨by decide, lastBatch false false false, by decide +kernel, by decide, by decide +kernel⟩

/-- Context 0 with one prefix slot of up to 128 pages. -/
def prefixed : State :=
  let x : Section := oneSection 0x0E []
  let y : Section := { x with panel := { x.panel with
    prefixPages := 128
    prefixSlots := 1
    pageQuota := [128, 128, 0, 0, 0, 0, 0, 0] } }
  { engine with
    ctxs := [(0, { oneCtx 0x0E [] with sect := some y })]
    kv := { engine.kv with floors := [0, 0, 0, 0, 0, 0, 0, 0] } }

/-- Of two images that differ in their check tables alone, one fails. -/
theorem some_image_fails (n : Nat) (h : 0 < n) : ∃ l, checksPass l n = false := by
  have key : ∀ t : List Byte, t.length = 4 * blockCount n →
      checksPass (List.replicate (blockCount n * 4096) 0 ++ t) n = (t == checkTable (List.replicate n 0)) := by
    intro t ht
    have hm : n ≤ blockCount n * 4096 := by simp only [blockCount]; omega
    have e1 : slice (List.replicate (blockCount n * 4096) 0 ++ t) 0 n = List.replicate n 0 := by
      simp [slice, List.take_append, List.take_replicate, Nat.min_eq_left hm, hm]
    have e2 : slice (List.replicate (blockCount n * 4096) 0 ++ t) (blockCount n * 4096) (4 * blockCount n) = t := by
      simp [slice, ht, List.take_of_length_le (Nat.le_of_eq ht)]
    simp only [checksPass, e1, e2]
  have hb : 0 < blockCount n := by simp only [blockCount]; omega
  by_cases e : List.replicate (4 * blockCount n) (0 : Byte) = checkTable (List.replicate n 0)
  · refine ⟨_, (key (List.replicate (4 * blockCount n) 1) (by simp)).trans ?_⟩
    rw [← e]
    apply beq_eq_false_iff_ne.mpr
    intro h
    have := congrArg (fun l => l.head?) h
    rw [show 4 * blockCount n = (4 * blockCount n - 1) + 1 by omega] at this
    simp [List.replicate_succ] at this
  · exact ⟨_, (key _ (by simp)).trans (beq_eq_false_iff_ne.mpr e)⟩

theorem wit_PrefixesAndRanges_4 :
    (∃ l, checksPass l (2 * 32768) = false) ∧ checksPass [] 0 = true ∧
    (let s : State := { bareEngine with kv := { bareEngine.kv with pfxJob := some ⟨0, 0, 65, 0, false, false⟩ } }
     s.layerCount 0 * pagesFor 65 * 32768 = 0 ∧ s.fitsPrefix 0 (s.rowNeed 0 (pagesFor 65)) = true) :=
  ⟨some_image_fails _ (by decide), by decide +kernel, by decide +kernel⟩

theorem wit_PrefixesAndRanges :
    (prefixed.hostMay = true ∧ prefixed.pfxRefusal = none ∧ prefixed.pfxNamed 0 0 = false ∧
      (let s : State := { prefixed with seq := { prefixed.seq with fetched := [{ aDesc 1 with pfx := 0 }] } }
       s.pfxRefusal = none ∧ s.pfxNamed 0 0 = true)) ∧ 0 < 8192 ∧ 64 * live.prefixPages 0 < 1 ∧
    (∀ len ∈ [1, 8191], len < 8192 ∧ 0 < len ∧ len ≤ 64 * prefixed.prefixPages prefixed.kv.pfxSelCtx.toNat) ∧
    (let s : State := { prefixed with kv := { prefixed.kv with pfxSelSlot := 1 } }; s.hostMay = true ∧ s.pfxRefusal = some sPfxBadSlot) ∧
    (let s : State := { prefixed with kv := { prefixed.kv with pfxJob := some ⟨0, 0, 65, 0, false, false⟩ } }
     s.kv.pfxJob = some ⟨0, 0, 65, 0, false, false⟩ ∧ s.layerCount 0 * pagesFor 65 = 2 ∧
       s.fitsPrefix 0 (s.rowNeed 0 (pagesFor 65)) = true ∧
       (let u : State := { s with kv := { s.kv with floors := [0x3FFFFF] } }
        u.fitsPrefix 0 (u.rowNeed 0 (pagesFor 65)) = false)) := by
  decide +kernel

def hostFrameUsed : State := { live with pdescs := [(16777216, { inuse := true })] }

theorem wit_PrefixesAndRanges_2 : live.hostUsed = 0 ∧ live.hostMay = true ∧ hostFrameUsed.hostMay = true ∧ 0 < hostFrameUsed.hostUsed := by
  decide +kernel

def ranged (r : W64) : State := { withEntry { st := .decode } with
  xregs := { live.xregs with
    handle := 0x3FFFF
    ranges := [r, 0, 0, 0, 0, 0, 0, 0] } }

theorem wit_PrefixesAndRanges_3 :
    (ranged 0x8000000500000005).hostMay = true ∧ (ranged 0x8000000500000005).byHandle (ranged 0x8000000500000005).xregs.handle = some 131071 ∧
      (ranged 0x8000000500000005).xregs.ranges.any State.badRange = false ∧
    (ranged 0x8000000400000005).hostMay = true ∧ (ranged 0x8000000400000005).byHandle (ranged 0x8000000400000005).xregs.handle = some 131071 ∧
      (ranged 0x8000000400000005).xregs.ranges.any State.badRange = true ∧ live.hostMay = true ∧
      live.byHandle live.xregs.handle = none := by decide +kernel

/-- Mast 3 with firmware on all its spindles but the operator's one, the last; each holds `a` in x10. -/
def spinning (a : W64) (op : Bool) : State := { withEntry { st := .decode } with
  spns := [(3, {
    opEn := true
    opCount := 1
    opState := 1
    opCtx := 1
    fwLive := 127 })]
  spindles := [(3 * 128 + (if op then 127 else 126), { regs := [(10, a), (11, 63)] })] }

theorem wit_KrawynInstructions :
    (∀ op : Bool, let i := if op then 127 else 126; let s := spinning (BitVec.ofNat 64 (if op then State.opBase 3 else 262144 - 200)) op
      s.engineRuns 3 = true ∧ s.spindleRuns 3 i = true ∧ s.isOperator 3 i = op ∧
        (let a := (State.reg (s.spindle 3 i) 10).toNat
         a % 8 = 0 ∧ (s.isOperator 3 i = true → State.inRegion 3 a 14 = true) ∧ (∀ j, j < 14 → (s.spindleByte 3 i (a + j)).isSome = true) ∧
         ((s.isOperator 3 i = false ∧ a + 200 ≤ 262144) ∨ State.inRegion 3 a 200 = true))) ∧
    (let s := spinning 127 false
     s.engineRuns 3 = true ∧ s.spindleRuns 3 126 = true ∧ s.isOperator 3 126 = false ∧ (State.reg (s.spindle 3 126) 10).toNat < 128 ∧
       (State.reg (s.spindle 3 126) 11).toNat < 64) ∧
    (let s := spinning 262143 false
     s.engineRuns 3 = true ∧ s.spindleRuns 3 126 = true ∧ s.isOperator 3 126 = false ∧ (State.reg (s.spindle 3 126) 10).toNat % 8 ≠ 0) := by decide +kernel

theorem wit_SpindleEvents :
    (let s := spinning 0x3FFFF true
     s.engineRuns 3 = true ∧ s.isOperator 3 126 = false ∧ (s.spn 3).fwLive ≠ 0 ∧ s.hostMay = true ∧ (s.spn 3).opEn = true ∧
       (0x7FFFFFFF : W32).getLsbD 31 = false ∧ s.isOperator 3 127 = true ∧ (s.spn 3).opState = 1 ∧ s.mayEcall 3 127 = true ∧
       (s.entry 131071).st = .decode ∧ (s.entry 131071).inFlight = false ∧ 126 ∉ (s.spn 3).expired ∧ s.isOperator 3 125 = false ∧ (0xFFFFFFFF : W32).getLsbD 31 = true ∧
       (s.mbx 15).full = false ∧ (s.mbx 15).held = [] ∧ s.link.st = 2 ∧
       (let u : State := { s with link := { s.link with st := 1 } }; u.mayEcall 3 127 = true ∧ (u.mbx 15).held = [] ∧ u.link.st ≠ 2)) ∧
    (live.engineRuns 3 = true ∧ live.hostMay = true ∧ (0x801F000F : W32).getLsbD 31 = true ∧ (live.spn 3).opEn = false) ∧
    (let s := (spinning 0 true).modSpn 3 (fun x => { x with expired := [126] })
     126 ∈ (s.spn 3).expired ∧ s.integ.phase = 0 ∧ s.integ.jobState ≠ 5 ∧ s.engineRuns 3 = true ∧ s.isOperator 3 126 = false ∧ (s.spn 3).fwLive ≠ 0) ∧
    (let s := (spinning 0 true).modMbx 15 (fun x => { x with full := true }); s.mayEcall 3 127 = true ∧ (s.mbx 15).full = true) := by
  decide +kernel

theorem wit_SpindleEvents_3 :
    (let s := (spinning 0x3FFFF true).modEntry 131071 (fun e => { e with inFlight := true })
     s.mayEcall 3 127 = true ∧ s.engineRuns 3 = true ∧ (s.entry 131071).st = .decode ∧ (s.entry 131071).inFlight = true ∧
       (match s.ecallEntry 3 127 with | .ok k => decide (k = 131071) | .error _ => false) = true) := by decide +kernel

theorem wit_SpindleEvents_2 : (spinning 0x3FFFF true).ecallEntry 3 127 = .ok 131071 ∧ (spinning 0 true).ecallEntry 3 127 = .error sBadHandle :=
  ⟨by rfl, by rfl⟩

/-! Integrity, the recorder, replay. -/

/-- The device as rank `r` of a job of `n`, its halt in phase `ph` of epoch 5. -/
def ranked (n r : Nat) (ph : BitVec 3) : State :=
  let p : DevicePanel := ⟨131071, 1, n, r, 0, 0, 0, 0, 0, 0, []⟩
  let x : Sail := { engine.sail with device := some p }
  { engine with
    sail := x
    time := 100000000
    integ := { engine.integ with
      epoch := 5
      phase := ph } }
def aPkt (typ src : Nat) (epoch : W32) (reason : Nat) : Pkt := { typ := typ, dest := 131071, src := src, jobId := 1, flow := epoch, reason := reason }
def receiving (s : State) (p : Pkt) : State := { s with rig := { s.rig with delivered := [p] } }

/-- A digest round begun at step 0 whose cell part has run. -/
def aRound : DigestRound := {
  step := 0
  cycles := [some 16, some 16, some 16, some 16] }
def aShard (digest : List Byte) : Shard := ⟨7, 0, 0, digest⟩
def digesting (shards : List Shard) : State := { live with
  integ := { live.integ with round := some aRound }
  ctxs := if shards.isEmpty then [] else [(15, { oneCtx 0x05 [] with manifest := some { aManifest with shards := shards } })] }

theorem wit_LogAndDigestRounds :
    live.hostMay = true ∧ live.hostReads = true ∧
    (let s := digesting []
     s.integ.round = some aRound ∧ s.cellsDone aRound = true ∧ s.integ.roundDue = false ∧ s.boundShards = []) ∧
    (let x := aShard (List.replicate 33 0); let s := digesting [x]
     s.integ.round = some aRound ∧ s.cellsDone aRound = true ∧ s.integ.phase = 0 ∧ s.devFatal = false ∧ s.integ.roundDue = false ∧
       s.boundShards = [(15, 0, x)]) := by decide +kernel

theorem wit_LogAndDigestRounds_2 (l : List Byte) : shakeDigest l ≠ (aShard (List.replicate 33 0)).digest := by
  intro h
  have := congrArg List.length h
  simp [shakeDigest, shake256, aShard] at this
  omega

theorem wit_LogAndDigestRounds_3 (d : List Byte) : let x := aShard d; let s := digesting [x]
    s.integ.round = some aRound ∧ s.cellsDone aRound = true ∧ s.integ.roundDue = false ∧ s.boundShards = [(15, 0, x)] ∧
      s.shardBytes 15 x = [] := ⟨rfl, rfl, rfl, rfl, rfl⟩

theorem wit_LogAndDigestRounds_4 :
    ∃ d, shakeDigest ((digesting [aShard d]).shardBytes 15 (aShard d)) = (aShard d).digest := by
  have h := fun d => (wit_LogAndDigestRounds_3 d).2.2.2.2
  refine ⟨shakeDigest [], ?_⟩
  rw [h]
  simp only [aShard]

theorem wit_JobHaltsAndRestarts :
    (live.devFatal = false ∧ live.integ.phase = 0 ∧ okFound (.hop 0x498 true) = true ∧ okFound (.hop 0x310 false) = true ∧
      okFound (.single 1 0 (2 ^ 60 - 1)) = true ∧ okFound (.single 6 4 0) = true) ∧
    (∀ x ∈ [((0x80000004 : W32), 2), (6, 1)], let s := receiving (ranked 2 0 0) (aPkt pkHalt 0 x.1 x.2)
     s.devFatal = false ∧ (s.takePkt pkHalt).map (·.1) = some (aPkt pkHalt 0 x.1 x.2) ∧ later 32 x.1.toNat s.integ.epoch.toNat = true) ∧
    (∀ x ∈ [((0 : BitVec 3), 1), (0, 2), (1, 2), (1, 1)], let s := receiving (ranked 2 0 x.1) (aPkt pkHalt 0 5 x.2)
     s.devFatal = false ∧ (s.takePkt pkHalt).map (·.1) = some (aPkt pkHalt 0 5 x.2) ∧ (5 : W32) = s.integ.epoch ∧ s.integ.phase = x.1) ∧
    (let s := receiving (ranked 2 0 0) (aPkt pkHalt 0 4 1)
     s.devFatal = false ∧ (s.takePkt pkHalt).map (·.1) = some (aPkt pkHalt 0 4 1) ∧ later 32 (4 : W32).toNat s.integ.epoch.toNat = false ∧
       (4 : W32) ≠ s.integ.epoch) := by decide +kernel

theorem wit_JobHaltsAndRestarts_2 :
    (∀ r, r < 2 → let s := ranked 2 r 1; s.devFatal = false ∧ s.integ.phase = 1 ∧ s.integ.owed = [] ∧ (∀ m, m < 4 → s.verifyArrays m = []) ∧
      s.jobRank = r) ∧
    (let s := ranked 1 0 1; s.devFatal = false ∧ s.integ.phase = 1 ∧ s.integ.owed = [] ∧ (∀ m, m < 4 → s.verifyArrays m = []) ∧ s.jobRank = 0 ∧
      s.jobSize = 1 ∧ s.integ.haltReason ≠ 2) ∧
    (∀ ph ∈ [(3 : BitVec 3), 0], let s := receiving (ranked 2 0 ph) (aPkt pkReady 0 5 0)
     s.devFatal = false ∧ (s.takePkt pkReady).map (·.1) = some (aPkt pkReady 0 5 0) ∧ s.jobRank = 0 ∧ (5 : W32) = s.integ.epoch ∧
       s.rankOf 0 = some 1 ∧ s.integ.phase = ph) := by decide +kernel

theorem wit_JobHaltsAndRestarts_3 :
    (let s := receiving (ranked 2 1 3) (aPkt pkReady 0 5 0)
     s.devFatal = false ∧ (s.takePkt pkReady).map (·.1) = some (aPkt pkReady 0 5 0) ∧ s.jobRank ≠ 0) ∧
    (let s := receiving (ranked 2 1 3) (aPkt pkResume 0 5 0)
     s.devFatal = false ∧ (s.takePkt pkResume).map (·.1) = some (aPkt pkResume 0 5 0) ∧ (5 : W32) = s.integ.epoch ∧ s.integ.phase = 3 ∧
       s.integ.haltReason ≠ 2) ∧
    (let s := receiving (ranked 2 1 3) (aPkt pkResume 0 4 0)
     s.devFatal = false ∧ (s.takePkt pkResume).map (·.1) = some (aPkt pkResume 0 4 0) ∧ (4 : W32) ≠ s.integ.epoch) ∧
    (let s := ranked 2 0 3; s.devFatal = false ∧ s.integ.phase ≠ 0 ∧ s.integ.jobTmo ≠ 0 ∧ s.integ.tmoDone = false ∧
      s.integ.haltTime + 100000 * s.integ.jobTmo.toNat ≤ s.now ∧ s.jobRank = 0 ∧ s.integ.sentAt + 100000 ≤ s.now) ∧
    (let s := ranked 2 1 3; s.devFatal = false ∧ s.integ.phase = 3 ∧ s.jobRank ≠ 0 ∧ s.integ.sentAt + 100000 ≤ s.now) := by decide +kernel

def recording (n : W32) (x : SeqState) : State := { withEntry {
    st := x
    commits := n } with recorder := { engine.recorder with
  en := true
  armed := [(131071, [])] } }

theorem wit_RecorderAndReplay :
    (∀ x ∈ [SeqState.admitted, .prefill], let s := recording 0 x
      s.hostMay = true ∧ s.byHandle 0x3FFFF = some 131071 ∧ s.recorder.en = true ∧ (s.entry 131071).st = x ∧ (s.entry 131071).inFlight = false ∧
        (s.entry 131071).commits = 0 ∧ (s.entry 131071).length.toNat = (s.xr 131071).p0 ∧ s.ringUsed + 11 ≤ s.ringUnits - 1 ∧
        s.recorder.tail.toNat + 6 ≤ s.ringUnits) ∧
    (let s := recording 1 .decode; s.hostMay = true ∧ s.byHandle 0x3FFFF = some 131071 ∧ s.recorder.en = true ∧ (s.entry 131071).commits ≠ 0) ∧
    live.recorder.en = false ∧ (0x80000001 : W32).getLsbD 31 = true ∧ (0x7FFFFFFF : W32).getLsbD 31 = false := by decide +kernel

def aRplStep : RplStep := ⟨3, 0, 0, true, 9, 0, [5], 0, [], false⟩
def aRplJob (n : Nat) (abort flight : Bool) : RplJob := ⟨0, 0xFFFF, 0, {}, List.replicate (n + 1) aRplStep, 0, [], abort, flight⟩
def replaying (n : Nat) (abort flight : Bool) : State := { engine with
  rpl := { engine.rpl with job := some (aRplJob n abort flight) }
  batches := [{ lastBatch true true true with replay := true }] }

theorem wit_RecorderAndReplay_2 :
    (∀ n ∈ [512, 1073741824], let s : State := { engine with rpl := { engine.rpl with len := BitVec.ofNat 32 n } }
      s.hostMay = true ∧ s.rpl.reading = false ∧ s.rpl.job = none ∧ s.rpl.src.toNat % 4096 = 0 ∧ s.rpl.len.toNat % 64 = 0 ∧
        512 ≤ s.rpl.len.toNat ∧ s.rpl.len.toNat ≤ 1073741824) ∧
    (let s : State := { engine with rpl := { engine.rpl with src := 1 } }
     s.hostMay = true ∧ s.rpl.reading = false ∧ s.rpl.job = none ∧ s.rpl.src.toNat % 4096 ≠ 0) ∧
    (let s : State := { engine with rpl := { engine.rpl with reading := true } }; s.rpl.reading = true) ∧
    (∀ n ∈ [0, 1], ∀ a f : Bool, let s := replaying n a f
      s.hostMay = true ∧ s.rpl.job = some (aRplJob n a f) ∧
        s.batches.find? (fun b => b.replay && b.sampledAll && !b.swept) = some { lastBatch true true true with replay := true } ∧
        (aRplJob n a f).steps = aRplStep :: List.replicate n aRplStep) := by decide +kernel

/-! The rigging. -/

/-- Halyard 31 as given. -/
def withPort (x : Port) : State := { engine with
  time := 2000
  ports := [(31, x)] }
def upPort : Port := { st := .up }
/-- An idle frame of FSEQ n, with a right or wrong check code. -/
def aFrame (n : Nat) (ok : Bool) : List Byte :=
  let b := leBytes 2 n ++ List.replicate 250 0
  b ++ leBytes 4 ((crc32c b).toNat + ok.toNat * 0 + (!ok).toNat)

theorem wit_HalyardsTrainAndRun :
    (let s := withPort upPort; (aFrame 0 false).length = 256 ∧ (s.port 31).st = .up ∧ s.hostMay = true ∧ (s.port 31).retrains.length < 7 ∧
      (s.port 31).frameAt + 1000 ≤ s.now ∧ leAt (aFrame 0 false) 252 4 ≠ (crc32c (slice (aFrame 0 false) 0 252)).toNat) ∧
    (∀ n ∈ [0, 65535], (aFrame n true).length = 256 ∧ leAt (aFrame n true) 252 4 = (crc32c (slice (aFrame n true) 0 252)).toNat ∧
      leAt (aFrame n true) 0 2 = n) ∧
    (withPort upPort |>.port 31).rxSeq.toNat = 0 ∧
    (let s := withPort { upPort with
       replay := [(0, [], true)]
       resends := List.replicate 62 1999 }
     (s.port 31).st = .up ∧ (s.port 31).replay ≠ [] ∧ (s.port 31).ackAt + 200 ≤ s.now ∧
       ((s.port 31).resends.filter (fun u => decide (s.now < u + 100000))).length < 63) ∧
    (let s := withPort { upPort with retrains := [7, 6, 5, 4, 3, 2, 1] }
     (s.port 31).st = .up ∧ (s.port 31).retrains[6]? = some 1 ∧ s.now ≤ 1 + 100000000 ∧ (s.port 31).frameAt + 1000 ≤ s.now) ∧
    (∀ x ∈ [PortState.training, .down], let s := withPort { st := x }
      (s.port 31).en = true ∧ (s.port 31).st = x ∧ (s.port 31).retrains.length < 7) ∧
    (∀ x ∈ [PortState.off, .disabled, .up], let s := withPort { st := x }; s.hostMay = true ∧ (s.port 31).st = x) := by decide +kernel

/-- A data packet of epoch 5 and step 3 for this device, its descriptor from byte 14 on and its payload as given. -/
def dataPkt (typ : Nat) (d p : List Byte) : Pkt := {
  typ := typ
  vc := 1
  start := true
  dest := 131071
  src := 0
  jobId := 1
  desc := leBytes 4 (blockCheck p).toNat ++ leBytes 6 3 ++ leBytes 4 5 ++ slice d 0 14
  payload := p }

theorem leAt_leBytes (n : Nat) (r : List Byte) : leAt (leBytes 4 n ++ r) 0 4 = n % 2 ^ 32 := by
  simp [leAt, leBytes, slice, leNat]
  omega

/-- Its payload check agrees. -/
theorem dataPkt_pchk (typ : Nat) (d p : List Byte) : State.pchkOk (dataPkt typ d p) = true := by
  simp only [State.pchkOk, dataPkt, List.append_assoc, leAt_leBytes]
  simp [Nat.mod_eq_of_lt (blockCheck p).isLt]

def atSwitch (q : Pkt) (st : PortState) : State := { ranked 2 0 0 with
  ports := [(31, { st := st })]
  rig := { engine.rig with inq := [q] } }
def hopPkt : Pkt := { dataPkt 1 [] [] with
  desc := []
  hops := 1
  ports := 31 <<< 55 }

theorem wit_PacketsReachTheirConsumers :
    (let q := { hopPkt with hcrcOk := false }; (atSwitch q .up).rig.inq = q :: [] ∧ q.hcrcOk = false) ∧
    (∀ x ∈ [PortState.up, .down], let s := atSwitch hopPkt x
      s.rig.inq = hopPkt :: [] ∧ hopPkt.hcrcOk = true ∧ hopPkt.hop < hopPkt.hops ∧ (s.port (portOf hopPkt.ports hopPkt.hop)).st = x) ∧
    (let q := { dataPkt 1 [] [] with dest := 5 }; q.hcrcOk = true ∧ q.hops ≤ q.hop ∧ q.dest ≠ (atSwitch q .up).deviceId) ∧
    (∀ j ∈ [1, 2], let q := { aPkt pkHalt 0 5 1 with jobId := j }; let s := atSwitch q .up
     q.hcrcOk = true ∧ q.hops ≤ q.hop ∧ q.dest = s.deviceId ∧ decide (q.jobId = s.jobId) = decide (j = 1) ∧ isControl q = true) ∧
    (∀ x ∈ [(2, 0), (1, 77)], let q := { dataPkt 1 [] [] with jobId := x.1, src := x.2 }; let s := atSwitch q .up
     q.hcrcOk = true ∧ q.hops ≤ q.hop ∧ q.dest = s.deviceId ∧ (q.jobId ≠ s.jobId ∨ s.rankOf q.src = none) ∧ isControl q = false) := by
  decide +kernel

theorem wit_PacketsReachTheirConsumers_5 :
    (∀ b : Bool, let q := { dataPkt 1 [] [] with start := b }; let s := atSwitch q .up
     q.hcrcOk = true ∧ q.hops ≤ q.hop ∧ q.dest = s.deviceId ∧ q.jobId = s.jobId ∧ isControl q = false ∧ s.rankOf q.src = some 1 ∧
       q.dcrcOk = true ∧ q.start = b ∧ tabGet 0 s.rig.rxFlow (1 * 4 + q.vc) = 0 ∧ s.integ.phase = 0) ∧
    (let q := { dataPkt 1 [] [] with dcrcOk := false }; let s := atSwitch q .up
     q.hcrcOk = true ∧ q.hops ≤ q.hop ∧ q.dest = s.deviceId ∧ q.jobId = s.jobId ∧ isControl q = false ∧ s.rankOf q.src = some 1 ∧
       q.dcrcOk = false) ∧
    (let s := atSwitch hopPkt .up; let x := s.port (portOf hopPkt.ports hopPkt.hop); let n := (pktBytes { hopPkt with hop := 1 }).length
     x.txq = [] ∧ State.inputOf { hopPkt with hop := 1 } < 37 ∧ hopPkt.vc < 4 ∧ isControl hopPkt = false ∧ pktUnits n ≤ x.credits.getD hopPkt.vc 0 ∧
       x.replay.length + ceilDiv n 244 ≤ 1024) ∧
    (let s := (atSwitch hopPkt .up).modPort 31 (fun x => { x with credits := [256, 0, 256, 256, 8] }); let x := s.port 31
     x.st = .up ∧ x.txq = [] ∧ isControl hopPkt = false ∧ x.credits.getD hopPkt.vc 0 = 0 ∧
       0 < pktUnits (pktBytes { hopPkt with hop := 1 }).length) := by decide +kernel

def rowPkt : Pkt := dataPkt pkRow [7, 0, 2, 0, 4, 7, 5, 0, 0, 0, 0, 0, 0, 0] [1, 2, 3, 4]
def logitPkt : Pkt := dataPkt pkLogit [0, 0, 1, 0, 0, 0, 0, 0, 0, 0, 0, 0, 0, 0] [1, 2, 3, 4]
def inputPkt : Pkt := dataPkt pkInput [1, 0, 0, 0, 0, 0, 0, 0, 0, 0, 0, 0, 0, 0] [9, 0, 0, 0]
def gatherer : State := { ranked 2 0 0 with
  ctxs := [(15, { oneCtx 0x0E [] with sect := some { oneSection 0x0E [] with prog := [0x0C, 0x0E] } })]
  batches := [lastBatch false false true] }

theorem wit_PacketsReachTheirConsumers_2 :
    (receiving gatherer rowPkt).rig.delivered.find? (fun q => q.typ = pkRow) = some rowPkt ∧ State.pchkOk rowPkt = true ∧
    ((receiving gatherer logitPkt).takePkt pkLogit).map (·.1) = some logitPkt ∧ State.pchkOk logitPkt = true ∧
    ((receiving gatherer inputPkt).takePkt pkInput).map (·.1) = some inputPkt ∧ State.pchkOk inputPkt = true :=
  ⟨rfl, dataPkt_pchk .., rfl, dataPkt_pchk .., rfl, dataPkt_pchk ..⟩

theorem wit_PacketsReachTheirConsumers_3 :
    (let s := receiving gatherer rowPkt
     s.stale rowPkt = false ∧ leAt rowPkt.desc 23 1 = 0 ∧
       s.inboxRoom (leAt rowPkt.desc 19 1 % 4) (s.rowPart rowPkt).width (s.rowPart rowPkt).fmt = true) ∧
    (let q := dataPkt pkRow [7, 0, 2, 0, 4, 7, 5, 0, 0, 1, 0, 0, 0, 0] [1, 2, 3, 4]
     (receiving gatherer q).stale q = false ∧ leAt q.desc 23 1 = 1) ∧
    (∀ x ∈ [(pkRow, rowPkt), (pkLogit, logitPkt), (pkInput, inputPkt)], let s := { receiving gatherer x.2 with integ := { gatherer.integ with epoch := 6 } }
      s.stale x.2 = true ∧ s.freshPkt x.2 = false) ∧
    (let s := receiving gatherer logitPkt
     s.stale logitPkt = false ∧
       s.batches.find? (fun b => b.step = State.pktStep logitPkt && !b.replay && s.isHead b.ctx) = some (lastBatch false false true) ∧
       0 < leAt logitPkt.desc 16 2 ∧ 1024 * leAt logitPkt.desc 14 2 + 0 < s.vocabOf 15 ∧ s.vocabOf 15 ≤ 1048576) ∧
    (let s := receiving gatherer inputPkt
     s.freshPkt inputPkt = true ∧ (((s.ctx 15).sect.map (·.prog)).getD []).any (fun op => op % 256 = 0x0C) = true) := by decide +kernel

theorem wit_PacketsReachTheirConsumers_6 :
    (let s : State := { receiving gatherer rowPkt with inboxes := [(3, [{ gatherer.rowPart rowPkt with width := 2 ^ 40 }])] }
     s.stale rowPkt = false ∧ leAt rowPkt.desc 23 1 = 0 ∧ leAt rowPkt.desc 19 1 % 4 = 3 ∧
       s.inboxRoom 3 (s.rowPart rowPkt).width (s.rowPart rowPkt).fmt = false) := by
  decide +kernel

/-- An item of a kind on handle `h`, with the word at 8 and the word at 12 as given. -/
def anItem (kind h f8 f12 : Nat) : List Byte := itemBytes kind 0 1 h f8 f12 0 0
def itemPkt (kind h f8 f12 : Nat) : Pkt := dataPkt pkHead [1, 0] (anItem kind h f8 f12)
def quotaCtx : Ctx :=
  let x := oneSection 0x0E []
  { oneCtx 0x0E [] with sect := some { x with
    panel := { x.panel with pageQuota := [9, 9, 9, 9, 9, 9, 9, 9] }
    prog := [0x0C, 0x0E] } }
def member (kind h f8 f12 : Nat) : State := receiving { gatherer with
  ctxs := [(15, quotaCtx)]
  tables := [(shadowKey 15 0x3FFFF, { owned := true })] } (itemPkt kind h f8 f12)

theorem wit_ItemsOfHeads : ∀ k ∈ [kBatch, kCommit, kReserve, kReserveAck, kRefuse, kRelease, kPageLost, kRanges],
    let s := member k 0x3FFFF 1 0xFFFF; let q := itemPkt k 0x3FFFF 1 0xFFFF; let it := anItem k 0x3FFFF 1 0xFFFF
    s.freshPkt q = true ∧ (s.takeItem k).map (·.1) = some it ∧ leAt it 1 1 = 0 ∧
      (s.tbl (shadowKey 15 (leAt it 4 4))).owned = true ∧ leAt it 12 4 = 0xFFFF := by decide +kernel

theorem wit_ItemsOfHeads_3 (k h f8 f12 : Nat) : State.pchkOk (itemPkt k h f8 f12) = true := dataPkt_pchk ..

/-- A RESERVE that fits and one that does not, of a sequence that is there, that is new, with a prefix slot, and of a FORK. -/
theorem wit_ItemsOfHeads_4 :
    (let s := member kReserve 0x3FFFF 1 0xFFFF; let i := shadowKey 15 0x3FFFF
     (s.tbl i).owned = true ∧ (s.dropRows i).cmdFits i 15 (s.tbl i).shadow 1 false = true ∧
       (s.dropRows i).cmdFits i 15 (s.tbl i).shadow 10 false = false) ∧
    (let s := { member kReserve 0x3FFFF 1 0xFFFF with tables := [] }; let i := shadowKey 15 0x3FFFF
     (s.tbl i).owned = false ∧ s.cmdFits i 15 (s.tbl i).shadow 1 true = true) ∧
    (let s := { member kReserve 0x3FFFF 1 7 with
        tables := []
        prefixes := [(15 * 4096 + 7, { loaded := true })] }; let i := shadowKey 15 0x3FFFF
     (s.tbl i).owned = false ∧ (s.pfx 15 7).loaded = true ∧ s.cmdFits i 15 (s.pfx 15 7).length 1 true = true ∧ (s.pfx 15 8).loaded = false) ∧
    (let s := { member kReserve 0x3FFFF 1 0xFFFF with tables := [(shadowKey 15 5, { owned := true })] }; let i := shadowKey 15 0x3FFFF
     (s.tbl i).owned = false ∧ (s.tbl (shadowKey 15 5)).owned = true ∧ s.fits 15 (s.forkNeed (shadowKey 15 5)) true = true ∧
       s.dirSize 15 + (s.tbl (shadowKey 15 5)).ptrs.length ≤ s.ptbFree) ∧
    (∀ o ∈ [1, 3], let it := itemBytes kCommit o 1 0x3FFFF 1 0 0 0
     ((receiving gatherer (dataPkt pkHead [1, 0] it)).takeItem kCommit).map (·.1) = some it ∧ leAt it 1 1 = o) := by decide +kernel

def anAwait (op : Nat) (w : List Nat) (no : Bool) : Await := {
  idx := 131071
  ctx := 15
  cmd := aDesc op
  refused := no
  waiting := w
  acked := []
  reel := []
  smp := [] }
def awaiting (op : Nat) (w : List Nat) (no : Bool) (kind : Nat) (st : SeqState) : State :=
  let s := member kind 0x3FFFF 1 0xFFFF
  { s with
    seq := { s.seq with awaits := [anAwait op w no] }
    entries := [(131071, { st := st, gen := 1 })] }

theorem wit_ItemsOfHeads_2 :
    (∀ w ∈ [[1], [1, 2]], ∀ op ∈ [1, 2], ∀ no : Bool, ∀ kind ∈ [kReserveAck, kRefuse], let s := awaiting op w no kind .waiting
      let it := anItem kind 0x3FFFF 1 0xFFFF
      s.rankOf (itemPkt kind 0x3FFFF 1 0xFFFF).src = some 1 ∧ (s.takeItem kind).map (·.1) = some it ∧
        s.seq.awaits.find? (fun a => a.idx = leAt it 4 4 % 131072) = some (anAwait op w no) ∧
        ((∃ k ∈ w, k ≠ 1) ∨ (∀ k ∈ w, k = 1)) ∧ (aDesc op).opcode = op ∧ (s.entry 131071).st = .waiting) ∧
    (∀ x ∈ [SeqState.prefill, .decode, .parked, .restarting, .admitted, .waiting, .ended, .expired],
      let s := awaiting 2 [1] false kPageLost x; let it := anItem kPageLost 0x3FFFF 1 0xFFFF
      s.byHandle (BitVec.ofNat 32 (leAt it 4 4)) = some 131071 ∧ (s.entry 131071).st = x ∧ s.hostReads = true) := by decide +kernel

/-! The host link and security. -/

def linked (f : HostLink → HostLink) : State := { engine with link := f engine.link }

def aReply : Reply :=
  { addr := 64
    bytes := [1]
    len := 1
    seq := 9 }

theorem wit_HostLinkAndVectors :
    (linked (fun l => { l with st := 1 })).link.st = 1 ∧
    (let s : State := { linked (fun l => { l with st := 1 }) with time := 10000000 }; s.link.trainAt + 10000000 ≤ s.now) ∧
    (let s : State := { engine with
       time := 6553500
       vecs := [(16, {
         masked := false
         gathered := true
         sent := true
         holdoff := 0xFFFF })] }
     (s.vec 16).gathered = true ∧ (s.vec 16).masked = false ∧ s.bmStop = false ∧
       (s.vec 16).sentAt + 100 * (s.vec 16).holdoff.toNat ≤ s.now) ∧
    (let s : State := { engine with vecs := [(0, {
       masked := true
       gathered := true })] }
     (s.vec 0).gathered = true ∧ (s.vec 0).masked = true) ∧
    (engine.link.st = 2 ∧ engine.seq.held = [] ∧ State.reset.link.st ≠ 2) ∧
    (let s : State := { engine with mbxs := [(23, { held := [aReply] })] }
     (s.mbx 23).full = false ∧ (s.mbx 23).held = [aReply]) := by decide +kernel

def keyed (l : List Session) (bound : Bool) : State := { linked (fun x => { x with
  sessions := l
  bound := bound
  boundSession := 7 }) with clk := { engine.clk with idOk := true } }

theorem wit_SecureSessions :
    (engine.link.st = 2 ∧ engine.clk.state ≠ 0 ∧ engine.clk.idOk = false) ∧
    (let s := keyed [] false; s.link.st = 2 ∧ s.clk.state ≠ 0 ∧ s.clk.idOk = true ∧ s.link.sessions.any (fun x => x.id = 7) = false) ∧
    (let s := keyed [⟨7, true, some [1]⟩] false
     s.link.sessions.any (fun x => x.id = 7) = true ∧ s.link.sessions.find? (fun x => x.id = 7 && x.done) = some ⟨7, true, some [1]⟩ ∧
       s.link.bound = false ∧ s.link.requester = none) ∧
    (let s : State := { keyed [⟨7, true, some [1]⟩] false with link := { (keyed [⟨7, true, some [1]⟩] false).link with requester := some [1] } }
     s.link.st = 2 ∧ s.link.requester = some [1]) ∧
    ((keyed [⟨7, false, none⟩] false).link.sessions.find? (fun x => x.id = 7 && x.done)).isNone = true ∧ (keyed [] true).link.bound = true := by decide +kernel

theorem wit_Bar2NeedsTheBoundStream : engine.link.bound = false ∧ engine.hostMay = true := by decide +kernel

def boxes (k : Nat) (x : Mbx) : State := { keyed [] true with mbxs := [(k, x)] }

theorem wit_MailboxesAndWindow :
    (∀ k ∈ [0, 6, 16, 19], ∀ f : Bool, let s := boxes k { full := f }
      s.mailboxMay = true ∧ s.link.bound = true ∧ hostSends k = true ∧ (s.mbx k).full = f) ∧
    (∀ k ∈ [7, 15, 20, 23], let s := boxes k { full := true }
      s.mailboxMay = true ∧ s.link.bound = true ∧ hostSends k = false ∧ hostReceives k = true ∧ (s.mbx k).full = true ∧ (s.mbx k).held = []) ∧
    (let s := boxes 20 {
       full := true
       held := [aReply] }
     (s.mbx 20).held = [aReply] ∧ hostReceives 20 = true ∧ s.bmStop = false) ∧
    ((boxes 7 {}).mbx 7).full = false ∧ hostReceives 7 = true ∧ hostReceives 6 = false ∧
    (boxes 0 {}).mbx 0 = {} ∧ ((boxes 23 { owner := 1023 }).mbx 23).owner ≠ 0 ∧
    (6 * 268435456 + 268435456 ≤ 2 ^ 31 ∧ live.clk.state = 1 ∧ live.pwr.furled = false ∧ (live.spn 3).opEn = false ∧
      268435455 + [(1 : Byte)].length ≤ 268435456) := by decide +kernel

/-- A request for a service with 8 bytes of operands, and the state whose mailbox holds it. -/
def aRequest (code : Nat) (ops : List Byte) : List Byte :=
  leBytes 2 code ++ leBytes 2 1 ++ leBytes 4 (32 + ops.length) ++ leBytes 8 64 ++ leBytes 4 4096 ++ List.replicate 12 0 ++ ops
def aBoot : BootRec := ⟨0xFFFFFFFF, false, true, false, 3, 0, false, 0⟩
def asked (k : Nat) (q : List Byte) : State :=
  let s := boxes k {
    full := true
    len := BitVec.ofNat 32 q.length
    seq := 9 }
  s.flashWrite 0x10000 (bootBytes aBoot)

theorem wit_ServicesAnswer :
    (∀ kq ∈ [(6, aRequest 1 []), (6, aRequest 2 []), (16, aRequest 0x100 []), (19, aRequest 0x103 []), (19, aRequest 0x110 []),
        (19, aRequest 0x101 (leBytes 4 16773120 ++ leBytes 4 4096 ++ List.replicate 4120 0)), (19, aRequest 0x102 [7])],
      let s := asked kq.1 kq.2
      kq.1 < 24 ∧ hostSends kq.1 = true ∧ (s.mbx kq.1).full = true ∧ s.clk.state = 1 ∧ s.devFatal = false ∧
        State.requestOk kq.2 = true ∧ (s.mbx (replyBox kq.1)).full = false ∧ (s.mbx (replyBox kq.1)).held = [] ∧ s.bmStop = false) ∧
    (asked 19 (aRequest 0x102 [7])).message 19 (some (aRequest 0x102 [7])) = some (aRequest 0x102 [7]) ∧
    leAt (aRequest 0x101 (leBytes 4 16773120 ++ leBytes 4 4096)) 32 4 = 16773120 ∧
    leAt (aRequest 0x101 (leBytes 4 16773120 ++ leBytes 4 4096)) 36 4 = 4096 ∧ leAt (aRequest 0x102 [7]) 32 1 = 7 ∧
    (asked 19 (aRequest 0x103 [1])).bootForce = some (1, aBoot) ∧ aBoot.trial = true := by decide +kernel

/-! Power. -/

/-- The live device with group 3, which holds mast 3 alone, in a state. -/
def resting (st : PwrState) (f : Power → Power) : State :=
  let p : Power := { live.pwr with groups := [.sail, .sail, .sail, st] }
  { live with pwr := f p }
/-- A die of mast 0 at a temperature of 1/16 °C. -/
def heated (x : BitVec 16) : State :=
  let d : Die := {
    powered := true
    valid := true
    temp := x }
  { live with dies := [(0, d)] }

theorem wit_PowerCommands :
    (live.mailboxMay = true ∧ live.pwr.groups.length = 4 ∧ live.pwr.targets.length = 4 ∧ live.pwr.wake = none) ∧
    (∀ x ∈ [PwrState.reef, .douse], let s := resting x id; s.mailboxMay = true ∧ s.groupSt 3 = x ∧ (8 : BitVec 4).getLsbD 3 = true ∧
      s.pwr.wake = none ∧ s.pwr.targets.getD 3 none = none) ∧
    ((heated 1919).hottestDie = some 1919 ∧ (heated 1920).hottestDie = some 1920 ∧ (heated 1760).hottestDie = some 1760 ∧
      live.hottestDie = none) ∧
    (let s : State := { live with time := 1000 }; s.pwr.stepAt + 1000 ≤ s.now) ∧ live.now < live.pwr.stepAt + 1000 := by decide +kernel

theorem wit_PowerCommands_2 :
    [(899 : W16), 900, 1000][0]? = some 899 ∧ (live.laser 8).2 ≠ 1000 ∧
    (let s : State := { live with lasers := [(8, (true, 1000))] }; (s.laser 8).2 = 1000) := by decide +kernel

theorem wit_SleepStates :
    (∀ x ∈ [PwrState.reef, .douse], let s := resting .sail (fun p => { p with targets := [none, none, none, some x] })
      s.pwr.groups.length = 4 ∧ s.pwr.furled = false ∧ s.wants 3 x = true ∧ s.groupIdle 3 = true ∧ s.sleepWaits = false) ∧
    (let s := resting .sail (fun p => { p with furlTarget := true })
     s.pwr.furlTarget = true ∧ s.deviceIdle = true ∧ s.sleepWaits = false ∧ s.clk.state = 1) ∧
    (resting .reef id).groupSt ((resting .reef id).groupOfMast 3) = .reef ∧ live.groupSt (live.groupOfMast 3) = .sail ∧ live.adc.job = none ∧
    (resting .douse id).groupSt ((resting .douse id).groupOfMast 3) = .douse ∧ (resting .douse id).pwr.wake = none ∧
    (let s : State := { live with dies := [(31, { poweringUp := true })] }; (s.die 3 7).poweringUp = true) := by decide +kernel

/-- A wake from DOUSE whose mast 3 has one BLANK array that served a slot, its image in HBM at the array's level map. -/
def rewriting : State :=
  let x : Wake := ⟨.douse, 1, 0, [3], 0⟩
  let m : Manifest := ⟨[{ plainTensor with size := 0 }], [], [], []⟩
  let c := { plainCtx false with
    manifest := some m
    wload := none
    digests := [(3, 0, 2, [])] }
  let a : Arr := {
    st := .blank
    lmap := 2
    slot := some ⟨15, 0⟩ }
  ({ live with
    ctxs := [(15, c)]
    pwr := { live.pwr with
      groups := [.sail, .sail, .sail, .douse]
      wake := some x
      served := [(3, 17407)] }
    dies := (List.range 32).map (fun k => (k, { powered := true })) } : State).setArr 3 17407 a

/-- A wake in progress at a stage, all dies powered. -/
def waking (src : PwrState) (n : Nat) : State :=
  let x : Wake := ⟨src, 1, 0, [3], n⟩
  let s := resting .douse (fun p => { p with
    wake := some x
    valid := [(3, 17407)] })
  { s with dies := (List.range 32).map (fun k => (k, { powered := true })) }

theorem wit_Wakes :
    (let s : State := { resting .douse (fun p => { p with furled := true }) with seq := { live.seq with hint := 5000000 } }
     s.pwr.groups.length = 4 ∧ s.pwr.furled = true ∧ s.pwr.wake = none ∧ s.pwrNext ≠ 2 ^ 64 - 1 ∧ s.pwrNext ≤ s.now + 5000000) ∧
    (let s : State := { resting .douse (fun p => { p with furled := true }) with lan := { live.lan with delayed := some 0 } }
     s.pwr.furled = true ∧ s.pwr.wake = none ∧ s.lan.delayed = some 0 ∧ 0 ≤ s.now) ∧
    (let s : State := { resting .douse id with seq := { live.seq with hint := 500000 } }
     s.pwr.furled = false ∧ s.pwr.wake = none ∧ s.groupSt 3 = .douse ∧ s.pwrNext ≠ 2 ^ 64 - 1 ∧ s.pwrNext ≤ s.now + 500000) ∧
    (let s : State := { resting .douse id with lan := { live.lan with delayed := some 1 } }; s.lan.delayed = some 1 ∧ s.now < 1) ∧
    (let s : State := { resting .douse id with lan := { live.lan with delayed := some 0 } }
     s.pwr.furled = false ∧ s.lan.delayed = some 0 ∧ 0 ≤ s.now ∧ s.groupSt 3 = .douse) ∧
    (∀ n ∈ [0, 1], let s := waking .douse n; s.pwr.wake = some ⟨.douse, 1, 0, [3], n⟩ ∧
      s.allPowered (([3] : List Nat).flatMap s.mastsOf) = true ∧ s.pwr.served = [] ∧ (3, 17407) ∈ s.pwr.valid ∧
      (([3] : List Nat).flatMap s.mastsOf).contains 3 = true ∧ s.pwr.epochs.getD 3 0 = s.age.epoch ∧
      s.stillWriting (s.pwr.served.filter (fun x => (([3] : List Nat).flatMap s.mastsOf).contains x.1)) = false) ∧
    (∀ n ∈ [0, 1, 2, 3, 4], let s := waking .furl n; s.pwr.wake = some ⟨.furl, 1, 0, [3], n⟩ ∧ s.clk.state = 1 ∧
      s.allPowered (upTo 4) = true ∧ s.adc.busy = false ∧ s.arrs.any (fun ka => ka.2.write.isSome || ka.2.fw.isSome) = false) := by decide +kernel

theorem wit_Wakes_2 :
    let s := rewriting;
     s.pwr.wake = some ⟨.douse, 1, 0, [3], 0⟩ ∧ s.allPowered (([3] : List Nat).flatMap s.mastsOf) = true ∧ s.pwr.served = [(3, 17407)] ∧
       (([3] : List Nat).flatMap s.mastsOf).contains 3 = true ∧ (s.arr 3 17407).st = .blank ∧ (s.arr 3 17407).slot = some ⟨15, 0⟩ ∧
       (s.arr 3 17407).cmdBusy = false ∧ (s.arr 3 17407).write = none ∧ (s.derivedAt 15 3 (s.imageSlot 3 ⟨15, 0⟩)).isSome = true ∧
       (s.builtImage 15 3 (s.imageSlot 3 ⟨15, 0⟩)).map (·.1) = some (s.arr 3 17407).lmap := by decide +kernel

/-! The lanyard, resets, boot. -/

/-- The device that job group 5 holds as device 131,071, its wake slot 9. -/
def named (f : Lanyard → Lanyard) : State := { live with lan := f { live.lan with copy := some (131071, 5, 9) } }

theorem wit_LanyardRuns :
    (∀ x ∈ [(0, 131071), (1, 5), (2, 0), (3, 131071)], x.1 < 4 ∧ x.2 < 131072 ∧ (named id).lan.stuck = false ∧
      (named id).addressed x.1 x.2 = decide (x.1 ≠ 3)) ∧
    (let s := named (fun l => l); s.addressed 0 5 = false ∧ s.addressed 1 131071 = false ∧ s.lan.sleepEn = true ∧ s.pwr.furled = false ∧
      s.pwr.targets.length = 4 ∧ s.lan.wakeEn = true ∧ s.lan.noisy = false ∧ s.lan.delayed = none ∧ s.pwr.wake = none) ∧
    (named (fun l => { l with sleepEn := false })).lan.sleepEn = false ∧ (named (fun l => { l with resetEn := false })).lan.resetEn = false ∧
    (let s : State := { named id with pwr := { live.pwr with furled := true } }
     s.addressed 0 131071 = true ∧ s.lan.wakeEn = true ∧ s.lan.noisy = false ∧ s.pwr.furled = true ∧ s.pwr.wake = none) ∧
    (let s := named (fun l => { l with
       noisy := true
       wakeAt := some 0 })
     s.lan.wakeEn = true ∧ s.lan.noisy = true ∧ s.lan.wakeAt = some 0 ∧ s.now < 0 + 1000000) ∧
    (named (fun l => { l with stuck := true })).lan.stuck = true ∧ (named (fun l => { l with wakeEn := false })).lan.wakeEn = false ∧
    (named (fun l => { l with windowAt := 1 })).now < 1 + 100000000 ∧
    (∀ n ∈ [0, 100, 101, 1000, 1001], let s : State := { named (fun l => { l with windowBad := n }) with time := 100000000 }
      s.lan.windowBad = n ∧ s.lan.windowAt + 100000000 ≤ s.now) := by decide +kernel

theorem wit_ResetsAndFailures :
    (0 < 4 ∧ 131071 < 131072 ∧ (named id).lan.stuck = false ∧ (named id).addressed 0 131071 = true ∧ (named id).lan.resetEn = true ∧
      (named id).clk.xtalOk = true) ∧
    (live.devFatal = false ∧ live.integ.phase = 0) ∧
    (∀ i, i < 4 → (live.port (4 * 7 + i)).st ≠ .up) ∧
    (let s : State := { named id with clk := { live.clk with xtalOk := false } }
     s.lan.stuck = false ∧ s.addressed 0 131071 = true ∧ s.lan.resetEn = true ∧ s.clk.xtalOk = false) ∧
    (let s : State := { live with integ := { live.integ with phase := 1 } }; s.integ.phase ≠ 0) := by decide +kernel

/-- The ROM is about to run, with a boot record in copy 0. -/
def atRom (trial : Bool) (n : Nat) : State := State.reset.flashWrite 0 (bootBytes ⟨7, true, trial, false, n, 0, false, 0⟩)

theorem wit_RomAndRelease :
    (∀ x ∈ [(false, 0), (true, 0), (true, 1)], let s := atRom x.1 x.2; s.clk.state = 0 ∧ s.devFatal = false ∧ s.pwr.furled = false ∧
      s.clk.chosen = none ∧ s.bootForce = some (0, ⟨7, true, x.1, false, x.2, 0, false, 0⟩)) ∧
    State.reset.bootForce.isNone = true ∧
    (let s : State := { State.reset with clk := { State.reset.clk with chosen := some true } }
     s.clk.state = 0 ∧ s.clk.chosen = some true) := by decide +kernel

/-! Worked examples of the manual, each computed there by hand. -/

/-- Chapter 0: of two 32-bit numbers, 0000_0005h is later than FFFF_FFFDh. -/
theorem test_later : later 32 5 0xFFFFFFFD = true ∧ later 32 0xFFFFFFFD 5 = false := by decide

/-- Chapter 3: code 170, that is 42, under factor word 8200_0500_03E8_FE05h gives 11,050/256; Table 2.4: 39, −5 and 69 under the reset word. -/
theorem test_correct : correct 0x8200050003E8FE05 0x435E51 0 42 = 11050 ∧ correct facReset 0x435E51 0 39 = 10509 ∧
    correct facReset 0x435E51 0 (-5) = -1347 ∧ correct facReset 0x435E51 0 (-39) = -10509 ∧ correct facReset 0x435E51 0 69 = 18594 := by
  decide +kernel

/-- Tables 2.3 and 2.4: the digits of the activations, and the raw codes of the four phases. -/
theorem test_digits : ([45, -100, 7, -1] : List Int).map (fun a => (upTo 4).map (State.digit a)) =
    [[1, 3, 2, 2], [0, 3, 1, 0], [3, 1, 0, 2], [3, 3, 3, 1]] := by decide +kernel
theorem test_codes : ([10496, -1280, -10496, 18688] : List Int).map (fun x => State.nominalCode (19 / 20) x 8) = [39, -5, -39, 69] := by decide +kernel

/-- Table 4.5: the column output is 48.580322265625; the shared exponent of inputs of magnitude 1.5625 is −6. -/
theorem test_colOut : f32 (colOut ⟨-6, [], false, false⟩ 0x3C000000 404401 721 (Ext.ofRat (-447 / 512))) = Ext.ofRat (48580322265625 / 1000000000000) ∧
    scaleExp (15625 / 10000) = -6 := by decide +kernel

/-- Table 5.3: the running sum with draws 30,001, 7,219 and 51,000. -/
theorem test_stochAdd :
    let o (q : Rat) : W32 := rne32 (Ext.ofRat q)
    let s1 := stochAdd (o (48580322265625 / 1000000000000)) (o (-(12 + 1 / 2 ^ 20))) 30001
    let s2 := stochAdd s1 (o (51 / 2 + 1 / 2 ^ 19)) 7219
    let s3 := stochAdd s2 (o (13 / 4 + 1 / 2 ^ 18)) 51000
    f32 s1 = Ext.ofRat (36580322265625 / 1000000000000) ∧ f32 s2 = Ext.ofRat (62080322265625 / 1000000000000) ∧
      f32 s3 = Ext.ofRat (6533032989501953125 / 100000000000000000) := by decide +kernel

/-- The end of the same example: SiLU of 5,417,249 × 2^-21, in BF16, is 401Ah. -/
theorem test_silu : (convTo 1 (actFn 2 (rne32 (Ext.ofRat (5417249 / 2097152))))).bits = 0x401A := by decide +kernel

/-- Chapter 9: the planned values of an E4M3 column at SHIFT −6, and its entries at 63 levels. -/
theorem test_plan : planned 2 0x5D (-6) = some 1664 ∧ planWeight 0 28 = (28, 0) ∧ planWeight 0 (-96) = (-31, -65) ∧
    planWeight 0 1664 = (31, 1633) ∧ splitRes 1633 = List.replicate 12 127 ++ [109] := by decide +kernel

/-- Table 13.2: the penalties of tokens 17 and 42, the choice with u = 0.8125, and LP = BD57h (two tokens stand for the tail of 0.0018). -/
theorem test_sampling :
    let r : List Byte := List.replicate 24 0 ++ leBytes 4 0x3FA00000 ++ leBytes 4 0x3E800000 ++ leBytes 4 0x3E000000
    penalise r 2 (Ext.ofRat (25 / 2)) = Ext.ofRat (19 / 2) ∧ penalise r 1 (Ext.ofRat (45 / 4)) = Ext.ofRat (69 / 8) ∧
    choose [(23, 905), (22, 3310), (19, 17), (18, 7001)] (19 / 20) (1 / 20) (13 / 16) = some 3310 ∧
    logProb 22 [23, 22, 19, 18, 69 / 4, 16, 16] = 0xBD57 := by decide +kernel

/-- Chapter 16: PORTS of a route of two hops over halyards 7 and 19. -/
theorem test_ports : portsField [7, 19] = 0x03CC000000000000 ∧ portOf (portsField [7, 19]) 1 = 19 := by decide +kernel

/-- CRC-32C of the nine digits, the check value of its definition. -/
theorem test_crc32c : crc32c ("123456789".toList.map (fun c => BitVec.ofNat 8 c.toNat)) = 0xE3069283 := by decide +kernel

/-- SHAKE256 of no bytes, by its definition (FIPS 202). -/
theorem test_shake256 : shake256 [] 8 = [0x46, 0xB9, 0xDD, 0x2B, 0x0B, 0xA8, 0x8D, 0x13] := by decide +kernel

/-! Ill-formed commands: one for each operand that must name something. -/

theorem test_illFormed_1 : ∀ i ∈ ([.registerWrite false false 4294967296 0 0, .arrayStepSlot 4 [], .maintenanceSlot 4 [] [], .restoreCycleEnd 4 [], .restoreFailure 4 0,
    .restoreFailure 0 17408, .dieTempSample 4 [], .write 4 0 false, .write 0 17408 false, .writeDequeue 4,
    .writeRowWindow 4 0 ⟨true, false, true⟩, .writeRowWindow 0 17408 ⟨true, false, true⟩, .writeComplete 4 0 [], .writeComplete 0 17408 [], .colwrite 4 0 false,
    .colwrite 0 17408 false, .colwriteComplete 4 0 false, .colwriteComplete 0 17408 false, .abort 4 0 false, .abort 0 17408 false,
    .discard 4 0 false, .discard 0 17408 false, .mastArrRetWrite 4 0 false, .mastArrRetWrite 0 17408 false, .plyTokenStep 4 0 [] [],
    .plyTokenStep 0 256 [] [], .tileDrainStart 4 0 0, .tileDrainStart 0 256 0, .tileDrainStart 0 0 2, .tileDrained 4 0 0,
    .tileDrained 0 256 0, .tileDrained 0 0 2, .tokenRepeat 4 0 0 [] [], .tokenRepeat 0 256 0 [] [], .plausibilityArbitration 4 0 0,
    .plausibilityArbitration 0 256 0, .splLoad 4 0 0 false, .splLoad 0 17408 0 false, .splLoadComplete 4 0 [], .splLoadComplete 0 17408 [],
    .splClear 4 0 false, .splClear 0 17408 false, .trimCycleEnd 4 [], .laserWarn 9 0, .laserEndOfLife 9,
    .sailOpkeyWrite 4 0, .plyMvm 4 none, .splice 4 none, .attend 4 none, .attendJobStart 4 []] : List Instr), i.wf = false := by decide +kernel

theorem test_illFormed_2 : ∀ i ∈ ([.expand 4 none, .norm 4 none 0, .rope 4 none 0, .act 4 none 0, .add 4 none,
    .scale 4 none, .send 4 none, .recv 4 none, .recvTimeout 4, .gather 4 none,
    .logits 4 none, .sample 4, .check 4 none, .barrier 4, .repeatBody 4,
    .wload 16, .wloadManifestRead 16 none, .ctxShardPost 16 0, .shardFetchComplete 8 none, .wloadTimeout 16,
    .derivedImageBuilt 16 0 0, .derivedImageBuilt 0 4 0, .wloadComplete 16, .start 16, .stop 16,
    .ctxDrainComplete 16, .wabort 16, .ctxWbaseWrite 16 0, .inputCopyComplete 131072 none false, .deadlineExpiry 131072,
    .samplerFinish 16, .commitSweep ⟨16, 0⟩, .matchUpdate 131072, .reelRecordWrite 131072 false false, .reelHeadRead 131072 none,
    .reelPoll 131072 none, .deferredFree 33554432, .frameMove 33554432, .pfxLoad 8192, .kwCrc32c 4 0 0 0 0,
    .kwCrc32c 0 128 0 0 0, .kwCrc32c 0 0 32 0 0, .kwCrc32c 0 0 0 32 0, .kwCrc32c 0 0 0 0 32, .kwKeccak 4 0 0 0,
    .kwKeccak 0 128 0 0, .kwKeccak 0 0 32 0, .kwKeccak 0 0 0 32, .kwTwist 4 0 0 0 0 [], .kwTwist 0 128 0 0 0 []] : List Instr), i.wf = false := by decide +kernel

theorem test_illFormed_3 : ∀ i ∈ ([.kwTwist 0 0 32 0 0 [], .kwTwist 0 0 0 32 0 [], .kwTwist 0 0 0 0 32 [], .kwPgwalk 4 0 0 0 0, .kwPgwalk 0 128 0 0 0,
    .kwPgwalk 0 0 32 0 0, .kwPgwalk 0 0 0 32 0, .kwPgwalk 0 0 0 0 32, .kwWaitev 4 0 0 0, .kwWaitev 0 128 0 0,
    .kwWaitev 0 0 32 0, .kwWaitev 0 0 0 32, .kwSignal 4 0 0 0, .kwSignal 0 128 0 0, .kwSignal 0 0 32 0,
    .kwSignal 0 0 0 32, .spindleWatchdog 4 0 ⟨0, none⟩, .spindleWatchdog 0 128 ⟨0, none⟩, .spindleWatchdog 0 0 ⟨128, none⟩, .mastSpnCtlWrite 4 0,
    .operatorTrap 4 0 0 0, .operatorTrap 0 128 0 0, .ecallCancel 4 0, .ecallCancel 0 128, .ecallSetPriority 4 0,
    .ecallSetPriority 0 128, .notify 4 0, .notify 0 128, .linkFrame 32 (List.replicate 256 0) 0 false, .linkFrame 0 [] 0 false,
    .linkResend 32, .laneLockLoss 32 0, .laneLockLoss 0 8, .portIdleTimeout 32, .portTrainingDone 32 0 false,
    .en 32 false, .retrain 32 false, .input 16, .batch 16, .commit 16,
    .reserve ⟨16, none⟩, .headRelease ⟨16, false⟩, .ranges 16, .vectorHoldoffEnd 17, .doorbell 24,
    .ack 24, .mbxCleatRead 24 0, .mbxCleatRead 0 1024, .mbxCleatWrite 24 0, .info 24 none] : List Instr), i.wf = false := by decide +kernel

theorem test_illFormed_4 : ∀ i ∈ ([.link 24 none, .fwStatus 24 none false, .fwWrite 24 none false, .fwActivate 24 none false, .fwCommit 24 none false,
    .idInfo 24 none false, .reefEntry 4, .douseEntry 4, .firstAccess 4 0, .firstAccess 0 5,
    .diePowerStable 4 0, .diePowerStable 0 8, .nop 4 0, .nop 0 131072, .wake 4 0,
    .wake 0 131072, .reef 4 0, .reef 0 131072, .douse 4 0, .douse 0 131072,
    .furl 4 0, .furl 0 131072, .reset 4 0 0, .reset 0 131072 0, .hbmPllUnlock 8,
    .opticalPllUnlock 9, .returnToRetention 4, .opticalPllLock 9, .timeCompare 4 0, .timeCompare 0 128,
    .lanyardReservedCmd 4 0, .lanyardReservedCmd 0 131072, .arrayStepSlot 0 [⟨17408, 0, 0, 0, none⟩], .arrayStepSlot 0 [⟨0, 1040, 0, 0, none⟩], .arrayStepSlot 0 [⟨0, 0, 4, 0, none⟩], .jobHalt (some (.hop 0x40 false)), .jobHalt (some (.single 0 0 0)), .bar2Reject 65,
    .cxlMemWindowWrite 2147483648 [0], .submit (aDesc 2) none none false, .append (aDesc 1) false, .resume (aDesc 1) false, .cancel (aDesc 1) false,
    .fork (aDesc 1) none none false, .spill (aDesc 1) false, .recall (aDesc 1) false, .release (aDesc 1) false, .setPriority (aDesc 1) false] : List Instr), i.wf = false := by decide +kernel

/-- Commands whose operands name the last unit of each kind are well formed, and an ill-formed one changes nothing. -/
theorem test_wellFormed : (∀ i ∈ ([.write 3 17407 true, .tileDrained 3 255 1, .wload 15, .linkFrame 31 (List.replicate 256 0) 0 false,
    .deferredFree 33554431, .kwTwist 3 127 31 31 31 [], .mbxCleatRead 23 1023, .vectorHoldoffEnd 16, .reset 3 131071 0, .submit (aDesc 1) none none true,
    .opticalPllLock 8, .bar2Reject 64] : List Instr), i.wf = true) ∧
    exec (.wload 16) live = .next live ∧ exec (.write 4 0 true) live = .next live := by
  refine ⟨by decide +kernel, rfl, rfl⟩

/-! The queue. -/

/-- The front command runs, and the rest waits; with none waiting a tick passes. -/
theorem test_step : (∃ t, step { live with pending := [.inputUndervoltage, .pwrFurl] } = .next t ∧ t.pending = [.pwrFurl] ∧ t.pwr.uv = true) ∧
    (∃ t, step live = .next t ∧ t.time = 1) := ⟨⟨_, rfl, by decide, by decide⟩, ⟨_, rfl, by decide⟩⟩

/-- No row of the table gives bits. -/
theorem test_table : decodeTableWord 32 0xFFFFFFFF = none ∧ State.reset.withFetchWord 32 5 = State.reset := ⟨rfl, rfl⟩

end Sys2Proof.Tests
end

/-! Registers that software writes whole (R5, R8): the shared argument once, then one line per register with the field it holds. -/

namespace Sys2Proof.Machine

namespace State

/-- The 32-bit register at offset `o` of BAR0 takes `v` whole: a write makes a state whose register reads `v` once the form of a meaning has
passed over it, and arrays, entries and HBM are as they were. -/
def TakesWrite (s : State) (spindle : Bool) (v : W32) (o : Nat) : Prop :=
  ∃ t, s.set32 false spindle o v = some t ∧ (s.keepBoot t).regAt false spindle o = .w32 v.toNat ∧ t.arrs = s.arrs ∧ t.entries = s.entries ∧
    t.hbm = s.hbm

/-- The registers of the statement, block by block (Table 21.1). -/
def controlRegisters : List Nat := [0x10, 0x100010, 0x200050, 0x200054, 0x200100]
def tokenRegisters : List Nat := [0x40001C, 0x4000CC, 0x600004, 0x600008, 0x601020]
def arrayRegisters : List Nat := [0x800008, 0x800030, 0x880008]
def integrityRegisters : List Nat := [0xA00014, 0xA00018, 0xA00048, 0xA0004C, 0xA0011C, 0xA00130]
def platformRegisters : List Nat := [0xC00024, 0xC00048, 0xC0004C, 0xE00010, 0xE00014, 0xE00018, 0xE0001C, 0xE00020, 0x1000010]
def mastRegisters : List Nat :=
  [0x2000140, 0x2800144, 0x3000180, 0x3800184, 0x2000188, 0x28001C8, 0x30001CC, 0x3800204, 0x2000210, 0x2800228]
def wholeRegisters : List Nat :=
  controlRegisters ++ tokenRegisters ++ arrayRegisters ++ integrityRegisters ++ platformRegisters ++ mastRegisters

theorem wholeRegisters_aligned : ∀ o ∈ wholeRegisters, o < 2 ^ 32 ∧ o % 4 = 0 := by decide

variable {s t : State} {spindle : Bool} {v : W32} {o : Nat}

/-- Firmware runs exactly where no check of a register write stops it (R334, R432). -/
theorem hostMay_iff : s.hostMay = true ↔ s.devFatal = false ∧ s.clk.state = 1 ∧ s.pwr.furled = false := by
  simp [hostMay, and_assoc]

/-- While firmware runs, an aligned 32-bit write in BAR0 of a register of that width does what the register says. -/
theorem registerWrite_of_set32 (hm : s.hostMay = true) (ho : o % 4 = 0) (hset : s.set32 false spindle o v = some t) :
    s.registerWrite false spindle o 32 (v.setWidth 64) = t := by
  obtain ⟨hfatal, hstate, hfurled⟩ := hostMay_iff.1 hm
  simp [registerWrite, write32, hfatal, hstate, hfurled, ho, hset]

/-- An aligned 32-bit read in BAR0 of a register of that width returns its value. -/
theorem readReg_of_regAt {n : Nat} (ho : o % 4 = 0) (hreg : s.regAt false spindle o = .w32 n) : s.readReg false spindle o 32 = n := by
  simp [readReg, read32, ho, hreg]

/-- A register takes a write whole where the field it reads from is the field its write sets. -/
theorem takesWrite_of_field (field : State → W32) (hset : s.set32 false spindle o v = some t)
    (hread : ∀ u : State, u.regAt false spindle o = .w32 (field u).toNat) (hfield : field (s.keepBoot t) = v)
    (hkeep : t.arrs = s.arrs ∧ t.entries = s.entries ∧ t.hbm = s.hbm) : s.TakesWrite spindle v o :=
  ⟨t, hset, by rw [hread, hfield], hkeep⟩

/-- The same for a register of a mast window, kept with the mast. -/
theorem takesWrite_of_mastField (m : Nat) (field : Mast → W32) {f : Mast → Mast} (hset : s.set32 false spindle o v = some (s.modMast m f))
    (hread : ∀ u : State, u.regAt false spindle o = .w32 (field (u.mast m)).toNat) (hfield : ∀ x, field (f x) = v) :
    s.TakesWrite spindle v o :=
  takesWrite_of_field (fun u => field (u.mast m)) hset hread (by simp [modMast, hfield]) ⟨rfl, rfl, rfl⟩

/-- The same for one kept with the mast's layer stream. -/
theorem takesWrite_of_streamField (m : Nat) (field : Stream → W32) {f : Stream → Stream}
    (hset : s.set32 false spindle o v = some (s.modStream m f))
    (hread : ∀ u : State, u.regAt false spindle o = .w32 (field (u.stream m)).toNat) (hfield : ∀ x, field (f x) = v) :
    s.TakesWrite spindle v o :=
  takesWrite_of_field (fun u => field (u.stream m)) hset hread (by simp [modStream, hfield]) ⟨rfl, rfl, rfl⟩

/-- The same for one kept with the mast's spindles. -/
theorem takesWrite_of_spnField (m : Nat) (field : Spn → W32) {f : Spn → Spn} (hset : s.set32 false spindle o v = some (s.modSpn m f))
    (hread : ∀ u : State, u.regAt false spindle o = .w32 (field (u.spn m)).toNat) (hfield : ∀ x, field (f x) = v) :
    s.TakesWrite spindle v o :=
  takesWrite_of_field (fun u => field (u.spn m)) hset hread (by simp [modSpn, hfield]) ⟨rfl, rfl, rfl⟩

/-- The scratch register reads the same for the host and for a spindle. -/
theorem regAt_scratch (u : State) (spindle : Bool) : u.regAt false spindle 0x10 = .w32 u.clk.scratch.toNat := by
  cases spindle <;> rfl

variable (s spindle v)

/-- Global, the host link, the sequence engine and the exclusion ranges. -/
theorem takesWrite_control : ∀ o ∈ controlRegisters, s.TakesWrite spindle v o := by
  simp only [controlRegisters, List.forall_mem_cons]
  exact ⟨takesWrite_of_field (·.clk.scratch) rfl (regAt_scratch · spindle) rfl ⟨rfl, rfl, rfl⟩,
    takesWrite_of_field (·.link.secRej) rfl (fun _ => rfl) rfl ⟨rfl, rfl, rfl⟩,
    takesWrite_of_field (·.seq.expired) rfl (fun _ => rfl) rfl ⟨rfl, rfl, rfl⟩,
    takesWrite_of_field (·.seq.promoted) rfl (fun _ => rfl) rfl ⟨rfl, rfl, rfl⟩,
    takesWrite_of_field (·.xregs.handle) rfl (fun _ => rfl) rfl ⟨rfl, rfl, rfl⟩,
    List.forall_mem_nil _⟩

/-- Pages, the sampler and the reels. -/
theorem takesWrite_token : ∀ o ∈ tokenRegisters, s.TakesWrite spindle v o := by
  simp only [tokenRegisters, List.forall_mem_cons]
  exact ⟨takesWrite_of_field (·.kv.starve) rfl (fun _ => rfl) rfl ⟨rfl, rfl, rfl⟩,
    takesWrite_of_field (·.kv.lostCnt) rfl (fun _ => rfl) rfl ⟨rfl, rfl, rfl⟩,
    takesWrite_of_field (·.smp.faults) rfl (fun _ => rfl) rfl ⟨rfl, rfl, rfl⟩,
    takesWrite_of_field (·.smp.full) rfl (fun _ => rfl) rfl ⟨rfl, rfl, rfl⟩,
    takesWrite_of_field (·.smp.err) rfl (fun _ => rfl) rfl ⟨rfl, rfl, rfl⟩,
    List.forall_mem_nil _⟩

/-- Trim and the converters. -/
theorem takesWrite_array : ∀ o ∈ arrayRegisters, s.TakesWrite spindle v o := by
  simp only [arrayRegisters, List.forall_mem_cons]
  exact ⟨takesWrite_of_field (·.trim.mask) rfl (fun _ => rfl) rfl ⟨rfl, rfl, rfl⟩,
    takesWrite_of_field (·.trim.voidCnt) rfl (fun _ => rfl) rfl ⟨rfl, rfl, rfl⟩,
    takesWrite_of_field (·.adc.mask) rfl (fun _ => rfl) rfl ⟨rfl, rfl, rfl⟩,
    List.forall_mem_nil _⟩

/-- Integrity, the recorder and replay. -/
theorem takesWrite_integrity : ∀ o ∈ integrityRegisters, s.TakesWrite spindle v o := by
  simp only [integrityRegisters, List.forall_mem_cons]
  exact ⟨takesWrite_of_field (·.integ.lost) rfl (fun _ => rfl) rfl ⟨rfl, rfl, rfl⟩,
    takesWrite_of_field (·.integ.sel) rfl (fun _ => rfl) rfl ⟨rfl, rfl, rfl⟩,
    takesWrite_of_field (·.integ.jobTmo) rfl (fun _ => rfl) rfl ⟨rfl, rfl, rfl⟩,
    takesWrite_of_field (·.integ.foreign) rfl (fun _ => rfl) rfl ⟨rfl, rfl, rfl⟩,
    takesWrite_of_field (·.recorder.dropped) rfl (fun _ => rfl) rfl ⟨rfl, rfl, rfl⟩,
    takesWrite_of_field (·.rpl.len) rfl (fun _ => rfl) rfl ⟨rfl, rfl, rfl⟩,
    List.forall_mem_nil _⟩

/-- Power, the lanyard, the rigging and the sail plan. -/
theorem takesWrite_platform : ∀ o ∈ platformRegisters, s.TakesWrite spindle v o := by
  simp only [platformRegisters, List.forall_mem_cons]
  exact ⟨takesWrite_of_field (·.pwr.throttled) rfl (fun _ => rfl) rfl ⟨rfl, rfl, rfl⟩,
    takesWrite_of_field (·.lan.bad) rfl (fun _ => rfl) rfl ⟨rfl, rfl, rfl⟩,
    takesWrite_of_field (·.lan.rej) rfl (fun _ => rfl) rfl ⟨rfl, rfl, rfl⟩,
    takesWrite_of_field (·.rig.cntNoRoute) rfl (fun _ => rfl) rfl ⟨rfl, rfl, rfl⟩,
    takesWrite_of_field (·.rig.cntMisroute) rfl (fun _ => rfl) rfl ⟨rfl, rfl, rfl⟩,
    takesWrite_of_field (·.rig.cntHdrErr) rfl (fun _ => rfl) rfl ⟨rfl, rfl, rfl⟩,
    takesWrite_of_field (·.rig.cntDropped) rfl (fun _ => rfl) rfl ⟨rfl, rfl, rfl⟩,
    takesWrite_of_field (·.rig.cntFlowGap) rfl (fun _ => rfl) rfl ⟨rfl, rfl, rfl⟩,
    takesWrite_of_field (·.sail.len) rfl (fun _ => rfl) rfl ⟨rfl, rfl, rfl⟩,
    List.forall_mem_nil _⟩

/-- The mast windows: the mast, its layer stream and its spindles. -/
theorem takesWrite_mast : ∀ o ∈ mastRegisters, s.TakesWrite spindle v o := by
  simp only [mastRegisters, List.forall_mem_cons]
  exact ⟨takesWrite_of_mastField 0 (·.splNonfin) rfl (fun _ => rfl) (fun _ => rfl),
    takesWrite_of_mastField 1 (·.splZero) rfl (fun _ => rfl) (fun _ => rfl),
    takesWrite_of_mastField 2 (·.kover) rfl (fun _ => rfl) (fun _ => rfl),
    takesWrite_of_mastField 3 (·.accNonfin) rfl (fun _ => rfl) (fun _ => rfl),
    takesWrite_of_mastField 0 (·.accSat) rfl (fun _ => rfl) (fun _ => rfl),
    takesWrite_of_streamField 1 (·.tmo) rfl (fun _ => rfl) (fun _ => rfl),
    takesWrite_of_streamField 2 (·.subst) rfl (fun _ => rfl) (fun _ => rfl),
    takesWrite_of_streamField 3 (·.attEmpty) rfl (fun _ => rfl) (fun _ => rfl),
    takesWrite_of_streamField 0 (·.vecSlow) rfl (fun _ => rfl) (fun _ => rfl),
    takesWrite_of_spnField 1 (·.wdog) rfl (fun _ => rfl) (fun _ => rfl),
    List.forall_mem_nil _⟩

theorem takesWrite_whole : ∀ o ∈ wholeRegisters, s.TakesWrite spindle v o := by
  simp only [wholeRegisters, List.forall_mem_append]
  exact ⟨⟨⟨⟨⟨takesWrite_control s spindle v, takesWrite_token s spindle v⟩, takesWrite_array s spindle v⟩, takesWrite_integrity s spindle v⟩,
    takesWrite_platform s spindle v⟩, takesWrite_mast s spindle v⟩

end State

theorem exec_registerWrite (bar2 spindle : Bool) (o width : Nat) (v : W64) (s : State) :
    exec (.registerWrite bar2 spindle o width v) s = act (decide (o < 2 ^ 32)) s (·.registerWrite bar2 spindle o width v) := rfl

/-- Settles O9: REGISTER_WRITE comes to the register's own write, and each register listed reads from the one field that write sets. -/
theorem registerWriteReadsBack : Obligations.RegisterWriteReadsBack := by
  intro s spindle v o hm ho
  obtain ⟨hrange, haligned⟩ := State.wholeRegisters_aligned o ho
  obtain ⟨t, hset, hread, harrs, hentries, hhbm⟩ := State.takesWrite_whole s spindle v o ho
  have hwrite := State.registerWrite_of_set32 hm haligned hset
  refine completes_act (exec_registerWrite ..) (decide_eq_true hrange) ?_
  rw [hwrite]
  exact ⟨State.readReg_of_regAt haligned hread, harrs, hentries, hhbm, State.keepBoot_flash s t⟩

end Sys2Proof.Machine

/-! The beat's boundary and the rotation's slices (R15, R159, R469): what the operations of a boundary leave alone. -/

namespace Sys2Proof.Machine

/-- A fold whose step keeps a part of its accumulator keeps that part. -/
theorem foldl_keeps {σ α β : Type} (part : σ → β) {f : σ → α → σ} (h : ∀ x a, part (f x a) = part x) :
    ∀ (l : List α) (x : σ), part (l.foldl f x) = part x
  | [], _ => rfl
  | a :: l, x => (foldl_keeps part h l (f x a)).trans (h x a)

/-- What decides whether a boundary forms a batch, apart from the sequences themselves: the clock, the batches in flight, rolled back and
received from a head, and the state of each context. -/
structure BeatWork where
  time : W64
  batches : List Batch
  rolled : List Batch
  remoteWait : List Batch
  stOf : Nat → CtxState

namespace State

variable (s : State)

def beatWork : BeatWork := ⟨s.time, s.batches, s.rolled, s.remoteWait, fun c => (s.ctx c).st⟩

theorem time_of_beatWork {s t : State} (h : t.beatWork = s.beatWork) : t.time = s.time := congrArg BeatWork.time h
theorem batches_of_beatWork {s t : State} (h : t.beatWork = s.beatWork) : t.batches = s.batches := congrArg BeatWork.batches h

theorem foldl_beatWork {α : Type} {f : State → α → State} (h : ∀ s a, (f s a).beatWork = s.beatWork) (l : List α) (s : State) :
    (l.foldl f s).beatWork = s.beatWork := foldl_keeps beatWork h l s

@[simp] theorem beatWork_ite (c : Prop) [Decidable c] (t u : State) : (if c then t else u).beatWork = if c then t.beatWork else u.beatWork :=
  apply_ite beatWork c t u

/-! The writers of the banks. -/

@[simp] theorem beatWork_modMast (m : Nat) (f : Mast → Mast) : (s.modMast m f).beatWork = s.beatWork := rfl
@[simp] theorem beatWork_setArr (m p : Nat) (v : Arr) : (s.setArr m p v).beatWork = s.beatWork := rfl
@[simp] theorem beatWork_modArr (m p : Nat) (f : Arr → Arr) : (s.modArr m p f).beatWork = s.beatWork := rfl
@[simp] theorem beatWork_setCal (m p : Nat) (v : ArrCal) : (s.setCal m p v).beatWork = s.beatWork := rfl
@[simp] theorem beatWork_setFac (m p g : Nat) (v : W64) : (s.setFac m p g v).beatWork = s.beatWork := rfl
@[simp] theorem beatWork_modAtrim (m p : Nat) (f : ArrTrim → ArrTrim) : (s.modAtrim m p f).beatWork = s.beatWork := rfl
@[simp] theorem beatWork_setAgeGrp (m g : Nat) (v : AgeGrp) : (s.setAgeGrp m g v).beatWork = s.beatWork := rfl
@[simp] theorem beatWork_modSpl (m p : Nat) (f : Spl → Spl) : (s.modSpl m p f).beatWork = s.beatWork := rfl
@[simp] theorem beatWork_modStream (m : Nat) (f : Stream → Stream) : (s.modStream m f).beatWork = s.beatWork := rfl
@[simp] theorem beatWork_setPdesc (n : Nat) (v : PDesc) : (s.setPdesc n v).beatWork = s.beatWork := rfl
@[simp] theorem beatWork_modTbl (i : Nat) (f : Tables → Tables) : (s.modTbl i f).beatWork = s.beatWork := rfl
@[simp] theorem beatWork_setTblPage (i e : Nat) (p : Option Nat) : (s.setTblPage i e p).beatWork = s.beatWork := rfl
@[simp] theorem beatWork_setEntry (i : Nat) (v : SeqEntry) : (s.setEntry i v).beatWork = s.beatWork := rfl
@[simp] theorem beatWork_setHbmByte (k o : Nat) (b : Byte) : (s.setHbmByte k o b).beatWork = s.beatWork := rfl
@[simp] theorem beatWork_setStandby (m g : Nat) (p : Option Nat) : (s.setStandby m g p).beatWork = s.beatWork := rfl

/-- A write to a context that leaves its state as it is. -/
@[simp] theorem beatWork_modCtx (c : Nat) {f : Ctx → Ctx} (h : ∀ x, (f x).st = x.st) : (s.modCtx c f).beatWork = s.beatWork := by
  have hst : ∀ d, ((s.modCtx c f).ctx d).st = (s.ctx d).st := by
    intro d
    by_cases hd : d = c
    · subst hd; simp [modCtx, h]
    · exact congrArg Ctx.st (tabGet_tabSet_ne _ _ _ _ hd)
  exact congrArg (BeatWork.mk s.time s.batches s.rolled s.remoteWait) (funext hst)

/-! Arrays leave their slots (R46 to R48, Table 2.11). -/

@[simp] theorem beatWork_cause (b : Nat) : (s.cause b).beatWork = s.beatWork := by
  obtain ⟨v, o, e⟩ := s.cause_frame b
  rw [e]; rfl

@[simp] theorem beatWork_arrFinish (m p : Nat) (st : Byte) : (s.arrFinish m p st).beatWork = s.beatWork := by
  simp only [arrFinish]; split <;> simp

@[simp] theorem beatWork_endWrite (m p : Nat) : (s.endWrite m p).beatWork = s.beatWork := by
  simp only [endWrite]; split <;> simp

@[simp] theorem beatWork_noteServed (m p : Nat) : (s.noteServed m p).beatWork = s.beatWork := by
  simp only [noteServed]
  split
  · rfl
  · exact s.beatWork_modCtx _ fun _ => rfl

@[simp] theorem beatWork_toRetired (m p : Nat) : (s.toRetired m p).beatWork = s.beatWork := by
  simp only [toRetired]; split <;> simp

@[simp] theorem beatWork_retire (m p : Nat) : (s.retire m p).beatWork = s.beatWork := by
  simp only [retire]; split <;> simp

@[simp] theorem beatWork_leaveSlot (m p : Nat) : (s.leaveSlot m p).beatWork = s.beatWork := by
  simp only [leaveSlot]; split <;> simp

@[simp] theorem beatWork_leaveReleased (m p : Nat) : (s.leaveReleased m p).beatWork = s.beatWork := by
  simp only [leaveReleased]; split <;> simp

/-! Firmware's jobs on an array (R126, R193). -/

@[simp] theorem beatWork_hbmWrite (k : Nat) : ∀ (l : List Byte) (s : State) (o : Nat), (s.hbmWrite k o l).beatWork = s.beatWork
  | [], _, _ => rfl
  | b :: l, s, o => by simp only [hbmWrite, beatWork_hbmWrite k l, beatWork_setHbmByte]

@[simp] theorem beatWork_regionWrite (c k o : Nat) (b : List Byte) : (s.regionWrite c k o b).beatWork = s.beatWork :=
  foldl_keeps (fun r : State × List Byte => r.1.beatWork) (fun r _ => beatWork_hbmWrite _ _ r.1 _) _ (s, b)

@[simp] theorem beatWork_buildDerived (c m x : Nat) (l : BitVec 2) (d : Derived) : (s.buildDerived c m x l d).beatWork = s.beatWork := by
  simp only [buildDerived]
  split
  · rfl
  · simp

@[simp] theorem beatWork_rebuildImage (c m x : Nat) (l : BitVec 2) : (s.rebuildImage c m x l).beatWork = s.beatWork := by
  simp only [rebuildImage]
  split
  · split <;> simp
  · rfl

@[simp] theorem beatWork_startWrite (m p : Nat) (restart : Bool) : (s.startWrite m p restart).beatWork = s.beatWork := by
  simp only [startWrite, beatWork_ite, beatWork_modMast, ite_self]
  exact ite_self s.beatWork

@[simp] theorem beatWork_fwIssue (m p : Nat) (j : FwJob) : (s.fwIssue m p j).beatWork = s.beatWork := by
  simp only [fwIssue]
  split
  · simp
  · split <;> simp

@[simp] theorem beatWork_fwLoad (m p : Nat) (j : FwJob) : (s.fwLoad m p j).beatWork = s.beatWork := by
  simp only [fwLoad]
  split
  · rfl
  · split <;> simp

@[simp] theorem beatWork_fwNext (m p : Nat) : (s.fwNext m p).beatWork = s.beatWork := by
  simp only [fwNext]
  split
  · rfl
  · split <;> simp

@[simp] theorem beatWork_fwAsk (m p : Nat) (j : FwJob) : (s.fwAsk m p j).beatWork = s.beatWork := by simp [fwAsk]

@[simp] theorem beatWork_firmwareWrite (m p c x : Nat) (l : BitVec 2) : (s.firmwareWrite m p c x l).beatWork = s.beatWork := by
  simp [firmwareWrite]

@[simp] theorem beatWork_standbyWrite (m p : Nat) : (s.standbyWrite m p).beatWork = s.beatWork := by simp [standbyWrite]

/-! What comes into force at a boundary (R47, R125, R126). -/

@[simp] theorem beatWork_enterActive (m p : Nat) : (s.enterActive m p).beatWork = s.beatWork := by
  simp only [enterActive]
  split
  · simp
  · split <;> simp

@[simp] theorem beatWork_boundaryArrays (m : Nat) : (s.boundaryArrays m).beatWork = s.beatWork :=
  foldl_beatWork (fun s p => by simp) _ s

@[simp] theorem beatWork_applyCol (k : Nat) : (s.applyCol k).beatWork = s.beatWork := rfl

@[simp] theorem beatWork_applyPending (m p : Nat) : (s.applyPending m p).beatWork = s.beatWork := by
  simp only [applyPending, beatWork_setCal]
  exact foldl_beatWork (fun s g => s.beatWork_setFac ..) _ s

@[simp] theorem beatWork_bumpEpoch : s.bumpEpoch.beatWork = s.beatWork := rfl

@[simp] theorem beatWork_nextStandby (m g : Nat) : (s.nextStandby m g).beatWork = s.beatWork := rfl

@[simp] theorem beatWork_notePlan (m g : Nat) : (s.notePlan m g).beatWork = s.beatWork := by simp [notePlan]

@[simp] theorem beatWork_passTurn (m x y : Nat) : (s.passTurn m x y).beatWork = s.beatWork := by simp [passTurn]

@[simp] theorem beatWork_makeSwap (m x y : Nat) : (s.makeSwap m x y).beatWork = s.beatWork := by simp [makeSwap]

@[simp] theorem beatWork_dropSwap (m x : Nat) : (s.dropSwap m x).beatWork = s.beatWork := by simp [dropSwap]

@[simp] theorem beatWork_boundarySwap (m x : Nat) : (s.boundarySwap m x).beatWork = s.beatWork := by
  simp only [boundarySwap]; split <;> simp

@[simp] theorem beatWork_boundaryTrim (m : Nat) : (s.boundaryTrim m).beatWork = s.beatWork := by
  simp only [boundaryTrim, beatWork_ite, beatWork_modMast, ite_self]
  rw [foldl_beatWork fun s x => s.beatWork_boundarySwap m x, foldl_beatWork fun s p => s.beatWork_applyPending m p,
    foldl_beatWork beatWork_applyCol]

/-! The rotation and the slots (R157, R159). -/

@[simp] theorem beatWork_makeHolder (c : Nat) : (s.makeHolder c).beatWork = s.beatWork := s.beatWork_modCtx c fun _ => rfl

@[simp] theorem beatWork_rotate : s.rotate.beatWork = s.beatWork := by
  simp only [rotate]
  split
  · rfl
  · split
    · rfl
    · split
      · simp
      · simp

@[simp] theorem beatWork_dropSlots (c : Nat) : (s.dropSlots c).beatWork = s.beatWork :=
  foldl_beatWork (fun s m => foldl_beatWork (fun s p => by simp) _ s) _ s

@[simp] theorem beatWork_giveSlot (c m x p : Nat) : (s.giveSlot c m x p).beatWork = s.beatWork := by simp [giveSlot]

@[simp] theorem beatWork_giveSlots (c m : Nat) : ∀ (ps xs : List Nat) (s : State), (s.giveSlots c m xs ps).beatWork = s.beatWork
  | [], xs, s => by cases xs <;> rfl
  | _ :: _, [], _ => rfl
  | p :: ps, x :: xs, s => by simp only [giveSlots, beatWork_ite, beatWork_giveSlots c m ps, beatWork_giveSlot, ite_self]

@[simp] theorem beatWork_assignSlots (c : Nat) : (s.assignSlots c).beatWork = s.beatWork := by
  simp only [assignSlots, beatWork_modCtx, implies_true]
  exact foldl_beatWork (fun s m => beatWork_giveSlots c m _ _ s) _ s

@[simp] theorem beatWork_settleSlots : s.settleSlots.beatWork = s.beatWork := by
  simp only [settleSlots]
  rw [foldl_beatWork, foldl_beatWork beatWork_dropSlots]
  intro s c
  simp

/-! A batch begins its beat (R15, R162, R185). -/

@[simp] theorem beatWork_raiseSpindles (m e : Nat) : (s.raiseSpindles m e).beatWork = s.beatWork := by
  obtain ⟨x, h⟩ := s.raiseSpindles_frame m e
  rw [h]; rfl

@[simp] theorem beatWork_beatStat (terms : List MastTerms) (m : Nat) : (s.beatStat terms m).beatWork = s.beatWork := by
  simp only [beatStat]; split <;> simp

@[simp] theorem beatWork_loadLayer (c l : Nat) (h : Bool) : (s.loadLayer c l h).beatWork = s.beatWork := by
  simp only [loadLayer]
  rw [foldl_beatWork, beatWork_modCtx]
  · intro x; split <;> rfl
  · intro s m
    rw [beatWork_modStream]
    refine foldl_beatWork (fun s u => ?_) _ s
    split <;> simp

@[simp] theorem beatWork_reloadBeat (b : Batch) : (s.reloadBeat b).2.beatWork = s.beatWork := by
  simp only [reloadBeat]
  split
  · rw [beatWork_loadLayer, foldl_beatWork beatWork_boundaryArrays]
    simp
  · exact s.beatWork_loadLayer ..

@[simp] theorem beatWork_startStream (b : Batch) (blk m : Nat) : (s.startStream b blk m).beatWork = s.beatWork := by
  simp [startStream]

@[simp] theorem beatWork_startBatch (b : Batch) : (s.startBatch b).2.beatWork = s.beatWork := by
  simp only [startBatch]
  split
  · rfl
  · exact foldl_beatWork (fun s m => s.beatWork_startStream ..) _ s

@[simp] theorem beatWork_beginBeat (b : Batch) : (s.beginBeat b).2.beatWork = s.beatWork := by
  simp only [beginBeat, beatWork_startBatch]; split <;> simp

/-! A sequence takes its rows (R249, R253, R260). -/

@[simp] theorem beatWork_takeBlocks (n : Nat) : (s.takeBlocks n).2.beatWork = s.beatWork := rfl

@[simp] theorem beatWork_takePtrs (i c a b : Nat) : (s.takePtrs i c a b).beatWork = s.beatWork := by
  simp only [takePtrs]
  exact foldl_beatWork (fun s x => by simp) _ s

/-- The search for a frame takes as many steps as the stack has frames, a literal of 2,097,152 at most that the kernel would count down:
it is abstracted before `takeFrame` is taken apart. -/
@[simp] theorem beatWork_takeFrame (k c refs : Nat) (ro : Bool) : (s.takeFrame k c refs ro).2.beatWork = s.beatWork := by
  have hdef : @takeFrame = @takeFrame := rfl
  conv at hdef => rhs; delta takeFrame
  obtain ⟨limit, hlimit⟩ : ∃ limit, limit = @frameLimit := ⟨_, rfl⟩
  rw [← hlimit] at hdef
  rw [hdef]
  simp only [free]
  split <;> rfl

theorem beatWork_of_takeFrame {s t : State} {k c refs : Nat} {ro : Bool} {p : Option Nat} (h : s.takeFrame k c refs ro = (p, t)) :
    t.beatWork = s.beatWork := by
  rw [← s.beatWork_takeFrame k c refs ro, h]

@[simp] theorem beatWork_unref (p : Nat) : (s.unref p).beatWork = s.beatWork := by simp [unref]

@[simp] theorem beatWork_takeRow (i c k : Nat) : (s.takeRow i c k).beatWork = s.beatWork := by
  rw [takeRow, foldl_beatWork, beatWork_takePtrs]
  intro s j
  split
  · next h => rw [beatWork_setTblPage, beatWork_of_takeFrame h]
  · next h => exact beatWork_of_takeFrame h

theorem beatWork_setKv (v : Kv) : ({ s with kv := v } : State).beatWork = s.beatWork := rfl

@[simp] theorem beatWork_beginCopies (i c len : Nat) : (s.beginCopies i c len).beatWork = s.beatWork := by
  rw [beginCopies]
  refine foldl_beatWork ?_ _ s
  intro s j
  split
  · split
    · split
      · next h =>
        refine (beatWork_setKv _ _).trans ?_
        rw [beatWork_unref, beatWork_setTblPage, beatWork_of_takeFrame h]
      · next h => exact beatWork_of_takeFrame h
    · rfl
  · rfl

@[simp] theorem beatWork_addRows (i r : Nat) : (s.addRows i r).beatWork = s.beatWork := rfl

@[simp] theorem beatWork_formRows (i c len t : Nat) : (s.formRows i c len t).beatWork = s.beatWork := by
  simp only [formRows, beatWork_ite, beatWork_beginCopies]
  rw [foldl_beatWork fun s k => s.beatWork_takeRow ..]
  simp

/-! What a head sends its members (R238, R370). -/

@[simp] theorem beatWork_sendData (rank vc typ : Nat) (desc payload : List Byte) :
    (s.sendData rank vc typ desc payload).beatWork = s.beatWork := by
  obtain ⟨x, e⟩ := s.sendData_frame rank vc typ desc payload
  rw [e]; rfl

@[simp] theorem beatWork_sendMembers (step : Nat) (items : List (List Byte)) : (s.sendMembers step items).beatWork = s.beatWork :=
  foldl_beatWork (fun s _ => foldl_beatWork (fun s _ => s.beatWork_sendData ..) _ s) _ s

@[simp] theorem beatWork_sendInputs (step : Nat) (toks : List Nat) : (s.sendInputs step toks).beatWork = s.beatWork :=
  foldl_beatWork (fun s _ => foldl_keeps (fun r : State × Nat => r.1.beatWork) (fun r _ => r.1.beatWork_sendData ..) _ (s, 0)) _ s

@[simp] theorem beatWork_sendBatch (b : Batch) : (s.sendBatch b).beatWork = s.beatWork := by simp [sendBatch]

/-! Formation (R221 to R225, R232, R354). -/

@[simp] theorem beatWork_starve : s.starve.beatWork = s.beatWork := rfl

@[simp] theorem beatWork_pick (c : Nat) : ∀ (l : List Nat) (s : State) (n used : Nat), (s.pick c n used l).1.beatWork = s.beatWork
  | [], _, _, _ => rfl
  | i :: l, s, n, used => by
    simp only [pick]
    split
    · split <;> simp [beatWork_pick c l]
    · rw [beatWork_pick c l, beatWork_starve]

@[simp] theorem beatWork_passOver (i : Nat) : (s.passOver i).beatWork = s.beatWork := by
  simp only [passOver]; split <;> split <;> rfl

@[simp] theorem beatWork_enroll (c i t : Nat) : (s.enroll c i t).1.beatWork = s.beatWork := by simp [enroll]

@[simp] theorem beatWork_enrollAll (c : Nat) : ∀ (l : List (Nat × Nat)) (s : State), (s.enrollAll c l).1.beatWork = s.beatWork
  | [], _ => rfl
  | (i, t) :: l, s => by simp only [enrollAll, beatWork_enrollAll c l, beatWork_enroll]

@[simp] theorem beatWork_nextStep : s.nextStep.2.beatWork = s.beatWork := rfl

theorem beatWork_setSeq (v : SeqRegs) : ({ s with seq := v } : State).beatWork = s.beatWork := rfl

@[simp] theorem beatWork_form (c : Nat) : (s.form c).2.beatWork = s.beatWork := by
  rw [form]
  split
  · rw [beatWork_setSeq, foldl_beatWork beatWork_passOver, beatWork_pick]
  · rw [beatWork_sendBatch, beatWork_nextStep, beatWork_enrollAll, beatWork_setSeq, foldl_beatWork beatWork_passOver, beatWork_pick]

@[simp] theorem beatWork_reform (b : Batch) : (s.reform b).2.beatWork = s.beatWork := by
  rw [reform]
  split
  · exact foldl_keeps (fun r : State × List Member => r.1.beatWork) (fun r m => r.1.beatWork_formRows ..) b.members (s, [])
  · rw [beatWork_sendBatch]
    exact foldl_keeps (fun r : State × List Member => r.1.beatWork) (fun r m => r.1.beatWork_formRows ..) b.members (s, [])

@[simp] theorem beatWork_countGap (c : Nat) : (s.countGap c).beatWork = s.beatWork := rfl

@[simp] theorem beatWork_beginSlice (c : Nat) : (s.beginSlice c).beatWork = s.beatWork := by simp [beginSlice]

theorem beatWork_setRpl (v : Rpl) : ({ s with rpl := v } : State).beatWork = s.beatWork := rfl

theorem beatWork_of_replayBatch {s t : State} {b : Batch} {c : Nat} (h : s.replayBatch c = some (b, t)) : t.beatWork = s.beatWork := by
  rw [replayBatch] at h
  split at h
  · cases h
  · split at h
    · cases h
    · split at h
      · cases h
      · simp only [Option.some.injEq, Prod.mk.injEq] at h
        obtain ⟨-, rfl⟩ := h
        rw [beatWork_setRpl, beatWork_formRows]

/-! The turns of a boundary: each batch in flight, and each context, may take masts (R222, R469). -/

theorem time_turns {α : Type} {turn : State × Claims → α → State × Claims} (h : ∀ r a, (turn r a).1.time = r.1.time) (l : List α)
    (r : State × Claims) : (l.foldl turn r).1.time = r.1.time := foldl_keeps (fun r : State × Claims => r.1.time) h l r

theorem time_place (r : State × Claims) (b : Batch) : (place r b).1.time = r.1.time := by
  rw [place, time_of_beatWork (beatWork_beginBeat _ b)]

theorem time_moveOn (r : State × Claims) (b : Batch) : (moveOn r b).1.time = r.1.time := by
  rw [moveOn]
  split
  · exact time_place r _
  · rfl

theorem time_takeRemote (r : State × Claims) (b : Batch) : (takeRemote r b).1.time = r.1.time := by
  rw [takeRemote]
  split
  · rw [time_place]
    exact foldl_keeps (fun q : State × List Member => q.1.time) (fun q m => time_of_beatWork (q.1.beatWork_formRows ..)) b.members (r.1, [])
  · rfl

theorem time_takeRolled (r : State × Claims) (b : Batch) : (takeRolled r b).1.time = r.1.time := by
  rw [takeRolled]
  split
  · have hreform := time_of_beatWork (r.1.beatWork_reform b)
    rw [time_place]
    exact hreform
  · rfl

theorem time_formTurn (r : State × Claims) (c : Nat) : (formTurn r c).1.time = r.1.time := by
  rw [formTurn]
  split
  · rfl
  · split
    · next h => rw [time_place, time_of_beatWork (beatWork_beginSlice _ c), time_of_beatWork (beatWork_of_replayBatch h)]
    · have hform := time_of_beatWork (r.1.beatWork_form c)
      split
      · next h => rw [h] at hform; exact hform
      · next h =>
        rw [h] at hform
        rw [time_place, time_of_beatWork (beatWork_beginSlice _ c)]
        exact hform

/-! The boundary in three parts: what the beat's end settles, the masts taken, the beat begun. -/

/-- The device before any batch takes masts: the beat that ends is counted, what waited for the boundary is in force, and the rotation and
its slots are settled (R18, R47, R125, R159). -/
def beatEnded (s : State) (terms : List MastTerms) : State :=
  let s := if s.beatOn then (upTo 4).foldl (fun s m => s.beatStat terms m) s else s
  let s := { s with batches := (s.batches.map s.afterBeat).filter (fun b => !s.gone b) }
  let s := { s with streams := tabMapAll {} (fun _ x => { x with busy := false, slots := [], moved := 0, reload := 0 }) s.streams }
  let s := (upTo 4).foldl boundaryTrim s
  let s := (upTo 4).foldl boundaryArrays s
  s.rotate.settleSlots

/-- The masts of the next beat are taken in the order of R469. -/
def takeMasts (s : State) : State × Claims :=
  let r := (s.batches.filter (fun b => !b.finished)).foldl place (s, ⟨[], []⟩)
  let r := ((s.batches.filter (·.finished)).foldl (fun l b => insertStep b l) []).foldl moveOn r
  let r := s.remoteWait.foldl takeRemote r
  let r := s.rolled.foldl takeRolled r
  if r.1.rolled.isEmpty then ((upTo 16).map (fun k => (r.1.seq.lastServed + 1 + k) % 16)).foldl formTurn r else r

/-- The batches placed are in flight, and a beat begins if one of them has work; `before` is the step number before any was formed. -/
def beginBeats (r : State × Claims) (before : Nat) : State :=
  let s := { r.1 with batches := r.2.placed }
  let on := s.batches.any (fun b => !b.finished)
  let s := { s with beatOn := on, beatStart := s.time }
  let s := (s.roundDueAt before s.seqStep).startRound
  (upTo 4).foldl (fun s m => s.raiseSpindles m 2) s

/-- A boundary is taken once the running beat has no work left, on a device that is not halted (R15, R187). -/
def BoundaryTaken (s : State) : Prop :=
  (s.beatOn = true → ∀ b ∈ s.batches, s.beatDone b = true) ∧ s.integ.phase = 0 ∧ s.devFatal = false

theorem beatBoundary_of_taken (terms : List MastTerms) (h : s.BoundaryTaken) :
    s.beatBoundary terms = beginBeats (s.beatEnded terms).takeMasts (s.beatEnded terms).seqStep := by
  obtain ⟨hdone, hphase, hfatal⟩ := h
  rw [beatBoundary, if_neg, if_neg]
  -- The three parts are the definition's own text, cut: unfolded without evaluation, both sides are the same term.
  · delta beginBeats takeMasts beatEnded
    dsimp only
  · simp [hphase, hfatal]
  · simpa using hdone

theorem beatBoundary_of_not_taken (terms : List MastTerms) (h : ¬ s.BoundaryTaken) : s.beatBoundary terms = s := by
  rw [beatBoundary]
  split
  · rfl
  · next hdone =>
    rw [if_pos]
    cases hfatal : s.devFatal with
    | false => exact .inl fun hphase => h ⟨by simpa using hdone, hphase, hfatal⟩
    | true => exact .inr rfl

theorem beatWork_beatStats (terms : List MastTerms) :
    (if s.beatOn then (upTo 4).foldl (fun s m => s.beatStat terms m) s else s).beatWork = s.beatWork := by
  rw [beatWork_ite, foldl_beatWork fun s m => s.beatWork_beatStat terms m, ite_self]

/-- The end of a beat leaves the clock, the contexts' states and what waits alone; of the batches in flight it moves some on and drops
others. -/
theorem beatWork_beatEnded (terms : List MastTerms) : ∃ (move : Batch → Batch) (stays : Batch → Bool),
    (s.beatEnded terms).beatWork = { s.beatWork with batches := (s.batches.map move).filter stays } := by
  have hstats := s.beatWork_beatStats terms
  simp only [beatEnded, beatWork_settleSlots, beatWork_rotate, foldl_beatWork beatWork_boundaryArrays, foldl_beatWork beatWork_boundaryTrim]
  generalize (if s.beatOn then (upTo 4).foldl (fun s m => s.beatStat terms m) s else s) = u at hstats ⊢
  refine ⟨u.afterBeat, fun b => !u.gone b, ?_⟩
  rw [← batches_of_beatWork hstats, ← hstats]
  rfl

theorem time_beatEnded (terms : List MastTerms) : (s.beatEnded terms).time = s.time := by
  obtain ⟨move, stays, h⟩ := s.beatWork_beatEnded terms
  generalize s.beatEnded terms = t at h ⊢
  exact congrArg BeatWork.time h

theorem beatWork_beatEnded_of_empty (terms : List MastTerms) (hempty : s.batches = []) :
    (s.beatEnded terms).beatWork = s.beatWork := by
  obtain ⟨move, stays, h⟩ := s.beatWork_beatEnded terms
  rw [h, hempty]
  exact congrArg (fun l => { s.beatWork with batches := l }) hempty.symm

theorem time_takeMasts : s.takeMasts.1.time = s.time := by
  rw [takeMasts]
  split
  · rw [time_turns time_formTurn, time_turns time_takeRolled, time_turns time_takeRemote, time_turns time_moveOn, time_turns time_place]
  · rw [time_turns time_takeRolled, time_turns time_takeRemote, time_turns time_moveOn, time_turns time_place]

/-- Nothing is in flight, rolled back or received from a head, and no context runs. -/
def BeatIdle (w : BeatWork) : Prop := w.batches = [] ∧ w.rolled = [] ∧ w.remoteWait = [] ∧ ∀ c, w.stOf c ≠ .running

theorem formTurn_of_not_running (r : State × Claims) (c : Nat) (h : (r.1.ctx c).st ≠ .running) : formTurn r c = r := by
  rw [formTurn, if_pos]
  simp [mayForm, h]

theorem takeMasts_of_idle (h : BeatIdle s.beatWork) : s.takeMasts = (s, ⟨[], []⟩) := by
  obtain ⟨hbatches, hrolled, hwait, hst⟩ := h
  have hforms : ∀ l : List Nat, l.foldl formTurn (s, ⟨[], []⟩) = (s, ⟨[], []⟩) := by
    intro l
    induction l with
    | nil => rfl
    | cons c l ih => rw [List.foldl_cons, formTurn_of_not_running (s, ⟨[], []⟩) c (hst c), ih]
  have hb : s.batches = [] := hbatches
  have hr : s.rolled = [] := hrolled
  have hw : s.remoteWait = [] := hwait
  simp only [takeMasts, hb, hr, hw, List.filter_nil, List.foldl_nil, List.isEmpty_nil, if_true, hforms]

/-! The beat that a boundary begins. -/

/-- The beat: the batches in flight, whether it runs, and since when. -/
def beat (s : State) : List Batch × Bool × W64 := (s.batches, s.beatOn, s.beatStart)

theorem beat_raiseSpindles (m e : Nat) : (s.raiseSpindles m e).beat = s.beat := by
  obtain ⟨x, h⟩ := s.raiseSpindles_frame m e
  rw [h]; rfl

theorem beat_startRound : s.startRound.beat = s.beat := by
  rw [startRound]; split <;> rfl

theorem beat_roundDueAt (before after : Nat) : (s.roundDueAt before after).beat = s.beat := by
  rw [roundDueAt]; split <;> rfl

theorem beat_wakeForWork : s.wakeForWork.beat = s.beat := by
  obtain ⟨p, d, c, v, o, h⟩ := s.wakeForWork_frame
  rw [h]; rfl

theorem beat_beginBeats (r : State × Claims) (before : Nat) :
    (beginBeats r before).beat = (r.2.placed, r.2.placed.any (fun b => !b.finished), r.1.time) := by
  rw [beginBeats, foldl_keeps beat fun s m => s.beat_raiseSpindles m 2, beat_startRound, beat_roundDueAt]
  rfl

theorem beat_beatBoundary_of_taken (terms : List MastTerms) (h : s.BoundaryTaken) :
    (s.beatBoundary terms).beat = ((s.beatEnded terms).takeMasts.2.placed,
      (s.beatEnded terms).takeMasts.2.placed.any (fun b => !b.finished), s.time) := by
  rw [beatBoundary_of_taken s terms h, beat_beginBeats, time_takeMasts, time_beatEnded]

theorem beat_beatBoundary_of_idle (terms : List MastTerms) (h : s.BoundaryTaken) (hidle : BeatIdle s.beatWork) :
    (s.beatBoundary terms).beat = ([], false, s.time) := by
  have hended : BeatIdle (s.beatEnded terms).beatWork := by
    rw [beatWork_beatEnded_of_empty s terms hidle.1]
    exact hidle
  rw [beat_beatBoundary_of_taken s terms h, takeMasts_of_idle _ hended]
  rfl

end State

/-! BEAT_BOUNDARY. -/

theorem exec_beatBoundary (terms : List MastTerms) (stores : List StoreFault) (s : State) : exec (.beatBoundary terms stores) s =
    act true s (fun s => ((stores.foldl State.storeFault s).beatBoundary terms).wakeForWork) := rfl

theorem exec_sliceExpired (s : State) : exec .sliceExpired s = act true s State.sliceExpired := rfl

/-- Where no boundary is taken, BEAT_BOUNDARY at most wakes masts (R15, R187, Table 18.3). -/
theorem completes_beatBoundary_of_not_taken (s : State) (terms : List MastTerms) (h : ¬ s.BoundaryTaken) :
    Completes (.beatBoundary terms []) s (fun t => t = { s with
      pwr := t.pwr
      dies := t.dies
      genCause := t.genCause
      vecs := t.vecs
      out := t.out }) := by
  refine completes_act (exec_beatBoundary ..) rfl ?_
  rw [List.foldl_nil, s.beatBoundary_of_not_taken terms h]
  obtain ⟨p, d, c, v, o, hwake⟩ := s.wakeForWork_frame
  have hkeep : s.keepBoot s.wakeForWork = s.wakeForWork := by
    rw [hwake]
    exact State.keepBoot_of rfl rfl rfl rfl rfl rfl
  rw [hkeep, hwake]

/-- The beat after BEAT_BOUNDARY is the one that its meaning begins. -/
theorem completes_beatBoundary_beat (s : State) (terms : List MastTerms) :
    Completes (.beatBoundary terms []) s (fun t => t.beat = (s.beatBoundary terms).beat) :=
  completes_act (exec_beatBoundary ..) rfl (State.beat_wakeForWork (s.beatBoundary terms))

theorem Completes.mono {i : Instr} {s : State} {P Q : State → Prop} (h : Completes i s P) (hpq : ∀ t, P t → Q t) : Completes i s Q := by
  obtain ⟨t, ht, hp⟩ := h
  exact ⟨t, ht, hpq t hp⟩

/-! SLICE_EXPIRED (R159). -/

namespace State

variable (s : State)

/-- The holder of the rotation, and the time at which a context's slice is over. -/
def sliceHolder : Option Nat := (upTo 16).find? (fun c => (s.ctx c).sliced && (s.ctx c).holder)
def sliceDue (c : Nat) : Nat := (s.ctx c).sliceStart + 100000 * (((s.ctx c).sect.map (·.panel.slice)).getD 0)

theorem sliceExpired_of_due {c : Nat} (hc : s.sliceHolder = some c) (hon : (s.ctx c).sliceOn = true) (hdue : s.sliceDue c ≤ s.now) :
    s.sliceExpired = s.modCtx c (fun x => { x with sliceOver := true }) := by
  rw [sliceHolder] at hc
  rw [sliceExpired, hc]
  exact if_pos ⟨hon, hdue⟩

theorem sliceExpired_of_not_due {c : Nat} (hc : s.sliceHolder = some c) (h : (s.ctx c).sliceOn = false ∨ s.now < s.sliceDue c) :
    s.sliceExpired = s := by
  rw [sliceHolder] at hc
  rw [sliceExpired, hc]
  refine if_neg fun hover => ?_
  obtain ⟨hon, hdue⟩ := hover
  obtain hoff | hlt := h
  · rw [hon] at hoff; cases hoff
  · exact absurd hdue (Nat.not_le.2 hlt)

theorem sliceExpired_of_no_holder (hc : s.sliceHolder = none) : s.sliceExpired = s := by
  rw [sliceHolder] at hc
  rw [sliceExpired, hc]

end State

theorem completes_sliceExpired_of_eq (s : State) (h : s.sliceExpired = s) : Completes .sliceExpired s (fun t => t = s) := by
  refine completes_act (exec_sliceExpired s) rfl ?_
  rw [h]
  exact State.keepBoot_of rfl rfl rfl rfl rfl rfl

theorem completes_sliceExpired_of_due (s : State) {c : Nat} (hc : s.sliceHolder = some c) (hon : (s.ctx c).sliceOn = true)
    (hdue : s.sliceDue c ≤ s.now) : Completes .sliceExpired s (fun t =>
      t.ctx c = { s.ctx c with sliceOver := true } ∧ (∀ d, d ≠ c → t.ctx d = s.ctx d) ∧ t = { s with ctxs := t.ctxs }) := by
  refine completes_act (exec_sliceExpired s) rfl ?_
  rw [s.sliceExpired_of_due hc hon hdue]
  have hkeep : ∀ f, s.keepBoot (s.modCtx c f) = s.modCtx c f := fun f => State.keepBoot_of rfl rfl rfl rfl rfl rfl
  rw [hkeep]
  exact ⟨State.ctx_setCtx .., fun d hd => tabGet_tabSet_ne _ _ _ _ hd, rfl⟩

/-- Settles O8: a boundary that is not taken is only the wake of masts; one that is taken comes to `beginBeats` of the masts taken, and
nothing before it touches the clock, nor, where no batch is about and no context runs, finds a batch to place. -/
theorem beatsAndSlices : Obligations.BeatsAndSlices := by
  refine ⟨fun s terms => ⟨fun h => ?_, fun hphase hfatal hdone => ?_, fun hphase hfatal hbatches hrolled hwait hst => ?_⟩,
    fun s => ⟨fun c hc => ⟨fun hon hdue => ?_, fun h => ?_⟩, fun hc => ?_⟩⟩
  · refine completes_beatBoundary_of_not_taken s terms fun htaken => ?_
    obtain ⟨hdone, hphase, hfatal⟩ := htaken
    obtain ⟨hon, b, hb, hwork⟩ | hhalt | hdead := h
    · rw [hdone hon b hb] at hwork; cases hwork
    · exact hhalt hphase
    · rw [hfatal] at hdead; cases hdead
  · refine (completes_beatBoundary_beat s terms).mono fun t ht => ?_
    rw [s.beat_beatBoundary_of_taken terms ⟨hdone, hphase, hfatal⟩] at ht
    simp only [State.beat, Prod.mk.injEq] at ht
    obtain ⟨hplaced, hon, hstart⟩ := ht
    exact ⟨by rw [hon, hplaced], hstart⟩
  · have htaken : s.BoundaryTaken := ⟨fun _ => by simp [hbatches], hphase, hfatal⟩
    refine (completes_beatBoundary_beat s terms).mono fun t ht => ?_
    rw [s.beat_beatBoundary_of_idle terms htaken ⟨hbatches, hrolled, hwait, hst⟩] at ht
    simp only [State.beat, Prod.mk.injEq] at ht
    obtain ⟨hplaced, hon, -⟩ := ht
    exact ⟨hplaced, hon⟩
  · exact completes_sliceExpired_of_due s hc hon hdue
  · exact completes_sliceExpired_of_eq s (s.sliceExpired_of_not_due hc h)
  · exact completes_sliceExpired_of_eq s (s.sliceExpired_of_no_holder hc)

end Sys2Proof.Machine

/-! Splice regions (R81, R89, R91, R95): what a command on a region, or the end of a LOAD, may touch, and what it leaves in the region. -/

namespace Sys2Proof.Machine

namespace State

variable {s t u : State} {m p : Nat}

/-! Reads of a region after the writers of the splice banks. -/

@[simp] theorem spl_modSpl (s : State) (m p : Nat) (f : Spl → Spl) : (s.modSpl m p f).spl m p = f (s.spl m p) := spl_setSpl ..

theorem spl_modSpl_ne {k q : Nat} (s : State) (f : Spl → Spl) (h : kArr k q ≠ kArr m p) : (s.modSpl m p f).spl k q = s.spl k q :=
  tabGet_tabSet_ne _ _ _ _ h

@[simp] theorem region_modSpl (s : State) (m p k q : Nat) (f : Spl → Spl) : (s.modSpl m p f).region k q = s.region k q := rfl

@[simp] theorem region_setRegion (s : State) (m p : Nat) (v : List Byte) : (s.setRegion m p v).region m p = slice v 0 16384 := by
  rw [region, setRegion, tabGet_tabSet_self]

theorem region_setRegion_ne {k q : Nat} (s : State) (v : List Byte) (h : kArr k q ≠ kArr m p) :
    (s.setRegion m p v).region k q = s.region k q := by
  rw [region, setRegion, tabGet_tabSet_ne _ _ _ _ h, region]

@[simp] theorem spl_setRegion (s : State) (m p k q : Nat) (v : List Byte) : (s.setRegion m p v).spl k q = s.spl k q := rfl
@[simp] theorem spl_healWords (s : State) (b : Bool) (n x k q : Nat) : (s.healWords b n x).spl k q = s.spl k q := rfl
@[simp] theorem region_healWords (s : State) (b : Bool) (n x k q : Nat) : (s.healWords b n x).region k q = s.region k q := rfl

@[simp] theorem spl_cause (s : State) (b k q : Nat) : (s.cause b).spl k q = s.spl k q := by
  obtain ⟨v, o, hc⟩ := s.cause_frame b
  rw [hc]; rfl

@[simp] theorem region_cause (s : State) (b k q : Nat) : (s.cause b).region k q = s.region k q := by
  obtain ⟨v, o, hc⟩ := s.cause_frame b
  rw [hc]; rfl

@[simp] theorem regions_cause (s : State) (b : Nat) : (s.cause b).regions = s.regions := by
  obtain ⟨v, o, hc⟩ := s.cause_frame b
  rw [hc]

/-- Bytes of an empty string are zeros. -/
theorem slice_nil (o n : Nat) : slice [] o n = List.replicate n 0 := by
  simp only [slice, List.drop_nil, List.take_nil, List.nil_append, List.length_nil, Nat.sub_zero]

/-! An empty region, and the ends of commands. -/

@[simp] theorem spl_splEmpty (s : State) (m p : Nat) :
    (s.splEmpty m p).spl m p = { s.spl m p with st := .empty, maxCount := 0, entries := 0, lmap := 0 } := by
  rw [splEmpty, spl_healWords, spl_setRegion, spl_modSpl]

theorem region_splEmpty (s : State) (m p : Nat) : (s.splEmpty m p).region m p = List.replicate 16384 0 :=
  (region_setRegion ..).trans (slice_nil ..)

@[simp] theorem spl_splRefuse (s : State) (m p : Nat) (host : Bool) (st : Byte) :
    (s.splRefuse m p host st).spl m p = { s.spl m p with status := st } := by
  rw [splRefuse]
  split
  · exact (spl_cause ..).trans (spl_modSpl ..)
  · exact spl_modSpl ..

@[simp] theorem region_splRefuse (s : State) (m p : Nat) (host : Bool) (st : Byte) (k q : Nat) :
    (s.splRefuse m p host st).region k q = s.region k q := by
  cases host
  · rfl
  · exact region_cause ..

@[simp] theorem regions_splRefuse (s : State) (m p : Nat) (host : Bool) (st : Byte) : (s.splRefuse m p host st).regions = s.regions := by
  cases host
  · rfl
  · exact regions_cause ..

@[simp] theorem spl_splFinish (s : State) (m p : Nat) (st : Byte) :
    (s.splFinish m p st).spl m p = { s.spl m p with status := st, busy := false, byHost := false } := by
  rw [splFinish]
  split
  · exact (spl_cause ..).trans (spl_modSpl ..)
  · exact spl_modSpl ..

@[simp] theorem region_splFinish (s : State) (m p : Nat) (st : Byte) (k q : Nat) : (s.splFinish m p st).region k q = s.region k q := by
  rw [splFinish]
  split
  · exact region_cause ..
  · rfl

/-- From `s` to `t` the splice region of array p of mast m may have changed, with the list of bad words and the log of the integrity block,
and the interrupt of a host's command; no other region has, and nothing else of State. -/
def SpliceTouches (m p : Nat) (s t : State) : Prop :=
  (∀ k q, kArr k q ≠ kArr m p → t.spl k q = s.spl k q ∧ t.region k q = s.region k q) ∧ t.integ.jobState = s.integ.jobState ∧
  t = { s with
    spls := t.spls
    regions := t.regions
    integ := t.integ
    genCause := t.genCause
    vecs := t.vecs
    out := t.out }

theorem SpliceTouches.trans (h : SpliceTouches m p s t) (k : SpliceTouches m p t u) : SpliceTouches m p s u := by
  obtain ⟨hrest, hjob, ht⟩ := h
  obtain ⟨hrest', hjob', hu⟩ := k
  refine ⟨fun a b hne => ⟨(hrest' a b hne).1.trans (hrest a b hne).1, (hrest' a b hne).2.trans (hrest a b hne).2⟩, hjob'.trans hjob, ?_⟩
  rw [ht] at hu
  exact hu

theorem spliceTouches_modSpl (s : State) (m p : Nat) (f : Spl → Spl) : SpliceTouches m p s (s.modSpl m p f) :=
  ⟨fun _ _ hne => ⟨s.spl_modSpl_ne f hne, rfl⟩, rfl, rfl⟩

theorem spliceTouches_setRegion (s : State) (m p : Nat) (v : List Byte) : SpliceTouches m p s (s.setRegion m p v) :=
  ⟨fun _ _ hne => ⟨rfl, s.region_setRegion_ne v hne⟩, rfl, rfl⟩

theorem spliceTouches_healWords (s : State) (m p : Nat) (b : Bool) (n x : Nat) : SpliceTouches m p s (s.healWords b n x) :=
  ⟨fun _ _ _ => ⟨rfl, rfl⟩, rfl, rfl⟩

theorem spliceTouches_cause_if (s : State) (m p b : Nat) (c : Bool) : SpliceTouches m p s (if c then s.cause b else s) := by
  cases c
  · exact ⟨fun _ _ _ => ⟨rfl, rfl⟩, rfl, rfl⟩
  · obtain ⟨v, o, hc⟩ := s.cause_frame b
    rw [if_pos rfl, hc]
    exact ⟨fun _ _ _ => ⟨rfl, rfl⟩, rfl, rfl⟩

theorem spliceTouches_log (s : State) (m p : Nat) {v : Sev} (i : RecInfo) (hv : sevCode v ≤ 2) : SpliceTouches m p s (s.log v i) := by
  rw [s.log_mild v i hv]
  obtain ⟨g, x, o, hlog, hjob, -⟩ := s.logOnly_frame v i
  rw [hlog]
  exact ⟨fun _ _ _ => ⟨rfl, rfl⟩, hjob, rfl⟩

theorem spliceTouches_splRefuse (s : State) (m p : Nat) (host : Bool) (st : Byte) : SpliceTouches m p s (s.splRefuse m p host st) :=
  (s.spliceTouches_modSpl m p _).trans (spliceTouches_cause_if ..)

theorem spliceTouches_splFinish (s : State) (m p : Nat) (st : Byte) : SpliceTouches m p s (s.splFinish m p st) :=
  (s.spliceTouches_modSpl m p _).trans (spliceTouches_cause_if ..)

theorem spliceTouches_splEmpty (s : State) (m p : Nat) : SpliceTouches m p s (s.splEmpty m p) :=
  ((s.spliceTouches_modSpl m p _).trans (spliceTouches_setRegion ..)).trans (spliceTouches_healWords ..)

theorem SpliceTouches.keepBoot_eq (h : SpliceTouches m p s t) : s.keepBoot t = t := by
  obtain ⟨-, hjob, ht⟩ := h
  exact State.keepBoot_eq (by rw [ht]) (by rw [ht]) (by rw [ht]) (by rw [ht]) hjob (by rw [ht]) (by rw [ht]) (by rw [ht])

theorem SpliceTouches.arr_eq (h : SpliceTouches m p s t) (k q : Nat) : t.arr k q = s.arr k q := by
  obtain ⟨-, -, ht⟩ := h
  rw [ht]; rfl

theorem SpliceTouches.atrim_eq (h : SpliceTouches m p s t) (k q : Nat) : t.atrim k q = s.atrim k q := by
  obtain ⟨-, -, ht⟩ := h
  rw [ht]; rfl

/-- Cells and arrays are not touched. -/
theorem SpliceTouches.cells_eq (h : SpliceTouches m p s t) : t.arrs = s.arrs ∧ t.rows = s.rows := by
  obtain ⟨-, -, ht⟩ := h
  rw [ht]; exact ⟨rfl, rfl⟩

/-! The refusals of LOAD and CLEAR (R95). -/

/-- The status with which LOAD and CLEAR of a region are both refused, the first that applies, if one does (R91, R92, R94). -/
def splRefusal (s : State) (m p : Nat) (host : Bool) : Option Byte :=
  if host && (s.arr m p).slot.isSome then some sArrOwned
  else if (s.spl m p).busy then some sArrBusy
  else if (s.arr m p).st = .active then some sArrActive
  else if (s.arr m p).st = .retired then some sArrRetired
  else none

theorem splRefusal_eq_none {host : Bool} (hslot : host = true → (s.arr m p).slot = none) (hbusy : (s.spl m p).busy = false)
    (hact : (s.arr m p).st ≠ .active) (hret : (s.arr m p).st ≠ .retired) : s.splRefusal m p host = none := by
  have howned : (host && (s.arr m p).slot.isSome) = false := by
    cases host
    · rfl
    · rw [hslot rfl]; rfl
  simp only [splRefusal, howned, hbusy, hact, hret, Bool.false_eq_true, if_false]

/-- A chain of conditions that names a status, and the chain that answers it, agree link by link. -/
theorem refusal_link {c Q P : Prop} [Decidable c] {a st : Byte} {o : Option Byte} (h : if c then st = a else Q)
    (hrest : Q → o = some st ∨ o = none ∧ P) : (if c then some a else o) = some st ∨ (if c then some a else o) = none ∧ P := by
  by_cases hc : c
  · rw [if_pos hc] at h ⊢
    exact .inl (congrArg some h.symm)
  · rw [if_neg hc] at h ⊢
    exact hrest h

/-- The status that a chain of the conditions of R95 names is that of the refusal, and at the chain's end neither command is refused for the
region or its array. -/
theorem splRefusal_of_chain {host : Bool} {st : Byte} {P : Prop}
    (h : if host = true ∧ (s.arr m p).slot.isSome then st = sArrOwned
      else if (s.spl m p).busy then st = sArrBusy
      else if (s.arr m p).st = .active then st = sArrActive
      else if (s.arr m p).st = .retired then st = sArrRetired
      else P) : s.splRefusal m p host = some st ∨ s.splRefusal m p host = none ∧ P := by
  simp only [splRefusal, Bool.and_eq_true]
  exact refusal_link h fun h => refusal_link h fun h => refusal_link h fun h => refusal_link h fun h => .inr ⟨rfl, h⟩

theorem splLoad_eq (s : State) (m p : Nat) (l : BitVec 2) (host : Bool) : s.splLoad m p l host = (s.splRefusal m p host).elim
    (if l = 3 || !srcOk m (s.spl m p).src.toNat 16384 then s.splRefuse m p host sBadConfig
    else s.modSpl m p (fun x => { x with
      st := .loading
      busy := true
      latchLmap := l
      latchSrc := x.src
      byHost := host
      image := none })) (s.splRefuse m p host) := by
  simp only [splLoad, splRefusal]
  split
  · rfl
  · split
    · rfl
    · split
      · rfl
      · split <;> rfl

theorem splClear_eq (s : State) (m p : Nat) (host : Bool) : s.splClear m p host =
    (s.splRefusal m p host).elim ((s.splEmpty m p).splRefuse m p host sOK) (s.splRefuse m p host) := by
  simp only [splClear, splRefusal]
  split
  · rfl
  · split
    · rfl
    · split
      · rfl
      · split <;> rfl

theorem splLoad_of_refusal {host : Bool} {st : Byte} (l : BitVec 2) (h : s.splRefusal m p host = some st) :
    s.splLoad m p l host = s.splRefuse m p host st := by
  rw [splLoad_eq, h]; rfl

theorem splClear_of_refusal {host : Bool} {st : Byte} (h : s.splRefusal m p host = some st) :
    s.splClear m p host = s.splRefuse m p host st := by
  rw [splClear_eq, h]; rfl

theorem splLoad_of_no_refusal {host : Bool} (l : BitVec 2) (h : s.splRefusal m p host = none) : s.splLoad m p l host =
    if l = 3 || !srcOk m (s.spl m p).src.toNat 16384 then s.splRefuse m p host sBadConfig
    else s.modSpl m p (fun x => { x with
      st := .loading
      busy := true
      latchLmap := l
      latchSrc := x.src
      byHost := host
      image := none }) := by
  rw [splLoad_eq, h]; rfl

theorem splClear_of_no_refusal {host : Bool} (h : s.splRefusal m p host = none) :
    s.splClear m p host = (s.splEmpty m p).splRefuse m p host sOK := by
  rw [splClear_eq, h]; rfl

/-! The end of a LOAD (R89). -/

theorem splBlocks_nil (s : State) (addr : Nat) : s.splBlocks addr [] = s := rfl

/-- The image that the LOAD in progress on a region reads: at the latched address in HBM, or the derived image of a slot, whose region
image stands behind that of its array (R81, R193). -/
def splImage (s : State) (m p : Nat) : List Byte :=
  s.imageBytes m (s.spl m p).image (s.spl m p).latchSrc.toNat (if (s.spl m p).image.isSome then 1048576 else 0) 16384

/-- The region takes in a well-formed image (R89). -/
def splTake (s : State) (m p : Nat) (img : List Byte) : State :=
  ((s.setRegion m p img).healWords false m p).modSpl m p (fun x => { x with
    st := .valid
    lmap := x.latchLmap
    maxCount := BitVec.ofNat 6 (regMax img)
    entries := BitVec.ofNat 12 (regTotal img) })

@[simp] theorem spl_splTake (s : State) (m p : Nat) (img : List Byte) : (s.splTake m p img).spl m p = { s.spl m p with
    st := .valid
    lmap := (s.spl m p).latchLmap
    maxCount := BitVec.ofNat 6 (regMax img)
    entries := BitVec.ofNat 12 (regTotal img) } := by
  rw [splTake, spl_modSpl, spl_healWords, spl_setRegion]

theorem region_splTake (s : State) (m p : Nat) (img : List Byte) : (s.splTake m p img).region m p = slice img 0 16384 :=
  region_setRegion ..

theorem spliceTouches_splTake (s : State) (m p : Nat) (img : List Byte) : SpliceTouches m p s (s.splTake m p img) :=
  ((s.spliceTouches_setRegion m p img).trans (spliceTouches_healWords ..)).trans (spliceTouches_modSpl ..)

/-- With no block that fails, the outcome is that of the image's own bytes (R83). -/
theorem splLoadComplete_nil (hbusy : (s.spl m p).busy = true) : s.splLoadComplete m p [] =
    if regOver (s.splImage m p) (s.spl m p).latchLmap then (s.splEmpty m p).splFinish m p sSplOver
    else if !regFormed (s.splImage m p) then (s.splEmpty m p).splFinish m p sSplBad
    else (s.splTake m p (s.splImage m p)).splFinish m p sOK := by
  have hpass : (upTo 4).all (fun i => (([] : List (Bool × Bool)).getD i (true, false)).1) = true := rfl
  simp only [splLoadComplete, hbusy, splBlocks_nil, hpass, Bool.not_true, Bool.false_eq_true, if_false, splImage, splTake]
  rfl

theorem splLoadComplete_of_wellFormed (hbusy : (s.spl m p).busy = true)
    (hwf : regOver (s.splImage m p) (s.spl m p).latchLmap = false ∧ regFormed (s.splImage m p) = true) :
    s.splLoadComplete m p [] = (s.splTake m p (s.splImage m p)).splFinish m p sOK := by
  obtain ⟨hover, hformed⟩ := hwf
  rw [splLoadComplete_nil hbusy, hover, hformed]; rfl

theorem splLoadComplete_of_not_wellFormed (hbusy : (s.spl m p).busy = true)
    (hwf : ¬ (regOver (s.splImage m p) (s.spl m p).latchLmap = false ∧ regFormed (s.splImage m p) = true)) :
    s.splLoadComplete m p [] = (s.splEmpty m p).splFinish m p
      (if regOver (s.splImage m p) (s.spl m p).latchLmap then sSplOver else if regFormed (s.splImage m p) then sOK else sSplBad) := by
  rw [splLoadComplete_nil hbusy]
  cases hover : regOver (s.splImage m p) (s.spl m p).latchLmap
  · have hformed : regFormed (s.splImage m p) = false := Bool.eq_false_iff.2 fun h => hwf ⟨hover, h⟩
    rw [hformed]; rfl
  · rfl

/-- A block of an image in HBM fails when it is read, and again. -/
theorem splLoadComplete_block_fails (hbusy : (s.spl m p).busy = true) (himg : (s.spl m p).image = none) :
    s.splLoadComplete m p [(false, false)] =
      ((s.log .repeated (blockInfoAt 3 (s.spl m p).latchSrc.toNat)).splEmpty m p).splFinish m p sBadImage := by
  rw [splLoadComplete, hbusy, himg]
  rfl

/-- With neither firmware nor trim in wait for the array, the end of a command on it issues none. -/
theorem arrNext_of_idle (hfw : (s.arr m p).fw = none) (hcol : (s.atrim m p).colTodo = []) : s.arrNext m p = s := by
  have hnext : s.fwNext m p = s := by rw [fwNext, hfw]
  rw [arrNext, hnext, colNext, hcol]

theorem tail_putRec (g : Integ) (r : ErrRec) : (putRec g r).tail = g.tail + 1 := by
  simp only [putRec]
  split
  · rfl
  · split <;> rfl

theorem tail_logOnly (s : State) (v : Sev) (i : RecInfo) : (s.logOnly v i).integ.tail = s.integ.tail + 1 := by
  simp only [logOnly]
  generalize (if s.escalates v = true then Sev.devFatal else v) = w
  split
  · obtain ⟨x, o, hr⟩ := raise_frame { s with integ := putRec s.integ _ } 2
    rw [hr]; exact tail_putRec ..
  · exact tail_putRec ..

@[simp] theorem tail_splEmpty (s : State) (m p : Nat) : (s.splEmpty m p).integ.tail = s.integ.tail := rfl

@[simp] theorem tail_splFinish (s : State) (m p : Nat) (st : Byte) : (s.splFinish m p st).integ.tail = s.integ.tail := by
  simp only [splFinish]
  split
  · obtain ⟨v, o, hc⟩ := cause_frame (s.modSpl m p _) gArr
    rw [hc]; rfl
  · rfl

end State

/-! SPL_LOAD, SPL_LOAD_COMPLETE and SPL_CLEAR. -/

theorem exec_splLoad (m p : Nat) (l : BitVec 2) (host : Bool) (s : State) :
    exec (.splLoad m p l host) s = act (okArr m p && s.hostMay) s (·.splLoad m p l host) := rfl

theorem exec_splLoadComplete (m p : Nat) (blocks : List (Bool × Bool)) (s : State) :
    exec (.splLoadComplete m p blocks) s = act (okArr m p) s (fun s => (s.splLoadComplete m p blocks).arrNext m p) := rfl

theorem exec_splClear (m p : Nat) (host : Bool) (s : State) :
    exec (.splClear m p host) s = act (okArr m p && s.hostMay) s (·.splClear m p host) := rfl

theorem okArr_of_lt {m p : Nat} (hm : m < 4) (hp : p < 17408) : okArr m p = true := by
  simp only [okArr, okMast, hm, hp, decide_true, Bool.and_self]

section

open State

variable {s t : State} {m p : Nat} {host : Bool}

/-- A command that touches one splice region alone completes with the state its meaning makes. -/
theorem completes_of_spliceTouches {i : Instr} {P : State → Prop} {ok : Bool} {f : State → State} (h : exec i s = act ok s f)
    (hok : ok = true) (hf : f s = t) (ht : SpliceTouches m p s t) (hp : P t) : Completes i s P := by
  subst hf
  exact completes_act h hok (by rw [ht.keepBoot_eq]; exact hp)

/-- A LOAD's end that touches one splice region alone completes with what `splLoadComplete` makes, where the array's next command is none. -/
theorem completes_splLoadComplete {P : State → Prop} {blocks : List (Bool × Bool)} (hok : okArr m p = true)
    (hfw : (s.arr m p).fw = none) (hcol : (s.atrim m p).colTodo = []) (hend : s.splLoadComplete m p blocks = t)
    (ht : SpliceTouches m p s t) (hp : P t) : Completes (.splLoadComplete m p blocks) s P := by
  have hnext : t.arrNext m p = t := arrNext_of_idle (by rw [ht.arr_eq, hfw]) (by rw [ht.atrim_eq, hcol])
  exact completes_of_spliceTouches (exec_splLoadComplete m p blocks s) hok (by rw [hend, hnext]) ht hp

/-- A refusal writes the region's status alone. -/
theorem completes_splRefuse {i : Instr} {ok : Bool} {f : State → State} {st : Byte} (h : exec i s = act ok s f) (hok : ok = true)
    (hf : f s = s.splRefuse m p host st) : Completes i s (fun t =>
      t.spl m p = { s.spl m p with status := st } ∧ (∀ k q, kArr k q ≠ kArr m p → t.spl k q = s.spl k q) ∧ t.regions = s.regions ∧
      t.rows = s.rows ∧ t.arrs = s.arrs) := by
  have ht := s.spliceTouches_splRefuse m p host st
  obtain ⟨harrs, hrows⟩ := ht.cells_eq
  exact completes_of_spliceTouches h hok hf ht
    ⟨spl_splRefuse .., fun k q hne => (ht.1 k q hne).1, regions_splRefuse .., hrows, harrs⟩

theorem completes_splLoad_taken {l : BitVec 2} (hok : (okArr m p && s.hostMay) = true) (hnone : s.splRefusal m p host = none) (hl : l ≠ 3)
    (hsrc : srcOk m (s.spl m p).src.toNat 16384 = true) : Completes (.splLoad m p l host) s (fun t =>
      t.spl m p = { s.spl m p with
        st := .loading
        busy := true
        latchLmap := l
        latchSrc := (s.spl m p).src
        byHost := host
        image := none } ∧ (∀ k q, kArr k q ≠ kArr m p → t.spl k q = s.spl k q) ∧ t = { s with spls := t.spls }) := by
  have hload := splLoad_of_no_refusal l hnone
  rw [if_neg (by simp only [hl, hsrc, decide_false, Bool.not_true, Bool.or_self, Bool.false_eq_true, not_false_eq_true])] at hload
  exact completes_of_spliceTouches (exec_splLoad m p l host s) hok hload (spliceTouches_modSpl ..)
    ⟨spl_modSpl .., fun k q hne => s.spl_modSpl_ne _ hne, rfl⟩

theorem completes_splLoad_badConfig {l : BitVec 2} (hok : (okArr m p && s.hostMay) = true) (hnone : s.splRefusal m p host = none)
    (hconfig : l = 3 ∨ srcOk m (s.spl m p).src.toNat 16384 = false) : Completes (.splLoad m p l host) s (fun t =>
      t.spl m p = { s.spl m p with status := sBadConfig } ∧ (∀ k q, kArr k q ≠ kArr m p → t.spl k q = s.spl k q) ∧
      t.regions = s.regions ∧ t.rows = s.rows ∧ t.arrs = s.arrs) := by
  have hload := splLoad_of_no_refusal l hnone
  rw [if_pos (by simpa only [Bool.or_eq_true, decide_eq_true_eq, Bool.not_eq_true'] using hconfig)] at hload
  exact completes_splRefuse (exec_splLoad m p l host s) hok hload

theorem completes_splClear_taken (hok : (okArr m p && s.hostMay) = true) (hnone : s.splRefusal m p host = none) :
    Completes (.splClear m p host) s (fun t =>
      (t.spl m p).st = .empty ∧ (t.spl m p).status = sOK ∧ t.region m p = List.replicate 16384 0 ∧
      (∀ k q, kArr k q ≠ kArr m p → t.spl k q = s.spl k q ∧ t.region k q = s.region k q) ∧ t.arrs = s.arrs ∧ t.rows = s.rows) := by
  have ht := (s.spliceTouches_splEmpty m p).trans (spliceTouches_splRefuse _ m p host sOK)
  obtain ⟨harrs, hrows⟩ := ht.cells_eq
  exact completes_of_spliceTouches (exec_splClear m p host s) hok (splClear_of_no_refusal hnone) ht
    ⟨by rw [spl_splRefuse, spl_splEmpty], by rw [spl_splRefuse], (region_splRefuse ..).trans (region_splEmpty ..), ht.1, harrs, hrows⟩

/-- A LOAD none of whose blocks fails: the region takes in a well-formed image, and is EMPTY after any other. -/
theorem completes_splLoadComplete_nil (hok : okArr m p = true) (hfw : (s.arr m p).fw = none) (hcol : (s.atrim m p).colTodo = [])
    (hbusy : (s.spl m p).busy = true) : Completes (.splLoadComplete m p []) s (fun t =>
      (t.spl m p).busy = false ∧
      (t.spl m p).status = (if regOver (s.splImage m p) (s.spl m p).latchLmap then sSplOver
        else if regFormed (s.splImage m p) then sOK else sSplBad) ∧
      (if regOver (s.splImage m p) (s.spl m p).latchLmap = false ∧ regFormed (s.splImage m p) = true then
        (t.spl m p).st = .valid ∧ (t.spl m p).lmap = (s.spl m p).latchLmap ∧ t.region m p = slice (s.splImage m p) 0 16384
      else (t.spl m p).st = .empty ∧ t.region m p = List.replicate 16384 0) ∧
      (∀ k q, kArr k q ≠ kArr m p → t.spl k q = s.spl k q ∧ t.region k q = s.region k q) ∧
      t = { s with
        spls := t.spls
        regions := t.regions
        integ := t.integ
        genCause := t.genCause
        vecs := t.vecs
        out := t.out }) := by
  by_cases hwf : regOver (s.splImage m p) (s.spl m p).latchLmap = false ∧ regFormed (s.splImage m p) = true
  · have ht := (s.spliceTouches_splTake m p (s.splImage m p)).trans (spliceTouches_splFinish _ m p sOK)
    refine completes_splLoadComplete hok hfw hcol (splLoadComplete_of_wellFormed hbusy hwf) ht
      ⟨by rw [spl_splFinish], ?_, ?_, ht.1, ht.2.2⟩
    · rw [spl_splFinish, hwf.1, hwf.2]; rfl
    · rw [if_pos hwf, spl_splFinish, spl_splTake]
      exact ⟨rfl, rfl, (region_splFinish ..).trans (region_splTake ..)⟩
  · have ht := fun st => (s.spliceTouches_splEmpty m p).trans (spliceTouches_splFinish _ m p st)
    refine completes_splLoadComplete hok hfw hcol (splLoadComplete_of_not_wellFormed hbusy hwf) (ht _)
      ⟨by rw [spl_splFinish], by rw [spl_splFinish], ?_, (ht _).1, (ht _).2.2⟩
    rw [if_neg hwf, spl_splFinish, spl_splEmpty]
    exact ⟨rfl, (region_splFinish ..).trans (region_splEmpty ..)⟩

theorem completes_splLoadComplete_block_fails (hok : okArr m p = true) (hfw : (s.arr m p).fw = none) (hcol : (s.atrim m p).colTodo = [])
    (hbusy : (s.spl m p).busy = true) (himg : (s.spl m p).image = none) : Completes (.splLoadComplete m p [(false, false)]) s (fun t =>
      (t.spl m p).st = .empty ∧ (t.spl m p).busy = false ∧ (t.spl m p).status = sBadImage ∧ t.region m p = List.replicate 16384 0 ∧
      (∀ k q, kArr k q ≠ kArr m p → t.spl k q = s.spl k q ∧ t.region k q = s.region k q) ∧
      t.integ.tail = s.integ.tail + 1 ∧ t.arrs = s.arrs ∧ t.rows = s.rows) := by
  have hlog := s.spliceTouches_log m p (v := .repeated) (blockInfoAt 3 (s.spl m p).latchSrc.toNat) (by decide)
  have ht := (hlog.trans (spliceTouches_splEmpty ..)).trans (spliceTouches_splFinish _ m p sBadImage)
  obtain ⟨harrs, hrows⟩ := ht.cells_eq
  refine completes_splLoadComplete hok hfw hcol (splLoadComplete_block_fails hbusy himg) ht ?_
  rw [spl_splFinish, spl_splEmpty]
  exact ⟨rfl, rfl, rfl, (region_splFinish ..).trans (region_splEmpty ..), ht.1,
    by rw [tail_splFinish, tail_splEmpty, log_mild _ _ _ (by decide), tail_logOnly], harrs, hrows⟩

end

/-- Settles O20: which outcome a command comes to is decided by the refusals of R95 in their order and, at a LOAD's end, by the conditions of
R83; a refusal, an emptied region and a loaded one each touch the one splice region alone. -/
theorem spliceRegions : Obligations.SpliceRegions := by
  intro s m p hm hp hfw hcol
  have hok := okArr_of_lt hm hp
  have hokHost : s.hostMay = true → (okArr m p && s.hostMay) = true := fun hmay => by rw [hok, hmay]; rfl
  refine ⟨fun l host hmay hslot hbusy hact hret hl hsrc => ?_, fun l host st hmay i hi hst => ?_,
    completes_splLoadComplete_nil hok hfw hcol, completes_splLoadComplete_block_fails hok hfw hcol,
    fun host hmay hslot hbusy hact hret => ?_⟩
  · exact completes_splLoad_taken (hokHost hmay) (State.splRefusal_eq_none hslot hbusy hact hret) hl hsrc
  · simp only [List.mem_cons, List.not_mem_nil, or_false] at hi
    obtain hrefused | ⟨hnone, rfl, hconfig, rfl⟩ := State.splRefusal_of_chain hst
    · obtain rfl | rfl := hi
      · exact completes_splRefuse (exec_splLoad m p l host s) (hokHost hmay) (State.splLoad_of_refusal l hrefused)
      · exact completes_splRefuse (exec_splClear m p host s) (hokHost hmay) (State.splClear_of_refusal hrefused)
    · exact completes_splLoad_badConfig (hokHost hmay) hnone hconfig
  · exact completes_splClear_taken (hokHost hmay) (State.splRefusal_eq_none hslot hbusy hact hret)

end Sys2Proof.Machine

/-! Streams of layer programs (R108, R162, R163, R167, R169, R172, R178 to R180, R184): banks first, then what an operation reads and moves,
then the plies of an operation, the barriers, repeats and samples, and the end of a pass. -/

namespace Sys2Proof.Machine

section

variable {V : Type} [DecidableEq V] {d v : V}

/-- A value that is written and is not the one an unlisted number reads as is listed. -/
theorem mem_tabSet_self (hv : v ≠ d) : ∀ (t : Tab V) (k : Nat), (k, v) ∈ tabSet d t k v
  | [], k => by simp [tabSet, tabCons, hv]
  | (k', v') :: t, k => by
    rw [tabSet]
    split
    · simp [tabCons, hv]
    · split
      · simp [tabCons, hv]
      · exact List.mem_cons_of_mem _ (mem_tabSet_self hv t k)

theorem mem_tabKeys_tabSet (hv : v ≠ d) (t : Tab V) (k : Nat) {q : Nat → V → Bool} (hq : q k v = true) :
    k ∈ tabKeys (tabSet d t k v) q :=
  List.mem_map.2 ⟨(k, v), List.mem_filter.2 ⟨mem_tabSet_self hv t k, hq⟩, rfl⟩

/-- A read after a change of every listed value: the change keeps the value of an unlisted number, and does not turn the value read into it. -/
theorem tabGet_tabMapAll {f : Nat → V → V} {k : Nat} (hd : f k d = d) :
    ∀ t : Tab V, f k (tabGet d t k) ≠ d → tabGet d (tabMapAll d f t) k = f k (tabGet d t k)
  | [], h => absurd hd h
  | (k', v') :: t, h => by
    rw [tabMapAll]
    by_cases hk : k' = k
    · subst hk
      rw [tabGet, if_pos rfl] at h ⊢
      rw [tabCons, if_neg h, tabGet, if_pos rfl]
    · rw [tabGet, if_neg hk] at h ⊢
      rw [tabCons]
      split
      · exact tabGet_tabMapAll hd t h
      · rw [tabGet, if_neg hk]
        exact tabGet_tabMapAll hd t h

end

namespace State

variable {s t u : State} {m n : Nat} {a : At} {p : PlyPanel}

/-! The operation a stream is at. -/

/-- What a stream's operation says of the state it is read in. -/
structure AtOperation (s : State) (m code : Nat) (a : At) : Prop where
  busy : (s.stream m).busy = true
  blk : a.blk = (s.stream m).block.toNat
  code : opCode a.op = code
  phase : s.integ.phase = 0

theorem atOperation_of_atOp {code : Nat} (h : s.atOp m code = some a) : s.AtOperation m code a := by
  rw [atOp] at h
  split at h
  · cases h
  · next hbatch =>
    dsimp only at h
    split at h
    · cases h
    · split at h
      · next hrun =>
        obtain ⟨hcode, hphase, -⟩ := hrun
        obtain rfl := Option.some.inj h
        refine ⟨?_, rfl, hcode, hphase⟩
        cases hbusy : (s.stream m).busy with
        | true => rfl
        | false =>
          rw [streamBatch, hbusy] at hbatch
          cases hbatch
      · cases h

theorem AtOperation.issue_running {code : Nat} (h : s.AtOperation m code a) : ¬ (s.issue m a).integ.phase ≠ 0 := not_not_intro h.phase

/-! Streams move, and nothing else does. -/

@[simp] theorem stream_modStream (s : State) (m : Nat) (f : Stream → Stream) : (s.modStream m f).stream m = f (s.stream m) :=
  stream_setStream ..

theorem stream_modStream_ne {j : Nat} (s : State) (f : Stream → Stream) (h : j ≠ m) : (s.modStream m f).stream j = s.stream j :=
  tabGet_tabSet_ne _ _ _ _ h

@[simp] theorem stream_issue (s : State) (m : Nat) (a : At) : (s.issue m a).stream m = { s.stream m with
    op := BitVec.ofNat 16 a.num
    layer := BitVec.ofNat 10 a.layer
    started := true
    wait := 0
    since := if (s.stream m).started then (s.stream m).since else s.now } := stream_modStream ..

@[simp] theorem stream_waits (s : State) (m : Nat) (w : BitVec 4) : (s.waits m w).stream m = { s.stream m with wait := w } :=
  stream_modStream ..

/-- The streams alone differ. -/
def StreamsMove (s t : State) : Prop := t = { s with streams := t.streams }

theorem StreamsMove.trans (h : StreamsMove s t) (k : StreamsMove t u) : StreamsMove s u := by
  rw [StreamsMove] at h k ⊢
  rw [k, h]

theorem streamsMove_modStream (s : State) (m : Nat) (f : Stream → Stream) : StreamsMove s (s.modStream m f) := rfl

theorem streamsMove_issue (s : State) (m : Nat) (a : At) : StreamsMove s (s.issue m a) := rfl

theorem StreamsMove.keepBoot_eq (h : StreamsMove s t) : s.keepBoot t = t := by
  rw [h]
  exact keepBoot_of rfl rfl rfl rfl rfl rfl

/-! An operation completes: the stream goes on. -/

theorem goTo_of_lt {pos : Nat} (s : State) (m iter : Nat) (h : pos < a.ops.length) : s.goTo m a pos iter = s.modStream m (fun x => { x with
    pos := pos
    iter := iter
    started := false
    wait := 0
    done := []
    left := []
    since := s.now }) := if_pos h

theorem streamsMove_goTo {pos : Nat} (s : State) (m iter : Nat) (h : pos < a.ops.length) : StreamsMove s (s.goTo m a pos iter) := by
  rw [goTo_of_lt s m iter h]
  exact streamsMove_modStream ..

theorem wentOn_complete (hbusy : (s.stream m).busy = true) (h : a.pos + 1 < a.ops.length) : (s.complete_ m a).WentOn m a := by
  rw [complete_, goTo_of_lt s m _ h, WentOn, stream_modStream]
  exact ⟨hbusy, rfl, rfl, rfl⟩

/-! The end of a pass (R162, R163). -/

/-- What the end of a pass goes by: the batches in flight, the contexts, and the block that the stream is at. -/
def passWork (s : State) (m : Nat) : List Batch × Tab Ctx × BitVec 4 := (s.batches, s.ctxs, (s.stream m).block)

theorem passWork_modStream (s : State) (j m : Nat) {f : Stream → Stream}
    (hf : ∀ x, (f x).block = x.block := by exact fun _ => rfl) : (s.modStream j f).passWork m = s.passWork m := by
  by_cases h : m = j
  · subst h
    rw [passWork, stream_modStream, hf]
    rfl
  · rw [passWork, stream_modStream_ne s f h]
    rfl

theorem passWork_issue (s : State) (m : Nat) (a : At) : (s.issue m a).passWork m = s.passWork m :=
  passWork_modStream s m m

theorem passWork_hbmMoved (s : State) (k b m : Nat) : (s.hbmMoved k b).passWork m = s.passWork m :=
  passWork_modStream s (k / 2) m

theorem foldl_passWork {α : Type} {f : State → α → State} (h : ∀ s x, (f s x).passWork m = s.passWork m) (l : List α) (s : State) :
    (l.foldl f s).passWork m = s.passWork m := foldl_keeps (passWork · m) h l s

theorem passWork_writeRow (s : State) (m j w fmt k : Nat) (l : List Nat) : (s.writeRow m j w fmt k l).passWork m = s.passWork m := by
  rw [writeRow, putLines]
  refine foldl_passWork ?_ _ s
  exact fun _ _ => rfl

theorem batches_startStream (s : State) (b : Batch) (blk m : Nat) : (s.startStream b blk m).batches = s.batches :=
  batches_of_beatWork (beatWork_startStream ..)

/-- The pass that ends is that of the block which the stream stood at when its last operation began. -/
theorem passEnded_endPass (hblk : a.blk = (s.stream m).block.toNat) (hu : u.passWork m = s.passWork m) :
    s.PassEnded (u.endPass m a.b) m a := by
  simp only [passWork, Prod.mk.injEq] at hu
  obtain ⟨hbatches, hctxs, hblock⟩ := hu
  have hreload : u.isReload a.b.ctx = s.isReload a.b.ctx := by simp only [isReload, ctx, hctxs]
  rw [PassEnded, endPass, hblock, ← hblk]
  split
  · refine ⟨?_, ?_, ?_, (batches_startStream ..).trans hbatches, fun hno => ?_⟩
    all_goals simp only [startStream, stream_modStream]
    simp [hreload, hno]
  · refine ⟨?_, fun y hy hstep hctx hnot => ?_⟩
    · exact congrArg Stream.busy (stream_modStream u m (fun x => { x with busy := false, wait := 0 }))
    obtain ⟨z, -, rfl⟩ := List.mem_map.1 hy
    by_cases hz : z.step = a.b.step ∧ z.ctx = a.b.ctx ∧ !z.finished
    · rw [if_pos hz]
      exact List.mem_append_right _ (List.mem_singleton.2 rfl)
    · rw [if_neg hz] at hstep hctx hnot
      exact absurd ⟨hstep, hctx, by rw [hnot]; rfl⟩ hz

theorem passEnded_complete (hblk : a.blk = (s.stream m).block.toNat) (hu : u.passWork m = s.passWork m) (hlast : a.pos + 1 = a.ops.length) :
    s.PassEnded (u.complete_ m a) m a := by
  rw [complete_, goTo, if_neg (by omega)]
  exact passEnded_endPass hblk hu


/-! BARRIER, REPEAT and SAMPLE (R167, R179, R180, R184). -/

theorem reached_congr {j : Nat} (k : Nat) (h : u.stream j = s.stream j) : u.reached a j k = s.reached a j k := by
  rw [reached, reached, h]

/-- A mast has reached the BARRIER that its own stream stands at. -/
theorem reached_self (hblk : a.blk = (s.stream m).block.toNat) : s.reached a m (s.stream m).bars = true := by
  simp [reached, hblk]

/-- The BARRIERs of the pass that mast m has reached once it has come to the one it stands at. -/
def barsAt (s : State) (m : Nat) : Nat := if (s.stream m).started then (s.stream m).bars else (s.stream m).bars + 1

/-- The masts that a BARRIER names, and the mast itself apart, have reached it. -/
def BarrierOpen (s : State) (m : Nat) (a : At) : Prop :=
  ∀ j, j < 4 → (opA10 a.op >>> j) % 2 = 1 → j ≠ m → s.reached a j (s.barsAt m) = true

/-- The BARRIER that mast m stands at is counted. -/
def atBarrier (s : State) (m : Nat) (a : At) : State := (s.issue m a).modStream m (fun x => { x with bars := s.barsAt m })

theorem streamsMove_atBarrier (s : State) (m : Nat) (a : At) : StreamsMove s (s.atBarrier m a) := rfl

theorem stream_atBarrier (s : State) (m : Nat) (a : At) :
    (s.atBarrier m a).stream m = { (s.issue m a).stream m with bars := s.barsAt m } := stream_modStream ..

theorem barrier_eq (hat : s.atOp m cBarrier = some a) : s.barrier m =
    if ((upTo 4).filter (fun j => (opA10 a.op >>> j) % 2 = 1)).all (fun j => (s.atBarrier m a).reached a j (s.barsAt m))
    then (s.atBarrier m a).complete_ m a else (s.atBarrier m a).waits m 5 := by
  have hcount : (s.issue m a).modStream m (fun x => { x with bars := if !(s.stream m).started then x.bars + 1 else x.bars }) =
      s.atBarrier m a := by
    simp only [atBarrier, modStream, stream_issue, barsAt]
    cases (s.stream m).started <;> rfl
  rw [barrier, hat]
  dsimp only
  rw [hcount, stream_atBarrier]

theorem all_reached_iff (hblk : a.blk = (s.stream m).block.toNat) :
    ((upTo 4).filter (fun j => (opA10 a.op >>> j) % 2 = 1)).all (fun j => (s.atBarrier m a).reached a j (s.barsAt m)) = true ↔
      s.BarrierOpen m a := by
  have hself : (s.atBarrier m a).reached a m (s.barsAt m) = true := by
    have hbars : ((s.atBarrier m a).stream m).bars = s.barsAt m := by rw [stream_atBarrier]
    rw [← hbars]
    exact reached_self (by rw [stream_atBarrier, stream_issue, hblk])
  have hother : ∀ j, j ≠ m → (s.atBarrier m a).reached a j (s.barsAt m) = s.reached a j (s.barsAt m) := fun j hj =>
    reached_congr _ ((stream_modStream_ne _ _ hj).trans (stream_modStream_ne _ _ hj))
  simp only [List.all_eq_true, List.mem_filter, upTo, List.mem_range, decide_eq_true_eq, BarrierOpen]
  refine ⟨fun h j hj hnamed hne => hother j hne ▸ h j ⟨hj, hnamed⟩, fun h j hj => ?_⟩
  by_cases hne : j = m
  · rw [hne]; exact hself
  · rw [hother j hne]; exact h j hj.1 hj.2 hne

theorem barrier_of_open (hat : s.atOp m cBarrier = some a) (h : s.BarrierOpen m a) :
    s.barrier m = (s.atBarrier m a).complete_ m a := by
  rw [barrier_eq hat, if_pos ((all_reached_iff (atOperation_of_atOp hat).blk).2 h)]

theorem barrier_of_not_open (hat : s.atOp m cBarrier = some a) (h : ¬ s.BarrierOpen m a) :
    s.barrier m = (s.atBarrier m a).waits m 5 := by
  rw [barrier_eq hat, if_neg (mt (all_reached_iff (atOperation_of_atOp hat).blk).1 h)]

/-- The layer of a body's iteration, and the last of the group (R167). -/
def layerNow (s : State) (a : At) : Nat := s.firstLayer a.b.ctx a.b.group + a.iter
def groupLast (s : State) (a : At) : Nat := s.lastLayer a.b.ctx a.b.group

theorem repeatOp_eq (hat : s.atOp m cRepeat = some a) : s.repeatOp m =
    if s.isReload a.b.ctx then
      if s.layerNow a = s.groupLast a then (s.issue m a).complete_ m a else (s.issue m a).endPass m a.b
    else if s.layerNow a < s.groupLast a then (s.issue m a).goTo m a (bodyStart a.ops) (a.iter + 1)
    else (s.issue m a).complete_ m a := by
  rw [repeatOp, hat]
  rfl

theorem repeatOp_of_next_layer (hat : s.atOp m cRepeat = some a) (hreload : s.isReload a.b.ctx = false)
    (h : s.layerNow a < s.groupLast a) : s.repeatOp m = (s.issue m a).goTo m a (bodyStart a.ops) (a.iter + 1) := by
  rw [repeatOp_eq hat, if_neg (by simp [hreload]), if_pos h]

theorem repeatOp_of_last_layer (hat : s.atOp m cRepeat = some a)
    (h : if s.isReload a.b.ctx then s.layerNow a = s.groupLast a else s.groupLast a ≤ s.layerNow a) :
    s.repeatOp m = (s.issue m a).complete_ m a := by
  rw [repeatOp_eq hat]
  split
  · next hreload =>
    rw [if_pos hreload] at h
    exact if_pos h
  · next hreload =>
    rw [if_neg hreload] at h
    exact if_neg (Nat.not_lt.2 h)

theorem repeatOp_of_reload (hat : s.atOp m cRepeat = some a) (hreload : s.isReload a.b.ctx = true) (h : s.layerNow a ≠ s.groupLast a) :
    s.repeatOp m = (s.issue m a).endPass m a.b := by
  rw [repeatOp_eq hat, if_pos hreload, if_neg h]

/-- The batch is released to the sampler (R179). -/
def releaseBatch (s : State) (b : Batch) : State :=
  { s with batches := s.batches.map (fun (y : Batch) => if y = b then { y with released := true } else y) }

@[simp] theorem stream_releaseBatch (s : State) (b : Batch) (m : Nat) : (s.releaseBatch b).stream m = s.stream m := rfl

theorem sampleOp_eq (hat : s.atOp m cSample = some a) : s.sampleOp m =
    if a.blk + 1 < ceilDiv (batchToks a.b) 1024 then (s.issue m a).complete_ m a
    else if a.b.swept then (s.issue m a).complete_ m a
    else if s.logitsPresent a.b then ((s.issue m a).releaseBatch a.b).waits m 6
    else (s.issue m a).waits m 6 := by
  rw [sampleOp, hat]
  rfl

theorem sampleOp_of_goes_on (hat : s.atOp m cSample = some a) (h : a.blk + 1 < ceilDiv (batchToks a.b) 1024 ∨ a.b.swept = true) :
    s.sampleOp m = (s.issue m a).complete_ m a := by
  rw [sampleOp_eq hat]
  split
  · rfl
  · next hlast => rw [if_pos (h.resolve_left hlast)]

theorem sampleOp_of_waits (hat : s.atOp m cSample = some a) (hlast : ceilDiv (batchToks a.b) 1024 ≤ a.blk + 1) (h : a.b.swept = false) :
    s.sampleOp m = if s.logitsPresent a.b then ((s.issue m a).releaseBatch a.b).waits m 6 else (s.issue m a).waits m 6 := by
  rw [sampleOp_eq hat, if_neg (Nat.not_lt.2 hlast), if_neg (by simp [h])]

/-! Operations that end where their last row is written: the class V operations, CHECK, EXPAND and GATHER. -/

/-- An operation comes to the completion of its stream's operation, after work that leaves the pass as it was. -/
def PassCompletes (s t : State) (m : Nat) (a : At) : Prop := ∃ u : State, t = u.complete_ m a ∧ u.passWork m = s.passWork m

theorem passCompletes_vectorOp {code : Nat} {slow : Nat} {f : State → At → Nat → Nat × Nat → List W32} (hat : s.atOp m code = some a) :
    PassCompletes s (s.vectorOp m code none slow f) m a := by
  rw [vectorOp, hat]
  dsimp only
  rw [readCheck, if_neg (atOperation_of_atOp hat).issue_running]
  refine ⟨_, rfl, ?_⟩
  rw [passWork_modStream, foldl_passWork fun s x => passWork_writeRow .., passWork_issue]

theorem passWork_log_corrected (s : State) (i : RecInfo) (m : Nat) : ((s.log .corrected i).countData).passWork m = s.passWork m := by
  obtain ⟨g, x, o, hlog, -⟩ := s.logOnly_frame .corrected i
  rw [log_mild s .corrected i (by decide), hlog]
  rfl

theorem passCompletes_checkOp (hat : s.atOp m cCheck = some a) : PassCompletes s (s.checkOp m none) m a := by
  rw [checkOp, hat]
  dsimp only
  rw [readCheck, if_neg (atOperation_of_atOp hat).issue_running]
  refine ⟨_, rfl, ?_⟩
  rw [foldl_passWork fun s x => passWork_log_corrected s _ m, passWork_issue]

theorem passCompletes_expand (hat : s.atOp m cExpand = some a) : PassCompletes s (s.expand m none) m a := by
  rw [expand, hat]
  dsimp only
  rw [readCheck, if_neg (atOperation_of_atOp hat).issue_running]
  refine ⟨_, rfl, ?_⟩
  rw [passWork_modStream _ m m fun x => by split <;> rfl]
  split
  · rw [passWork_hbmMoved, passWork_issue]
  · exact passWork_issue ..

theorem passWork_badToken (s : State) (m : Nat) (a : At) (k : Nat) : (s.badToken m a k).passWork m = s.passWork m := by
  have herr : ∀ c o, (s.modStream m (fun x => { x with errCause := c, errOp := o })).passWork m = s.passWork m := fun c o =>
    passWork_modStream s m m
  rw [badToken]
  split
  · exact herr ..
  · exact herr ..

theorem passCompletes_gather (hat : s.atOp m cGather = some a) : PassCompletes s (s.gather m none) m a := by
  rw [gather, hat]
  dsimp only
  rw [readCheck, if_neg (atOperation_of_atOp hat).issue_running]
  refine ⟨_, rfl, ?_⟩
  rw [foldl_passWork fun s x => ?_, passWork_issue]
  split
  · rw [passWork_badToken, passWork_writeRow]
  · split
    · rfl
    · rw [passWork_writeRow, passWork_hbmMoved]

/-! Rows written in reference mode (R172): what SPLICE writes is the same whatever the streams are. -/

/-- A change of the activation store and of the masts' counters alone, which is the same whatever the streams are. -/
structure WritesRows (f : State → State) : Prop where
  rows : ∀ (s : State) (v : Tab Stream), f { s with streams := v } = { s with
    streams := v
    store := (f s).store
    masts := (f s).masts }

theorem WritesRows.comp {f g : State → State} (hf : WritesRows f) (hg : WritesRows g) : WritesRows (fun s => g (f s)) := by
  refine ⟨fun s v => ?_⟩
  obtain ⟨rows, masts, hrows⟩ : ∃ rows masts, f s = { s with store := rows, masts := masts } := ⟨_, _, hf.rows s s.streams⟩
  have hnext := hg.rows (f s) v
  rw [hf.rows s v]
  rw [hrows] at hnext ⊢
  exact hnext

theorem WritesRows.foldl {α : Type} {g : State → α → State} (hg : ∀ x, WritesRows (g · x)) :
    ∀ l : List α, WritesRows (l.foldl g ·)
  | [] => ⟨fun _ _ => rfl⟩
  | x :: l => (hg x).comp (WritesRows.foldl hg l)

/-- What is written may come of what is read, where the reading does not go by the streams. -/
theorem WritesRows.of_read {β : Type} {read : State → β} {f : β → State → State}
    (hread : ∀ (s : State) (v : Tab Stream), read { s with streams := v } = read s) (hf : ∀ b, WritesRows (f b)) :
    WritesRows (fun s => f (read s) s) := by
  refine ⟨fun s v => ?_⟩
  rw [hread]
  exact (hf (read s)).rows s v

theorem WritesRows.ite {f g : State → State} (c : Prop) [Decidable c] (hf : WritesRows f) (hg : WritesRows g) :
    WritesRows (fun s => if c then f s else g s) := by
  by_cases h : c
  · simpa only [if_pos h] using hf
  · simpa only [if_neg h] using hg

theorem writesRows_putLines (m k rl t : Nat) (b : List Byte) (tag : W64) : WritesRows (·.putLines m k rl t b tag) :=
  .foldl (fun _ => ⟨fun _ _ => rfl⟩) _

theorem writesRows_writePart (m k w fmt t c : Nat) (l : List Nat) : WritesRows (·.writePart m k w fmt t c l) :=
  ⟨fun s v => (writesRows_putLines m k (rowLines w fmt) t _ 0).rows s v⟩

theorem writesRows_countVoid (m k : Nat) : WritesRows (·.countVoid m k) := ⟨fun _ _ => rfl⟩
theorem writesRows_countStage (m : Nat) (st : Stage) : WritesRows (·.countStage m st) := ⟨fun _ _ => rfl⟩
theorem writesRows_countOuts (m : Nat) (outs : List Conv) : WritesRows (·.countOuts m outs) := ⟨fun _ _ => rfl⟩

/-- PLY_MVM and SPLICE deliver into the activation store (R169, R170). -/
theorem writesRows_deliver (hop : opCode a.op ≠ cLogits) (m : Nat) (p : PlyPanel) (i t : Nat) (kj : Nat × Nat) (outs : List Nat)
    (nonfin void : Bool) (terms : Nat) : WritesRows (·.deliver m a p i t kj outs nonfin void terms) := by
  simp only [deliver, if_neg hop]
  refine .ite _ ?_ (writesRows_writePart ..)
  exact ⟨fun s v => (writesRows_putLines m (opDst a.op) 1 t _ _).rows s v⟩

theorem hbmRead_streams (s : State) (w : Tab Stream) (k : Nat) : ∀ l o, ({ s with streams := w } : State).hbmRead k o l = s.hbmRead k o l
  | 0, _ => rfl
  | l + 1, o => by
    rw [hbmRead, hbmRead, hbmRead_streams s w k l]
    rfl

theorem tensorBytes_streams (s : State) (w : Tab Stream) (c : Nat) (t : Tensor) :
    ({ s with streams := w } : State).tensorBytes c t = s.tensorBytes c t := by
  simp only [tensorBytes, regionRead, hbmRead_streams]
  rfl

theorem plyTensor_streams (s : State) (w : Tab Stream) (c : Nat) (p : PlyPanel) :
    ({ s with streams := w } : State).plyTensor c p = s.plyTensor c p := by
  have htensor : ({ s with streams := w } : State).tensorOf c p.tensor = s.tensorOf c p.tensor := rfl
  simp only [plyTensor, htensor, tensorBytes_streams]

theorem refToken_streams (s : State) (w : Tab Stream) (c : Nat) (p : PlyPanel) (x : List Ext) (step tau : Nat)
    (pins : List (W64 × List W32)) :
    ({ s with streams := w } : State).refToken c p x step tau pins = s.refToken c p x step tau pins := by
  simp only [refToken, plyTensor_streams]
  rfl

/-- What the tokens of a tile give in reference mode (R350). -/
def tileOuts (m : Nat) (a : At) (p : PlyPanel) (toks : List (Nat × Nat)) (s : State) : List ((Nat × Nat) × PlyOut) :=
  toks.map (fun x => (x, s.refToken a.b.ctx p (s.plyInput m a p x.2) a.b.step x.1 (s.plyPins m a p x.2)))

theorem tileOuts_streams (m : Nat) (a : At) (p : PlyPanel) (toks : List (Nat × Nat)) (s : State) (w : Tab Stream) :
    tileOuts m a p toks { s with streams := w } = tileOuts m a p toks s := by
  simp only [tileOuts, refToken_streams]
  rfl

/-- A token's result is counted, and written with its tile's flags (R98, R102, R103). -/
def writeOut (m : Nat) (a : At) (p : PlyPanel) (i : Nat) (nonfin void : Bool) (s : State) (x : (Nat × Nat) × PlyOut) : State :=
  ((s.countStage m x.2.stage).countOuts m x.2.outs).deliver m a p i x.1.2 ((blockToks a.b a.blk).getD x.1.2 (0, 0)) (x.2.outs.map (·.bits))
    nonfin void x.2.terms

/-- A void tile is counted (R103). -/
def countTile (m : Nat) (void : Bool) (s : State) : State := if void then s.countVoid m 1 else s

theorem spliceTile_eq (m : Nat) (a : At) (p : PlyPanel) (i : Nat) (s : State) (toks : List (Nat × Nat)) :
    spliceTile m a p i s toks = (tileOuts m a p toks s).foldl
      (writeOut m a p i ((tileOuts m a p toks s).any (·.2.nonfin)) ((tileOuts m a p toks s).any (·.2.void)))
      (countTile m ((tileOuts m a p toks s).any (·.2.void)) s) := rfl

theorem writesRows_countTile (m : Nat) (void : Bool) : WritesRows (countTile m void) := by
  cases void
  · exact ⟨fun _ _ => rfl⟩
  · exact writesRows_countVoid m 1

theorem writesRows_writeOut (hop : opCode a.op ≠ cLogits) (m : Nat) (p : PlyPanel) (i : Nat) (nonfin void : Bool)
    (x : (Nat × Nat) × PlyOut) : WritesRows (writeOut m a p i nonfin void · x) :=
  ((writesRows_countStage m x.2.stage).comp (writesRows_countOuts m x.2.outs)).comp (writesRows_deliver hop ..)

theorem writesRows_spliceTile (hop : opCode a.op ≠ cLogits) (m : Nat) (p : PlyPanel) (i : Nat) (toks : List (Nat × Nat)) :
    WritesRows (spliceTile m a p i · toks) := by
  simp only [spliceTile_eq]
  refine .of_read (f := fun outs s => outs.foldl (writeOut m a p i (outs.any (·.2.nonfin)) (outs.any (·.2.void)))
    (countTile m (outs.any (·.2.void)) s)) (tileOuts_streams m a p toks) fun outs => ?_
  exact (writesRows_countTile m _).comp (.foldl (writesRows_writeOut hop m p i _ _) outs)

/-- The tiles of a ply run in reference mode, in turn (R172). -/
def spliceTiles (m : Nat) (a : At) (p : PlyPanel) (i : Nat) (s : State) : State :=
  (eights (plyToks a).length (plyToks a)).foldl (spliceTile m a p i) s

theorem writesRows_spliceTiles (hop : opCode a.op ≠ cLogits) (m : Nat) (p : PlyPanel) (i : Nat) : WritesRows (spliceTiles m a p i) :=
  .foldl (writesRows_spliceTile hop m p i) _

/-- One-token jobs of the attention engines: the streams move, and mast m's is as busy as it was. -/
def JobsTaken (m : Nat) (s t : State) : Prop := StreamsMove s t ∧ (t.stream m).busy = (s.stream m).busy

theorem jobsTaken_spliceJob (s : State) (m k : Nat) : JobsTaken m s (s.spliceJob m k) := by
  rw [spliceJob]
  split
  · exact ⟨rfl, rfl⟩
  · dsimp only
    split
    · refine ⟨rfl, ?_⟩
      rw [stream_modStream, busyEngine, stream_modStream]
    · refine ⟨rfl, ?_⟩
      rw [busyEngine, stream_modStream]

/-- The tags of a ply's partial inputs name its feeders (R170). -/
def PinsFit (s : State) (m : Nat) (a : At) (p : PlyPanel) : Prop :=
  (plyToks a).all (fun x => ((s.plyPins m a p x.2).zip p.pins).all (fun q => tagFits q.1.1 q.2)) = true

theorem any_misfit_iff : (plyToks a).any (fun x => ((s.plyPins m a p x.2).zip p.pins).any (fun q => !tagFits q.1.1 q.2)) = true ↔
    ¬ s.PinsFit m a p := by
  simp [PinsFit]

theorem splicePly_of_fit (i : Nat) (h : s.PinsFit m a p) : ∃ t, JobsTaken m s t ∧ s.splicePly m a p i = spliceTiles m a p i t := by
  refine ⟨_, ?_, (if_neg fun hbad => any_misfit_iff.1 hbad h :)⟩
  exact foldl_frame (JobsTaken m) (fun _ => ⟨rfl, rfl⟩) (fun s t u hst htu => ⟨hst.1.trans htu.1, htu.2.trans hst.2⟩) _
    (fun s _ => jobsTaken_spliceJob ..) _ s

theorem splicePly_of_misfit (i : Nat) (h : ¬ s.PinsFit m a p) : s.splicePly m a p i = s.pinMismatch m a :=
  if_pos (any_misfit_iff.2 h)

/-! A partial input of another feeder halts the job (R182, R329, R339). -/

theorem log_jobFatal_of_running (h : s.integ.phase = 0) (i : RecInfo) : s.log .jobFatal i = (s.logOnly .jobFatal i).haltHere := by
  simp [log, escalates, sevAction, h]

/-- What a halt leaves of a stream (R187). -/
def haltedStream (x : Stream) : Stream := { x with
  busy := false
  started := false
  jobs := []
  engines := []
  splices := []
  left := []
  done := [] }

theorem haltHere_of_running (h : s.integ.phase = 0) : s.haltHere.integ.phase = 1 ∧ s.haltHere.integ.tail = s.integ.tail ∧
    s.haltHere.streams = tabMapAll {} (fun _ x => haltedStream x) s.streams := by
  obtain ⟨x, hsend⟩ := sendTree_frame (s.enterHalt (s.integ.epoch + 1) s.deviceId 1) s.deviceId pkHalt 1
  obtain ⟨d, y, hwork⟩ := s.haltWork_frame
  rw [haltHere, if_neg (not_not_intro h), hsend, enterHalt, hwork]
  exact ⟨rfl, rfl, rfl⟩

/-- A stream whose error has been recorded keeps its record through a halt. -/
theorem stream_haltHere (h : s.integ.phase = 0) (herr : (s.stream m).errCause ≠ 0) : s.haltHere.stream m = haltedStream (s.stream m) := by
  obtain ⟨-, -, hstreams⟩ := haltHere_of_running h
  rw [stream, hstreams]
  exact tabGet_tabMapAll rfl _ fun hnone => herr (congrArg Stream.errCause hnone)

/-- The job has halted for a PARTIAL_MISMATCH of operation `a`. -/
def MismatchHalted (s t : State) (m : Nat) (a : At) : Prop :=
  (t.stream m).errCause = 3 ∧ (t.stream m).errOp = BitVec.ofNat 16 a.num ∧ t.integ.tail = s.integ.tail + 1 ∧ t.integ.phase = 1

theorem mismatchHalted_pinMismatch (h : s.integ.phase = 0) : MismatchHalted s (s.pinMismatch m a) m a := by
  rw [pinMismatch]
  generalize hu : s.modStream m (fun x => { x with errCause := 3, errOp := BitVec.ofNat 16 a.num }) = u
  have hstream : u.stream m = { s.stream m with errCause := 3, errOp := BitVec.ofNat 16 a.num } := by rw [← hu, stream_modStream]
  have hinteg : u.integ = s.integ := by rw [← hu]; rfl
  rw [log_jobFatal_of_running (by rw [hinteg, h])]
  generalize hw : u.logOnly .jobFatal _ = w
  obtain ⟨g, x, o, hlog, -, hphase⟩ := u.logOnly_frame .jobFatal _
  have hkept : w.stream m = u.stream m := by rw [← hw, hlog]; rfl
  have hrun : w.integ.phase = 0 := by rw [← hw, hlog, hphase, hinteg, h]
  have htail : w.integ.tail = s.integ.tail + 1 := by rw [← hw, tail_logOnly, hinteg]
  obtain ⟨hhalt, htails, -⟩ := haltHere_of_running hrun
  have herr : (w.stream m).errCause ≠ 0 := by
    rw [hkept, hstream]
    exact (by decide : (3 : BitVec 4) ≠ 0)
  rw [MismatchHalted, stream_haltHere hrun herr, htails, htail, hkept, hstream]
  exact ⟨rfl, rfl, rfl, hhalt⟩

/-! A ply binds an accumulator (R108). -/

theorem freeAcc_lt (h : s.freeAcc m = some n) : n < 256 := List.mem_range.1 (List.mem_of_find?_eq_some h)

theorem acc_setAcc_ne {k : Nat} (s : State) (m : Nat) (x : Acc) (h : k ≠ n) : (s.setAcc m n x).acc m k = s.acc m k :=
  tabGet_tabSet_ne _ _ _ _ (by simp only [kAcc]; omega)

/-- The accumulator is bound to the ply for the operation. -/
structure BoundTo (x : Acc) (a : At) (p : PlyPanel) (arrays : List (List Nat)) : Prop where
  bound : x.bound = true
  todo : x.todo = plyToks a
  seed : x.seed = p.seed
  arrays : x.arrays = arrays
  op : x.op = a.num
  step : x.step = a.b.step
  ctx : x.ctx = a.b.ctx

/-- The records of a binding: what may change where a ply is bound, apart from its accumulator (R87, R171). -/
def LogsBinding (s t : State) : Prop := ∃ c g v o, t = { s with
  ctxs := c
  integ := g
  vecs := v
  out := o } ∧ g.phase = s.integ.phase

theorem LogsBinding.refl (s : State) : LogsBinding s s := ⟨_, _, _, _, rfl, rfl⟩

theorem LogsBinding.trans (h : LogsBinding s t) (k : LogsBinding t u) : LogsBinding s u := by
  obtain ⟨c, g, v, o, rfl, hphase⟩ := h
  obtain ⟨c', g', v', o', rfl, hphase'⟩ := k
  exact ⟨_, _, _, _, rfl, hphase'.trans hphase⟩

theorem logsBinding_logBinding (s : State) (c : Nat) (p : PlyPanel) (slot arr cause : Nat) :
    LogsBinding s (s.logBinding c p slot arr cause) := by
  rw [logBinding]
  split
  · exact .refl s
  · rw [log_mild _ .degraded _ (by decide)]
    obtain ⟨g, v, o, hlog, -, hphase⟩ := (s.modCtx c _).logOnly_frame .degraded _
    exact ⟨_, g, v, o, hlog, hphase⟩

theorem bindAcc_eq (s : State) (m n : Nat) (a : At) (p : PlyPanel) (arrays : List (List Nat)) :
    ∃ x t, BoundTo x a p arrays ∧ LogsBinding s t ∧ s.bindAcc m n a p arrays = t.setAcc m n x := by
  refine ⟨_, _, ⟨rfl, rfl, rfl, rfl, rfl, rfl, rfl⟩, ?_, rfl⟩
  refine foldl_frame LogsBinding .refl (fun _ _ _ => .trans) _ (fun s e => ?_) _ s
  split
  · exact logsBinding_logBinding ..
  · exact .refl s

/-- The accumulator of the running operation is among the operation's own. -/
theorem accsOf_setAcc_ne_nil {x : Acc} {arrays : List (List Nat)} (s : State) (hn : n < 256) (hx : BoundTo x a p arrays) :
    (s.setAcc m n x).accsOf m a ≠ [] := by
  have hlisted : x ≠ {} := fun h => by
    have hbound := hx.bound
    rw [h] at hbound
    cases hbound
  have hmast : kAcc m n / 256 = m := by rw [kAcc]; omega
  refine List.ne_nil_of_mem (List.mem_map_of_mem (mem_tabKeys_tabSet hlisted s.accs (kAcc m n) ?_))
  simp [hmast, hx.bound, hx.op, hx.step, hx.ctx]

/-! An operation's plies start, and settle: PLY_MVM, SPLICE and LOGITS of one ply. -/

/-- The plies that still wait are noted, and an operation whose plies have all run and drained completes. -/
def settlePlies (m : Nat) (a : At) (r : State × List Nat) : State :=
  (r.1.modStream m (fun x => { x with left := r.2, wait := if r.2.isEmpty then 0 else 2 })).pliesDone m a

theorem runPlies_of_first {code : Nat} (hat : s.atOp m code = some a) (hfirst : (s.stream m).started = false) (hcount : plyCount a = 1) :
    s.runPlies m code none = settlePlies m a ((s.issue m a).startPlies m a (decide (code = cSplice)) [0]) := by
  rw [runPlies, hat]
  dsimp only
  rw [hfirst, hcount, Bool.not_false, if_pos rfl, if_pos rfl, readCheck, if_neg (not_not_intro (atOperation_of_atOp hat).phase)]
  rfl

section

variable (hp : s.plyOf a.b.ctx m (plyFirst a) = some p)

include hp

theorem startPlies_splice : s.startPlies m a true [0] = (s.splicePly m a p 0, []) := by
  rw [startPlies, Nat.add_zero, hp]
  rfl

variable (harrays : (s.boundArrays a.b.ctx p).any (·.isEmpty) = false) (htoks : plyToks a ≠ []) (hreplay : a.b.replay = false)

include harrays htoks hreplay

theorem startPlies_bind (hfree : s.freeAcc m = some n) :
    s.startPlies m a false [0] = (s.bindAcc m n a p (s.boundArrays a.b.ctx p), []) := by
  rw [startPlies, Nat.add_zero, hp]
  simp [hreplay, harrays, htoks, hfree, startPlies]

theorem startPlies_wait (hfree : s.freeAcc m = none) : s.startPlies m a false [0] = (s, [0]) := by
  rw [startPlies, Nat.add_zero, hp]
  simp [hreplay, harrays, htoks, hfree]

end

theorem pliesDone_of_unfinished (h : (s.stream m).left ≠ [] ∨ s.accsOf m a ≠ []) : s.pliesDone m a = s := by
  rw [pliesDone]
  split
  · rfl
  · refine if_neg fun hdone => ?_
    obtain ⟨hleft, haccs⟩ := hdone
    exact h.elim (· (List.isEmpty_iff.1 hleft)) (· (List.isEmpty_iff.1 haccs))

theorem settlePlies_halted (l : List Nat) (h : s.integ.phase ≠ 0) : settlePlies m a (s, l) =
    s.modStream m (fun x => { x with left := l, wait := if l.isEmpty then 0 else 2 }) := if_pos h

theorem settlePlies_done (hrun : s.integ.phase = 0) (h : s.accsOf m a = []) :
    settlePlies m a (s, []) = (s.modStream m (fun x => { x with left := [], wait := 0 })).complete_ m a := by
  refine (if_neg (not_not_intro hrun)).trans (if_pos ⟨?_, List.isEmpty_iff.2 h⟩)
  rw [stream_modStream]
  rfl

theorem settlePlies_bound (h : s.accsOf m a ≠ []) :
    settlePlies m a (s, []) = s.modStream m (fun x => { x with left := [], wait := 0 }) :=
  pliesDone_of_unfinished (.inr h)

theorem settlePlies_waiting : settlePlies m a (s, [0]) = s.modStream m (fun x => { x with left := [0], wait := 2 }) :=
  pliesDone_of_unfinished (.inl (by rw [stream_modStream]; exact List.cons_ne_nil 0 []))

end State

/-! The commands. -/

section

open State

variable {s t u : State} {m n : Nat} {a : At} {p : PlyPanel} {i : Instr} {f : State → State}

/-- A command on the stream of mast m, which `f` gives its meaning. -/
def StreamCommand (i : Instr) (m : Nat) (f : State → State) : Prop := ∀ s, exec i s = act (okMast m && s.mastRuns m) s f

section

variable {P : State → Prop} (hi : StreamCommand i m f) (hm : m < 4) (hruns : s.mastRuns m = true)

include hi hm hruns

theorem completes_streamCommand (hp : P (s.keepBoot (f s))) : Completes i s P :=
  completes_act (hi s) (by simp [okMast, hm, hruns]) hp

theorem completes_of_keepBoot_eq (hf : f s = t) (hkeep : s.keepBoot t = t) (hp : P t) : Completes i s P :=
  completes_streamCommand hi hm hruns (by rw [hf, hkeep]; exact hp)

theorem completes_of_streamsMove (hf : f s = t) (ht : StreamsMove s t) (hp : P t) : Completes i s P :=
  completes_of_keepBoot_eq hi hm hruns hf ht.keepBoot_eq hp

/-- The form of a meaning keeps neither streams nor batches: a pass that the meaning ends has ended. -/
theorem completes_passEnded (hf : s.PassEnded (f s) m a) : Completes i s (fun t => s.PassEnded t m a) :=
  completes_streamCommand hi hm hruns hf

end

variable (hm : m < 4) (hruns : s.mastRuns m = true)

include hm hruns

/-! Plies. -/

section

variable {code : Nat} (hi : StreamCommand i m (·.runPlies m code none)) (hat : s.atOp m code = some a)
  (hfirst : (s.stream m).started = false) (hcount : plyCount a = 1) (hp : s.plyOf a.b.ctx m (plyFirst a) = some p)

include hi hat hfirst hcount hp

section

variable (hcode : code ≠ cSplice) (harrays : (s.boundArrays a.b.ctx p).any (·.isEmpty) = false) (htoks : plyToks a ≠ [])
  (hreplay : a.b.replay = false)

include hcode harrays htoks hreplay

theorem completes_plies_bind (hfree : s.freeAcc m = some n) : Completes i s (fun t =>
    (t.acc m n).bound = true ∧ (t.acc m n).todo = plyToks a ∧ (t.acc m n).seed = p.seed ∧
    (t.acc m n).arrays = s.boundArrays a.b.ctx p ∧ (∀ k, k ≠ n → t.acc m k = s.acc m k) ∧
    (t.stream m).started = true ∧ (t.stream m).pos = (s.stream m).pos ∧ t.store = s.store ∧ t.arrs = s.arrs) := by
  obtain ⟨x, u, hx, hlogs, hbind⟩ := (s.issue m a).bindAcc_eq m n a p ((s.issue m a).boundArrays a.b.ctx p)
  have hplies : s.runPlies m code none = (u.setAcc m n x).modStream m (fun x => { x with left := [], wait := 0 }) := by
    rw [runPlies_of_first hat hfirst hcount, decide_eq_false hcode,
      startPlies_bind (s := s.issue m a) hp harrays htoks hreplay hfree, hbind, settlePlies_bound (accsOf_setAcc_ne_nil u (freeAcc_lt hfree) hx)]
  obtain ⟨c, g, v, o, rfl, -⟩ := hlogs
  refine completes_streamCommand hi hm hruns ?_
  rw [hplies]
  generalize hu : ({ s.issue m a with ctxs := c, integ := g, vecs := v, out := o } : State) = u
  have hacc : ((u.setAcc m n x).modStream m (fun x => { x with left := [], wait := 0 })).acc m n = x := acc_setAcc ..
  have hstream : ((u.setAcc m n x).modStream m (fun x => { x with left := [], wait := 0 })).stream m =
      { (s.issue m a).stream m with left := [], wait := 0 } := by rw [stream_modStream, ← hu]; rfl
  rw [keepBoot_acc, hacc, keepBoot_stream, hstream, stream_issue]
  subst hu
  exact ⟨hx.bound, hx.todo, hx.seed, hx.arrays, fun k hk => acc_setAcc_ne _ m x hk, rfl, rfl, rfl, rfl⟩

theorem completes_plies_wait (hfree : s.freeAcc m = none) : Completes i s (fun t =>
    (t.stream m).started = true ∧ (t.stream m).wait = 2 ∧ (t.stream m).pos = (s.stream m).pos ∧ (t.stream m).left = [0] ∧
    t = { s with streams := t.streams }) := by
  have hplies : s.runPlies m code none = (s.issue m a).modStream m (fun x => { x with left := [0], wait := 2 }) := by
    rw [runPlies_of_first hat hfirst hcount, decide_eq_false hcode,
      startPlies_wait (s := s.issue m a) hp harrays htoks hreplay hfree, settlePlies_waiting]
  have hmove := (streamsMove_issue s m a).trans (streamsMove_modStream _ m (fun x => { x with left := [0], wait := 2 }))
  refine completes_of_streamsMove hi hm hruns hplies hmove ?_
  rw [stream_modStream, stream_issue]
  exact ⟨rfl, rfl, rfl, rfl, hmove⟩

end

variable (hcode : code = cSplice)

include hcode

theorem completes_splice_fit (haccs : s.accsOf m a = []) (hlt : a.pos + 1 < a.ops.length) (hfit : s.PinsFit m a p) :
    Completes i s (fun t => t.WentOn m a ∧ t.store = (spliceTiles m a p 0 s).store ∧ t = { s with
      store := t.store
      streams := t.streams
      masts := t.masts }) := by
  have hop := atOperation_of_atOp hat
  have hnotLogits : opCode a.op ≠ cLogits := by rw [hop.code, hcode]; decide
  obtain ⟨u, ⟨hmove, hbusy⟩, hsplice⟩ := splicePly_of_fit (s := s.issue m a) 0 hfit
  have hstreams : u = { s with streams := u.streams } := (streamsMove_issue s m a).trans hmove
  have htiles : spliceTiles m a p 0 u = { s with
      streams := u.streams
      store := (spliceTiles m a p 0 s).store
      masts := (spliceTiles m a p 0 s).masts } :=
    (congrArg _ hstreams).trans ((writesRows_spliceTiles hnotLogits m p 0).rows s u.streams)
  generalize hv : spliceTiles m a p 0 u = v at hsplice htiles
  have hplies : s.runPlies m code none = (v.modStream m (fun x => { x with left := [], wait := 0 })).complete_ m a := by
    rw [runPlies_of_first hat hfirst hcount, decide_eq_true hcode, startPlies_splice (s := s.issue m a) hp, hsplice,
      settlePlies_done (by rw [htiles]; exact hop.phase) (by rw [htiles]; exact haccs)]
  have hrunning : ((v.modStream m (fun x => { x with left := [], wait := 0 })).stream m).busy = true := by
    have hkept : v.stream m = u.stream m := by rw [htiles]; rfl
    rw [stream_modStream, hkept, hbusy, stream_issue]
    exact hop.busy
  have hgo := wentOn_complete hrunning hlt
  rw [complete_, goTo_of_lt _ m _ hlt, htiles] at hplies hgo
  exact completes_of_keepBoot_eq hi hm hruns hplies (keepBoot_of rfl rfl rfl rfl rfl rfl) ⟨hgo, rfl, rfl⟩

theorem completes_splice_misfit (hfit : ¬ s.PinsFit m a p) : Completes i s (fun t => MismatchHalted s t m a) := by
  have hop := atOperation_of_atOp hat
  obtain ⟨hcause, herr, htail, hphase⟩ := mismatchHalted_pinMismatch (s := s.issue m a) (m := m) (a := a) hop.phase
  have hplies : s.runPlies m code none = ((s.issue m a).pinMismatch m a).modStream m (fun x => { x with left := [], wait := 0 }) := by
    rw [runPlies_of_first hat hfirst hcount, decide_eq_true hcode, startPlies_splice (s := s.issue m a) hp,
      splicePly_of_misfit (s := s.issue m a) 0 hfit, settlePlies_halted _ (by rw [hphase]; decide)]
    rfl
  refine completes_streamCommand hi hm hruns ?_
  rw [hplies, MismatchHalted, keepBoot_stream, stream_modStream]
  exact ⟨hcause, herr, htail, hphase⟩

end

/-! BARRIER, REPEAT and SAMPLE. -/

theorem completes_barrier_open (hat : s.atOp m cBarrier = some a) (hlt : a.pos + 1 < a.ops.length) (h : s.BarrierOpen m a) :
    Completes (.barrier m) s (fun t => t.WentOn m a ∧ (t.stream m).bars = s.barsAt m ∧ t = { s with streams := t.streams }) := by
  have hmove := (streamsMove_atBarrier s m a).trans (streamsMove_goTo _ m a.iter hlt)
  refine completes_of_streamsMove (fun _ => rfl) hm hruns (barrier_of_open hat h) hmove ⟨wentOn_complete ?_ hlt, ?_, hmove⟩
  · rw [stream_atBarrier, stream_issue]
    exact (atOperation_of_atOp hat).busy
  · rw [complete_, goTo_of_lt _ m _ hlt, stream_modStream, stream_atBarrier]

theorem completes_barrier_closed (hat : s.atOp m cBarrier = some a) (h : ¬ s.BarrierOpen m a) :
    Completes (.barrier m) s (fun t => (t.stream m).wait = 5 ∧ (t.stream m).bars = s.barsAt m ∧ (t.stream m).pos = (s.stream m).pos ∧
      t = { s with streams := t.streams }) := by
  have hmove := (streamsMove_atBarrier s m a).trans (streamsMove_modStream _ m (fun x => { x with wait := 5 }))
  refine completes_of_streamsMove (fun _ => rfl) hm hruns (barrier_of_not_open hat h) hmove ?_
  rw [stream_waits, stream_atBarrier, stream_issue]
  exact ⟨rfl, rfl, rfl, hmove⟩

theorem completes_repeat_next (hat : s.atOp m cRepeat = some a) (hreload : s.isReload a.b.ctx = false)
    (h : s.layerNow a < s.groupLast a) (hbody : bodyStart a.ops < a.ops.length) : Completes (.repeatBody m) s (fun t =>
      (t.stream m).pos = bodyStart a.ops ∧ (t.stream m).iter = a.iter + 1 ∧ (t.stream m).started = false ∧
      t = { s with streams := t.streams }) := by
  have hmove := (streamsMove_issue s m a).trans (streamsMove_goTo _ m (a.iter + 1) hbody)
  refine completes_of_streamsMove (fun _ => rfl) hm hruns (repeatOp_of_next_layer hat hreload h) hmove ?_
  rw [goTo_of_lt _ m _ hbody] at hmove ⊢
  rw [stream_modStream]
  exact ⟨rfl, rfl, rfl, hmove⟩

/-- An operation that is only issued and completed lets its stream go on. -/
theorem completes_issued {code : Nat} (hi : StreamCommand i m f) (hat : s.atOp m code = some a) (hlt : a.pos + 1 < a.ops.length)
    (hf : f s = (s.issue m a).complete_ m a) : Completes i s (fun t => t.WentOn m a ∧ t = { s with streams := t.streams }) := by
  have hmove := (streamsMove_issue s m a).trans (streamsMove_goTo _ m a.iter hlt)
  refine completes_of_streamsMove hi hm hruns hf hmove ⟨wentOn_complete ?_ hlt, hmove⟩
  rw [stream_issue]
  exact (atOperation_of_atOp hat).busy

theorem completes_repeat_reload (hat : s.atOp m cRepeat = some a) (hreload : s.isReload a.b.ctx = true)
    (h : s.layerNow a ≠ s.groupLast a) : Completes (.repeatBody m) s (fun t => s.PassEnded t m a) := by
  refine completes_passEnded (f := (·.repeatOp m)) (fun _ => rfl) hm hruns ?_
  rw [repeatOp_of_reload hat hreload h]
  exact passEnded_endPass (atOperation_of_atOp hat).blk (passWork_issue s m a)

theorem completes_sample_waits (hat : s.atOp m cSample = some a) (hlast : ceilDiv (batchToks a.b) 1024 ≤ a.blk + 1)
    (hswept : a.b.swept = false) : Completes (.sample m) s (fun t =>
      (t.stream m).wait = 6 ∧ (t.stream m).started = true ∧ (t.stream m).pos = (s.stream m).pos ∧
      (if s.logitsPresent a.b then t.batches = s.batches.map (fun (y : Batch) => if y = a.b then { y with released := true } else y)
        else t.batches = s.batches) ∧
      t = { s with
        streams := t.streams
        batches := t.batches }) := by
  have hwaits := sampleOp_of_waits hat hlast hswept
  split at hwaits
  · next hlogits =>
    refine completes_of_keepBoot_eq (f := (·.sampleOp m)) (fun _ => rfl) hm hruns hwaits (keepBoot_of rfl rfl rfl rfl rfl rfl) ?_
    rw [stream_waits, stream_releaseBatch, stream_issue, if_pos hlogits]
    exact ⟨rfl, rfl, rfl, rfl, rfl⟩
  · next hmissing =>
    refine completes_of_keepBoot_eq (f := (·.sampleOp m)) (fun _ => rfl) hm hruns hwaits (keepBoot_of rfl rfl rfl rfl rfl rfl) ?_
    rw [stream_waits, stream_issue, if_neg hmissing]
    exact ⟨rfl, rfl, rfl, rfl, rfl⟩

/-! The last operation of a stream. -/

omit hm hruns in
/-- The operations that complete where their last row is written. -/
theorem passCompletes_rowOperations (m : Nat) : ∀ ci ∈ [(cNorm, Instr.norm m none 0), (cRope, .rope m none 0), (cAct, .act m none 0),
    (cAdd, .add m none), (cScale, .scale m none), (cCheck, .check m none), (cExpand, .expand m none), (cGather, .gather m none)],
    ∃ f, StreamCommand ci.2 m f ∧ ∀ s a, s.atOp m ci.1 = some a → PassCompletes s (f s) m a := by
  simp only [List.forall_mem_cons]
  exact ⟨⟨(·.norm m none 0), fun _ => rfl, fun _ _ => passCompletes_vectorOp⟩,
    ⟨(·.rope m none 0), fun _ => rfl, fun _ _ => passCompletes_vectorOp⟩,
    ⟨(·.act m none 0), fun _ => rfl, fun _ _ => passCompletes_vectorOp⟩,
    ⟨(·.addOp m none), fun _ => rfl, fun _ _ => passCompletes_vectorOp⟩,
    ⟨(·.scale m none), fun _ => rfl, fun _ _ => passCompletes_vectorOp⟩,
    ⟨(·.checkOp m none), fun _ => rfl, fun _ _ => passCompletes_checkOp⟩,
    ⟨(·.expand m none), fun _ => rfl, fun _ _ => passCompletes_expand⟩,
    ⟨(·.gather m none), fun _ => rfl, fun _ _ => passCompletes_gather⟩,
    List.forall_mem_nil _⟩

theorem completes_last {code : Nat} (hi : StreamCommand i m f) (hat : s.atOp m code = some a) (hlast : a.pos + 1 = a.ops.length)
    (hf : PassCompletes s (f s) m a) : Completes i s (fun t => s.PassEnded t m a) := by
  obtain ⟨u, hu, hwork⟩ := hf
  refine completes_passEnded hi hm hruns ?_
  rw [hu]
  exact passEnded_complete (atOperation_of_atOp hat).blk hwork hlast

omit hm hruns in
/-- PLY_MVM and LOGITS start their plies alike. -/
theorem streamCommand_plies (m : Nat) : ∀ ci ∈ [(cPlyMvm, Instr.plyMvm m none), (cLogits, .logits m none)],
    StreamCommand ci.2 m (·.runPlies m ci.1 none) ∧ ci.1 ≠ cSplice := by
  simp only [List.forall_mem_cons]
  exact ⟨⟨fun _ => rfl, by decide⟩, ⟨fun _ => rfl, by decide⟩, List.forall_mem_nil _⟩

end

/-- Settles O25: an operation's plies bind, wait or run in reference mode by what `startPlies` finds, where the rows of SPLICE do not go by the
streams that its jobs move; BARRIER, REPEAT and SAMPLE move streams alone, but for the batch released; and what comes before the completion of
a stream's last operation leaves alone what the end of a pass goes by. -/
theorem streamsStartAndTurn : Obligations.StreamsStartAndTurn := by
  refine ⟨fun s m a p hm hruns hfirst hcount hp => ⟨fun ci hci hat harrays htoks hreplay => ?_, fun hat _ haccs hlt => ?_⟩,
    fun s m a hm hruns hlt => ⟨fun hat => ?_, fun hat => ?_, fun hat => ?_⟩, fun s m a ci hm hruns hlast hci hat => ?_⟩
  · obtain ⟨hi, hcode⟩ := streamCommand_plies m ci hci
    exact ⟨fun n => completes_plies_bind hm hruns hi hat hfirst hcount hp hcode harrays htoks hreplay,
      completes_plies_wait hm hruns hi hat hfirst hcount hp hcode harrays htoks hreplay⟩
  · exact ⟨completes_splice_fit hm hruns (fun _ => rfl) hat hfirst hcount hp rfl haccs hlt,
      fun hmisfit => completes_splice_misfit hm hruns (fun _ => rfl) hat hfirst hcount hp rfl (by rw [State.PinsFit, hmisfit]; decide)⟩
  · exact ⟨completes_barrier_open hm hruns hat hlt, completes_barrier_closed hm hruns hat⟩
  · exact ⟨completes_repeat_next hm hruns hat,
      fun h => completes_issued hm hruns (fun _ => rfl) hat hlt (State.repeatOp_of_last_layer hat h),
      completes_repeat_reload hm hruns hat⟩
  · exact ⟨fun h => completes_issued hm hruns (fun _ => rfl) hat hlt (State.sampleOp_of_goes_on hat h),
      completes_sample_waits hm hruns hat⟩
  · obtain ⟨f, hi, hf⟩ := passCompletes_rowOperations m ci hci
    exact completes_last hm hruns hi hat hlast (hf s a hat)

end Sys2Proof.Machine

/-! Trim columns and trim sets (R121, R129, R130): a restore is a fold whose items are disjoint, so what stands at one place afterwards is what
its own item left there. -/

namespace Sys2Proof.Machine

section

variable {σ α : Type} {R : σ → σ → Prop} {f : σ → α → σ}

/-- A fold keeps what each of its items keeps. -/
theorem foldl_rel (hr : ∀ x, R x x) (ht : ∀ x y z, R x y → R y z → R x z) :
    ∀ {l : List α}, (∀ a ∈ l, ∀ x, R x (f x a)) → ∀ x, R x (l.foldl f x)
  | [], _, x => hr x
  | a :: _, h, x => ht _ _ _ (h a List.mem_cons_self x) (foldl_rel hr ht (fun b hb => h b (List.mem_cons_of_mem a hb)) (f x a))

/-- A fold reaches each of its items once: what every other item keeps is before that item as at the start, and at the end as after it. -/
theorem foldl_once (hr : ∀ x, R x x) (ht : ∀ x y z, R x y → R y z → R x z) {l : List α} (hl : l.Nodup) {b : α} (hb : b ∈ l)
    (h : ∀ a ∈ l, a ≠ b → ∀ x, R x (f x a)) (x : σ) : ∃ y, R x y ∧ R (f y b) (l.foldl f x) := by
  obtain ⟨before, after, rfl⟩ := List.append_of_mem hb
  obtain ⟨-, hcons, hbefore⟩ := List.nodup_append.1 hl
  obtain ⟨hafter, -⟩ := List.nodup_cons.1 hcons
  refine ⟨before.foldl f x, foldl_rel hr ht (fun a ha => ?_) x, ?_⟩
  · exact h a (List.mem_append_left _ ha) (hbefore a ha b List.mem_cons_self)
  · rw [List.foldl_append, List.foldl_cons]
    exact foldl_rel hr ht (fun a ha => h a (List.mem_append_right _ (List.mem_cons_of_mem b ha)) fun e => hafter (e ▸ ha)) _

/-- Two folds whose steps agree on the items are one. -/
theorem foldl_eq_of_step_eq {g : σ → α → σ} : ∀ {l : List α}, (∀ a ∈ l, ∀ x, f x a = g x a) → ∀ x, l.foldl f x = l.foldl g x
  | [], _, _ => rfl
  | a :: l, h, x => by
    rw [List.foldl_cons, List.foldl_cons, h a List.mem_cons_self]
    exact foldl_eq_of_step_eq (fun b hb => h b (List.mem_cons_of_mem a hb)) (g x a)

end

/-- A fold that takes some of its items and lists them is the fold over the items listed. -/
theorem foldl_listed {σ α : Type} (c : σ → α → Bool) (f : σ → α → σ) : ∀ (l : List α) (x : σ) (acc : List α),
    ∃ d : List α, d.Sublist l ∧ l.foldl (fun r a => if c r.1 a then (f r.1 a, r.2 ++ [a]) else r) (x, acc) = (d.foldl f x, acc ++ d)
  | [], x, acc => ⟨[], .slnil, by simp⟩
  | a :: l, x, acc => by
    rw [List.foldl_cons]
    by_cases h : c x a = true
    · obtain ⟨d, hd, he⟩ := foldl_listed c f l (f x a) (acc ++ [a])
      exact ⟨a :: d, hd.cons_cons a, by simp only [if_pos h, he, List.foldl_cons, List.append_assoc, List.singleton_append]⟩
    · obtain ⟨d, hd, he⟩ := foldl_listed c f l x acc
      exact ⟨d, hd.cons a, by simp only [if_neg h, he]⟩

/-! Masks of dies. -/

theorem mem_maskDies {w : W32} {i : Nat} : i ∈ maskDies w ↔ i < 32 ∧ w.getLsbD i = true := by
  simp [maskDies, upTo]

theorem nodup_maskDies (w : W32) : (maskDies w).Nodup := List.nodup_range.filter _

theorem getLsbD_diesMask {i : Nat} (hi : i < 32) (l : List Nat) : (diesMask l).getLsbD i = decide (i ∈ l) := by
  suffices h : ∀ w : W32, (l.foldl (fun w k => w ||| BitVec.ofNat 32 (2 ^ k)) w).getLsbD i = (w.getLsbD i || decide (i ∈ l)) by
    rw [diesMask, h]; simp
  induction l with
  | nil => simp
  | cons k l ih =>
    intro w
    rw [List.foldl_cons, ih, BitVec.getLsbD_or, BitVec.getLsbD_ofNat, Nat.testBit_two_pow]
    simp [hi, eq_comm, Bool.or_assoc]

/-- The mask of a list of dies names them. -/
theorem mem_maskDies_diesMask {l : List Nat} (h : ∀ i ∈ l, i < 32) {i : Nat} : i ∈ maskDies (diesMask l) ↔ i ∈ l := by
  rw [mem_maskDies]
  constructor
  · rintro ⟨hi, hbit⟩
    simpa [getLsbD_diesMask hi] using hbit
  · exact fun hi => ⟨h i hi, by simpa [getLsbD_diesMask (h i hi)] using hi⟩

namespace State

variable {s t u : State} {m p j : Nat}

/-! Outputs. -/

/-- An event on a vector, and so a cause, may send a message, and takes back nothing that has left. -/
theorem raise_out (s : State) (k : Nat) : ∃ o, (s.raise k).out = s.out ++ o := by
  simp only [raise]
  split
  · exact ⟨[], (List.append_nil _).symm⟩
  · split
    · exact ⟨[], (List.append_nil _).symm⟩
    · exact ⟨[.msix k], rfl⟩

theorem cause_out (s : State) (b : Nat) : ∃ o, (s.cause b).out = s.out ++ o := by
  simp only [cause]
  split
  · exact raise_out _ 3
  · exact ⟨[], (List.append_nil _).symm⟩

/-- A command's end sets its bit of MBX_GEN_CAUSE, and leaves all but the interrupt and what it sends as it was. -/
theorem cause_spec (s : State) (b : Nat) : ∃ v o, s.cause b = { s with
    genCause := s.genCause ||| BitVec.ofNat 11 (2 ^ b)
    vecs := v
    out := s.out ++ o } := by
  obtain ⟨v, o, hc⟩ := s.cause_frame b
  obtain ⟨o', ho⟩ := s.cause_out b
  refine ⟨v, o', ?_⟩
  rw [hc] at ho ⊢
  rw [← show o = s.out ++ o' from ho]

/-! Column words (R120, R121, R125). -/

theorem kArr_inj {k q : Nat} (hp : p < arrPerMast) (hq : q < arrPerMast) (h : kArr k q = kArr m p) : k = m ∧ q = p := by
  simp only [kArr, arrPerMast] at h hp hq
  omega

theorem kWord_inj {k q i : Nat} (hj : j < 1026) (hi : i < 1026) (h : kWord k q i = kWord m p j) : kArr k q = kArr m p ∧ i = j := by
  simp only [kWord] at h
  omega

@[simp] theorem colWord_setColWord (s : State) (m p j : Nat) (v : ColWord) : (s.setColWord m p j v).colWord m p j = v :=
  tabGet_tabSet_self ..

theorem colWord_setColWord_ne {k q i : Nat} (s : State) (v : ColWord) (h : kWord k q i ≠ kWord m p j) :
    (s.setColWord m p j v).colWord k q i = s.colWord k q i := tabGet_tabSet_ne _ _ _ _ h

theorem atrim_modAtrim_ne {k q : Nat} (s : State) (f : ArrTrim → ArrTrim) (h : kArr k q ≠ kArr m p) :
    (s.modAtrim m p f).atrim k q = s.atrim k q := tabGet_tabSet_ne _ _ _ _ h

/-- The word that a column's new value makes: the value waits while the array is ACTIVE and is in force otherwise. -/
def wordOf (s : State) (m p j : Nat) (v : ColVal) : ColWord :=
  if (s.arr m p).st = .active then { val := (s.colWord m p j).val, pend := some v } else { val := v }

theorem putCol'_eq (s : State) (m p j : Nat) (v : ColVal) : s.putCol' m p j v = s.setColWord m p j (s.wordOf m p j v) := by
  rw [putCol', wordOf]
  split <;> rfl

/-- Whether it waits or is in force, the value is the column's latest. -/
theorem latestCol_putCol' (s : State) (m p j : Nat) (v : ColVal) : (s.putCol' m p j v).latestCol m p j = v := by
  rw [putCol'_eq, latestCol, colWord_setColWord, wordOf]
  split <;> rfl

/-! TRIM_COL (R121, R140). -/

theorem cgOk_iff (n : Nat) : cgOk n = true ↔ 3670016 ≤ n ∧ n ≤ 5242880 := by
  rw [cgOk, Bool.and_eq_true, decide_eq_true_iff, decide_eq_true_iff]

/-! One word of a trim set (R130). -/

/-- From `s` to `t` column words and the records of arrays that trim keeps may have changed, and SKIPPED; nothing else of State has. -/
def RestoreTouches (s t : State) : Prop := t = { s with
  trim := { s.trim with skipped := t.trim.skipped }
  cols := t.cols
  trims := t.trims }

theorem RestoreTouches.refl (s : State) : RestoreTouches s s := rfl

theorem RestoreTouches.trans (s t u : State) (h : RestoreTouches s t) (k : RestoreTouches t u) : RestoreTouches s u := by
  unfold RestoreTouches at h k ⊢
  rw [h] at k
  exact k

/-- Column word j of array p of mast m and what trim keeps of the array stand, and SKIPPED is not cleared. -/
structure CellKept (m p j : Nat) (s t : State) : Prop where
  arrs : t.arrs = s.arrs
  word : t.colWord m p j = s.colWord m p j
  record : t.atrim m p = s.atrim m p
  skipped : s.trim.skipped = true → t.trim.skipped = true

theorem CellKept.refl (s : State) : CellKept m p j s s := ⟨rfl, rfl, rfl, id⟩

theorem CellKept.trans (s t u : State) (h : CellKept m p j s t) (k : CellKept m p j t u) : CellKept m p j s u :=
  ⟨k.arrs.trans h.arrs, k.word.trans h.word, k.record.trans h.record, k.skipped ∘ h.skipped⟩

theorem CellKept.arr_eq (h : CellKept m p j s t) (k q : Nat) : t.arr k q = s.arr k q := by rw [arr, h.arrs, arr]

theorem CellKept.physOf_eq (h : CellKept m p j s t) : t.physOf m p j = s.physOf m p j := by rw [physOf, h.word, physOf]

theorem CellKept.latestCol_eq (h : CellKept m p j s t) : t.latestCol m p j = s.latestCol m p j := by rw [latestCol, h.word, latestCol]

/-- R130: the word `w` of a set has been taken for column j, or skipped because its PCOL differs on a READY or ACTIVE array. -/
def WordTaken (s t : State) (m p j w : Nat) : Prop :=
  if restored (s.arr m p) = true ∧ bitsOf w 0 11 ≠ s.physOf m p j then t.colWord m p j = s.colWord m p j ∧ t.trim.skipped = true
  else (t.latestCol m p j).cg = BitVec.ofNat 24 (w >>> 40) ∧ (t.latestCol m p j).co = BitVec.ofNat 16 (w >>> 24)

theorem wordTaken_applyWord (s : State) (m p j w : Nat) : WordTaken s (s.applyWord m p j w) m p j w := by
  simp only [WordTaken, applyWord, Bool.and_eq_true, decide_eq_true_iff]
  split
  · exact ⟨rfl, rfl⟩
  · rw [latestCol_putCol']
    exact ⟨rfl, rfl⟩

/-- What stands from the start until a word is taken, and from then on, does not matter to whether it is. -/
theorem WordTaken.of_kept {w : Nat} {s' t' : State} (hs : CellKept m p j s s') (h : WordTaken s' t m p j w) (ht : CellKept m p j t t') :
    WordTaken s t' m p j w := by
  unfold WordTaken at h ⊢
  rw [hs.arr_eq, hs.physOf_eq, hs.word] at h
  rw [ht.word, ht.latestCol_eq]
  split
  · next hskip =>
    rw [if_pos hskip] at h
    exact ⟨h.1, ht.skipped h.2⟩
  · next hskip =>
    rw [if_neg hskip] at h
    exact h

theorem restoreTouches_applyWord (s : State) (m p j w : Nat) : RestoreTouches s (s.applyWord m p j w) := by
  simp only [applyWord, putCol'_eq]
  split <;> rfl

theorem restoreTouches_modAtrim (s : State) (m p : Nat) (f : ArrTrim → ArrTrim) : RestoreTouches s (s.modAtrim m p f) := rfl

theorem record_applyWord (s : State) (m p j w k q : Nat) : (s.applyWord m p j w).atrim k q = s.atrim k q := by
  simp only [applyWord, putCol'_eq]
  split <;> rfl

/-- Every other column word of the device is kept. -/
theorem cellKept_applyWord {k q i : Nat} (s : State) (w : Nat) (h : kWord k q i ≠ kWord m p j) : CellKept k q i s (s.applyWord m p j w) := by
  simp only [applyWord, putCol'_eq]
  split
  · exact ⟨rfl, rfl, rfl, fun _ => rfl⟩
  · exact ⟨rfl, s.colWord_setColWord_ne _ h, rfl, id⟩

theorem cellKept_modAtrim {k q : Nat} (s : State) (f : ArrTrim → ArrTrim) (h : kArr k q ≠ kArr m p) :
    CellKept k q j s (s.modAtrim m p f) := ⟨rfl, rfl, s.atrim_modAtrim_ne f h, id⟩

/-- A change of what trim keeps of an array does not touch the words taken. -/
theorem WordTaken.modAtrim {w : Nat} (h : WordTaken s t m p j w) (k q : Nat) (f : ArrTrim → ArrTrim) :
    WordTaken s (t.modAtrim k q f) m p j w := h

/-! One array record of a trim set (Table 6.7). -/

/-- Where column word j stands in an array record, the words in the order they are taken in. -/
def wordOffset (j : Nat) : Nat := if j = 1024 then 8 else if j = 1025 then 16 else 32 + 8 * j

def wordOrder : List Nat := 1024 :: 1025 :: upTo 1024

theorem mem_wordOrder : j ∈ wordOrder ↔ j < 1026 := by
  simp only [wordOrder, upTo, List.mem_cons, List.mem_range]
  omega

theorem nodup_wordOrder : wordOrder.Nodup := by
  simp [wordOrder, upTo, List.nodup_range]

/-- The words of an array record are taken. -/
def applyWords (s : State) (set : List Byte) (o m p : Nat) : State :=
  wordOrder.foldl (fun s j => s.applyWord m p j (leAt set (o + wordOffset j) 8)) s

/-- What trim keeps of the array, as its record has it (R130, R127). -/
def recordTaken (set : List Byte) (o : Nat) (x : ArrTrim) : ArrTrim := { x with
  stale := BitVec.ofNat 4 (leAt set (o + 2) 1)
  measSpan := BitVec.ofNat 4 (leAt set (o + 3) 1)
  measTemp := BitVec.ofNat 16 (leAt set (o + 4) 2)
  unusable := BitVec.ofNat 14 (16383 - leAt set (o + 6) 2 % 16384)
  measured := 0
  refSum := 0
  refCnt := 0
  fresh := true }

theorem applyTrim_eq (s : State) (set : List Byte) (o m p : Nat) :
    s.applyTrim set o m p = (s.applyWords set o m p).modAtrim m p (recordTaken set o) := by
  have hwords : ∀ s : State, (upTo 1024).foldl (fun s j => s.applyWord m p j (leAt set (o + 32 + 8 * j) 8)) s =
      (upTo 1024).foldl (fun s j => s.applyWord m p j (leAt set (o + wordOffset j) 8)) s :=
    foldl_eq_of_step_eq fun j hj t => by
      have hlt := List.mem_range.1 hj
      rw [wordOffset, if_neg (by omega), if_neg (by omega), Nat.add_assoc]
  rw [applyTrim, hwords, applyWords, wordOrder, List.foldl_cons, List.foldl_cons, show wordOffset 1024 = 8 from rfl,
    show wordOffset 1025 = 16 from rfl]
  rfl

theorem restoreTouches_applyTrim (s : State) (set : List Byte) (o m p : Nat) : RestoreTouches s (s.applyTrim set o m p) := by
  rw [applyTrim_eq]
  have hwords : RestoreTouches s (s.applyWords set o m p) :=
    foldl_rel .refl .trans (fun j _ t => t.restoreTouches_applyWord m p j _) s
  exact hwords.trans _ _ _ (restoreTouches_modAtrim ..)

/-- An array's record leaves every other array alone. -/
theorem cellKept_applyTrim {k q : Nat} (s : State) (set : List Byte) (o : Nat) (hj : j < 1026) (h : kArr k q ≠ kArr m p) :
    CellKept k q j s (s.applyTrim set o m p) := by
  rw [applyTrim_eq]
  have hwords : CellKept k q j s (s.applyWords set o m p) := foldl_rel .refl .trans
    (fun i hi t => t.cellKept_applyWord _ fun e => h (kWord_inj (mem_wordOrder.1 hi) hj e).1) s
  exact hwords.trans _ _ _ (cellKept_modAtrim _ _ h)

theorem record_applyWords (s : State) (set : List Byte) (o m p : Nat) : (s.applyWords set o m p).atrim m p = s.atrim m p :=
  foldl_keeps (fun t => t.atrim m p) (fun t j => t.record_applyWord m p j _ m p) wordOrder s

theorem record_applyTrim (s : State) (set : List Byte) (o m p : Nat) :
    (s.applyTrim set o m p).atrim m p = recordTaken set o (s.atrim m p) := by
  rw [applyTrim_eq, modAtrim, atrim_setAtrim, record_applyWords]

/-- Each word of an array's record is taken or skipped by what stood before the record. -/
theorem wordTaken_applyTrim (s : State) (set : List Byte) (o : Nat) (hj : j < 1026) :
    WordTaken s (s.applyTrim set o m p) m p j (leAt set (o + wordOffset j) 8) := by
  obtain ⟨t, hbefore, hafter⟩ := foldl_once (R := CellKept m p j) .refl .trans nodup_wordOrder (mem_wordOrder.2 hj)
    (f := fun s j => s.applyWord m p j (leAt set (o + wordOffset j) 8))
    (fun i hi hne t => t.cellKept_applyWord _ fun e => hne (kWord_inj (mem_wordOrder.1 hi) hj e).2.symm) s
  have hwords := (t.wordTaken_applyWord m p j _).of_kept hbefore hafter
  rw [applyTrim_eq]
  exact hwords.modAtrim ..

variable {k o : Nat} {set : List Byte}

/-! The dies of a trim set (R130, Table 6.7). -/

/-- Array p of mast m has taken its record, at byte o of the set: its word for column j, and what trim keeps of it. -/
structure RecordTaken (set : List Byte) (o m p j : Nat) (s t : State) : Prop where
  word : WordTaken s t m p j (leAt set (o + wordOffset j) 8)
  record : t.atrim m p = recordTaken set o (s.atrim m p)

theorem RecordTaken.of_kept {s' t' : State} (hs : CellKept m p j s s') (h : RecordTaken set o m p j s' t) (ht : CellKept m p j t t') :
    RecordTaken set o m p j s t' :=
  ⟨h.word.of_kept hs ht, by rw [ht.record, h.record, hs.record]⟩

theorem recordTaken_applyTrim (s : State) (set : List Byte) (o m p : Nat) (hj : j < 1026) :
    RecordTaken set o m p j s (s.applyTrim set o m p) :=
  ⟨s.wordTaken_applyTrim set o hj, s.record_applyTrim set o m p⟩

/-- What a record taken leaves of an array, read at the places of Table 6.7. -/
theorem RecordTaken.spec (h : ∀ j, j < 1026 → RecordTaken set o m p j s t) :
    (t.atrim m p).stale = BitVec.ofNat 4 (leAt set (o + 2) 1) ∧ (t.atrim m p).measSpan = BitVec.ofNat 4 (leAt set (o + 3) 1) ∧
    (t.atrim m p).measTemp = BitVec.ofNat 16 (leAt set (o + 4) 2) ∧ (t.atrim m p).measured = 0 ∧
    ∀ j, j < 1026 → WordTaken s t m p j (leAt set (o + wordOffset j) 8) := by
  rw [(h 0 (by decide)).record]
  exact ⟨rfl, rfl, rfl, rfl, fun j hj => (h j hj).word⟩

/-- The dies that a set records, and where the array records of a die begin. -/
def setDies (set : List Byte) : List Nat := maskDies (BitVec.ofNat 32 (leAt set 8 4))
def dieOffset (set : List Byte) (k : Nat) : Nat := 128 + ((setDies set).filter (fun j => decide (j < k))).length * 17895424

/-- The array records of a die are taken. -/
def applyDie (set : List Byte) (s : State) (k : Nat) : State :=
  (dieArrays k).foldl (fun s mp => s.applyTrim set (dieOffset set k + 8224 * (mp.2 % arrPerDie)) mp.1 mp.2) s

theorem mem_dieArrays {x : Nat × Nat} : x ∈ dieArrays k ↔ k = kDie x.1 (dieOf x.2) ∧ x.2 < arrPerMast := by
  obtain ⟨m, p⟩ := x
  simp only [dieArrays, upTo, List.mem_map, List.mem_range, Prod.mk.injEq, kDie, dieOf, arrPerDie, arrPerMast]
  constructor
  · rintro ⟨a, ha, rfl, rfl⟩
    omega
  · rintro ⟨rfl, hp⟩
    exact ⟨p % 2176, by omega, by omega, by omega⟩

theorem nodup_dieArrays (k : Nat) : (dieArrays k).Nodup :=
  List.Pairwise.map _ (fun _ _ hne h => hne (Nat.add_left_cancel (congrArg Prod.snd h))) List.nodup_range

theorem restoreTouches_applyDie (s : State) (set : List Byte) (k : Nat) : RestoreTouches s (s.applyDie set k) :=
  foldl_rel .refl .trans (fun x _ t => t.restoreTouches_applyTrim set _ x.1 x.2) s

/-- The records of one die leave the arrays of every other die alone. -/
theorem cellKept_applyDie (s : State) (set : List Byte) (hp : p < arrPerMast) (hj : j < 1026) (h : k ≠ kDie m (dieOf p)) :
    CellKept m p j s (s.applyDie set k) := by
  refine foldl_rel .refl .trans (fun x hx t => t.cellKept_applyTrim set _ hj fun e => h ?_) s
  obtain ⟨hk, hx⟩ := mem_dieArrays.1 hx
  obtain ⟨hm, hp⟩ := kArr_inj hx hp e
  rw [hk, hm, hp]

/-- Each array of a die takes its own record. -/
theorem recordTaken_applyDie (s : State) (set : List Byte) (hp : p < arrPerMast) (hj : j < 1026) (hk : k = kDie m (dieOf p)) :
    RecordTaken set (dieOffset set k + 8224 * (p % arrPerDie)) m p j s (s.applyDie set k) := by
  obtain ⟨t, hbefore, hafter⟩ := foldl_once (R := CellKept m p j) .refl .trans (nodup_dieArrays k)
    (mem_dieArrays.2 ⟨hk, hp⟩ : (m, p) ∈ _)
    (f := fun s mp => s.applyTrim set (dieOffset set k + 8224 * (mp.2 % arrPerDie)) mp.1 mp.2)
    (fun x hx hne t => t.cellKept_applyTrim set _ hj fun e =>
      have ⟨hm, hp⟩ := kArr_inj (mem_dieArrays.1 hx).2 hp e
      hne (Prod.ext hm.symm hp.symm)) s
  exact (t.recordTaken_applyTrim set _ m p hj).of_kept hbefore hafter

/-- The records of several dies are taken. -/
def applyDies (s : State) (set : List Byte) (dies : List Nat) : State := dies.foldl (applyDie set) s

theorem restoreTouches_applyDies (s : State) (set : List Byte) (dies : List Nat) : RestoreTouches s (s.applyDies set dies) :=
  foldl_rel .refl .trans (fun k _ t => t.restoreTouches_applyDie set k) s

theorem cellKept_applyDies {dies : List Nat} (s : State) (set : List Byte) (hp : p < arrPerMast) (hj : j < 1026)
    (h : kDie m (dieOf p) ∉ dies) : CellKept m p j s (s.applyDies set dies) :=
  foldl_rel .refl .trans (fun _ hk t => t.cellKept_applyDie set hp hj fun e => h (e ▸ hk)) s

theorem recordTaken_applyDies {dies : List Nat} (s : State) (set : List Byte) (hdies : dies.Nodup) (hp : p < arrPerMast) (hj : j < 1026)
    (hk : k = kDie m (dieOf p)) (h : k ∈ dies) :
    RecordTaken set (dieOffset set k + 8224 * (p % arrPerDie)) m p j s (s.applyDies set dies) := by
  obtain ⟨t, hbefore, hafter⟩ := foldl_once (R := CellKept m p j) .refl .trans hdies h (f := applyDie set)
    (fun i _ hne t => t.cellKept_applyDie set hp hj fun e => hne (e.trans hk.symm)) s
  exact (t.recordTaken_applyDie set hp hj hk).of_kept hbefore hafter

/-! Trim commands (R129, R130, R468). -/

theorem trimFinish_spec (s : State) (st : Byte) : ∃ v o, s.trimFinish st = { s with
    trim := { s.trim with busy := false, phase := 0, status := st }
    genCause := s.genCause ||| BitVec.ofNat 11 (2 ^ gTrim)
    vecs := v
    out := s.out ++ o } := cause_spec _ _

theorem trimRefuse_spec (s : State) (st : Byte) : ∃ v o, s.trimRefuse st = { s with
    trim := { s.trim with status := st }
    genCause := s.genCause ||| BitVec.ofNat 11 (2 ^ gTrim)
    vecs := v
    out := s.out ++ o } := cause_spec _ _

/-- R130: a set stands where its marker and version are those of a trim set and its first block passes. -/
def SetStands (set : List Byte) : Prop :=
  leAt set 0 4 = 0x5254574B ∧ leAt set 4 2 = 1 ∧ blockPasses set (128 + (setDies set).length * 17895424) 0 = true

theorem setStands_iff (set : List Byte) : (decide (leAt set 0 4 = 0x5254574B) && decide (leAt set 4 2 = 1) &&
    blockPasses set (128 + (setDies set).length * 17895424) 0) = true ↔ SetStands set := by
  rw [SetStands, Bool.and_eq_true, Bool.and_eq_true, decide_eq_true_iff, decide_eq_true_iff, and_assoc]

theorem not_setStands_nil : ¬ SetStands [] := by
  rintro ⟨hmarker, -⟩
  revert hmarker
  decide

theorem trimRestoreComplete_of_not_stands {set : Option (List Byte)} (hphase : s.trim.phase = 2) (h : ¬ SetStands (set.getD [])) :
    s.trimRestoreComplete set = s.trimFinish sTrimBadSet := by
  rw [trimRestoreComplete, if_neg (not_not_intro hphase)]
  have hbad := Bool.eq_false_iff.2 (mt (setStands_iff _).1 h)
  exact if_pos (congrArg not hbad)

/-- The end of a restore after a fold that has taken the records of the dies it lists. -/
def restoreEnd (s : State) (r : State × List Nat) : State :=
  ({ r.1 with trim := { r.1.trim with done := diesMask r.2 } } : State).trimFinish
    (if (maskDies s.trim.latchMask).all (fun k => r.2.contains k) then sOK else sTrimPartial)

theorem trimRestoreComplete_of_stands (hphase : s.trim.phase = 2) (h : SetStands set) : ∃ dies, dies.Sublist (setDies set) ∧
    s.trimRestoreComplete (some set) = ({ s.applyDies set dies with
      trim := { (s.applyDies set dies).trim with done := diesMask dies } } : State).trimFinish
        (if maskDies s.trim.latchMask ⊆ dies then sOK else sTrimPartial) := by
  have hstands : ¬ (!(decide (leAt set 0 4 = 0x5254574B) && decide (leAt set 4 2 = 1) &&
      blockPasses set (128 + (setDies set).length * 17895424) 0)) = true := by
    rw [(setStands_iff set).2 h]
    exact Bool.false_ne_true
  rw [trimRestoreComplete, if_neg (not_not_intro hphase)]
  obtain ⟨dies, hdies, hfold⟩ := foldl_listed
    (fun (t : State) k => dieRecordOk set (128 + (setDies set).length * 17895424) (dieOffset set k) 8224 arrPerDie && t.dieAccepts set k)
    (applyDie set) ((setDies set).filter (fun k => (maskDies s.trim.latchMask).contains k && !s.dieCal (k / 8) (k % 8))) s []
  refine ⟨dies, hdies.trans List.filter_sublist, (if_neg hstands).trans ((congrArg s.restoreEnd hfold).trans ?_)⟩
  have hall : ((maskDies s.trim.latchMask).all (fun k => dies.contains k)) = true ↔ maskDies s.trim.latchMask ⊆ dies := by
    simp [List.subset_def]
  simp only [restoreEnd, List.nil_append, hall]
  rfl

end State

/-! The commands of trim. -/

theorem exec_trimColWrite (v : W64) (s : State) : exec (.trimColWrite v) s = act s.hostMay s (·.trimColWrite v) := rfl

theorem exec_trimSave (s : State) : exec .trimSave s = act s.hostMay s State.trimSave := rfl

theorem exec_trimSaveComplete (s : State) : exec .trimSaveComplete s = act true s State.trimSaveComplete := rfl

theorem exec_trimRestore (s : State) : exec .trimRestore s = act s.hostMay s State.trimRestore := rfl

theorem exec_trimRestoreComplete (set : Option (List Byte)) (s : State) :
    exec (.trimRestoreComplete set) s = act true s (·.trimRestoreComplete set) := rfl

section

open State

variable {s t : State} {i : Instr} {ok : Bool} {f : State → State} {P : State → Prop}

/-- What a trim command may change: trim's registers, words and records, and the interrupt that ends it. -/
def State.TrimTouches (s t : State) : Prop := t = { s with
  trim := t.trim
  cols := t.cols
  trims := t.trims
  out := t.out
  vecs := t.vecs
  genCause := t.genCause }

/-- What a command of trim or of ageing may change: besides, the ageing registers, the masts' settings and the groups. -/
def State.UpkeepTouches (s t : State) : Prop := t = { s with
  trim := t.trim
  cols := t.cols
  trims := t.trims
  age := t.age
  masts := t.masts
  ageGrps := t.ageGrps
  out := t.out
  vecs := t.vecs
  genCause := t.genCause }

/-- A command of trim or of ageing completes with what its meaning makes. -/
theorem completes_upkeep (h : exec i s = act ok s f) (hok : ok = true) (hf : f s = t) (ht : s.UpkeepTouches t) (hp : P t) :
    Completes i s P := by
  subst hf
  refine completes_act h hok ?_
  rwa [keepBoot_of] <;> rw [ht]

/-- A write of TRIM_COL gives the word selected the CG and CO written, where the CG fits; the CO alone otherwise (log entry 91). -/
theorem completes_trimColWrite (v : W64) (hm : s.hostMay = true) (hsel : s.trimSelOk = true) :
    let m := s.trimMast
    let p := s.trimArr
    let j := s.trimWord
    let fits := 3670016 ≤ v.toNat >>> 40 ∧ v.toNat >>> 40 ≤ 5242880
    let w : ColVal := { s.latestCol m p j with
      cg := if fits then BitVec.ofNat 24 (v.toNat >>> 40) else (s.latestCol m p j).cg
      co := BitVec.ofNat 16 (v.toNat >>> 24) }
    Completes (.trimColWrite v) s (fun t => t.colWord m p j = s.wordOf m p j w ∧
      (∀ k q i, kWord k q i ≠ kWord m p j → t.colWord k q i = s.colWord k q i) ∧
      t = { s with
        cols := t.cols
        trim := { s.trim with wrRej := if fits then s.trim.wrRej else true } }) := by
  intro m p j fits w
  have hwrite : s.trimColWrite v = { s.setColWord m p j (s.wordOf m p j w) with
      trim := { s.trim with wrRej := if fits then s.trim.wrRej else true } } := by
    rw [trimColWrite, hsel]
    by_cases hfits : fits
    · have hcg : cgOk (v.toNat >>> 40) = true := (cgOk_iff _).2 hfits
      simp only [hcg, w, if_pos hfits, putCol'_eq]
      rfl
    · have hcg : cgOk (v.toNat >>> 40) = false := Bool.eq_false_iff.2 fun h => hfits ((cgOk_iff _).1 h)
      simp only [hcg, w, if_neg hfits, putCol'_eq]
      rfl
  exact completes_upkeep (exec_trimColWrite v s) hm hwrite rfl
    ⟨s.colWord_setColWord m p j _, fun _ _ _ hne => s.colWord_setColWord_ne _ hne, rfl⟩

theorem completes_trimColWrite_of_no_word (v : W64) (hm : s.hostMay = true) (hsel : s.trimSelOk = false) :
    Completes (.trimColWrite v) s (fun t => t = s) :=
  completes_upkeep (t := s) (exec_trimColWrite v s) hm (by rw [trimColWrite, hsel]; rfl) rfl rfl

/-- A trim command given while one runs completes with TRIM_BUSY, under its own code. -/
theorem completes_trim_busy (c : BitVec 4) (h : exec i s = act s.hostMay s f) (hm : s.hostMay = true)
    (hf : f s = (s.trimAccept c).trimRefuse sTrimBusy) : Completes i s (fun t =>
      t.trim = { s.trim with
        cmdLast := c
        status := sTrimBusy } ∧
      t = { s with
        trim := t.trim
        out := t.out
        vecs := t.vecs
        genCause := s.genCause ||| BitVec.ofNat 11 (2 ^ gTrim) }) := by
  obtain ⟨v, o, hend⟩ := (s.trimAccept c).trimRefuse_spec sTrimBusy
  exact completes_upkeep h hm (hf.trans hend) rfl ⟨rfl, rfl⟩

theorem completes_trimSaveComplete (hphase : s.trim.phase = 1) : Completes .trimSaveComplete s (fun t =>
    (∃ o, t.out = s.out ++ [.hostWrite s.trim.latchBuf.toNat (withCheckTable (s.trimSet s.trim.latchMask))] ++ o) ∧
    t.trim = { s.trim with
      busy := false
      phase := 0
      status := sOK
      done := s.trim.latchMask } ∧
    t = { s with
      trim := t.trim
      out := t.out
      vecs := t.vecs
      genCause := s.genCause ||| BitVec.ofNat 11 (2 ^ gTrim) }) := by
  obtain ⟨v, o, hend⟩ := trimFinish_spec { s.emit (.hostWrite s.trim.latchBuf.toNat (withCheckTable (s.trimSet s.trim.latchMask))) with
    trim := { s.trim with done := s.trim.latchMask } } sOK
  exact completes_upkeep (exec_trimSaveComplete s) rfl ((if_pos hphase).trans hend) rfl ⟨⟨o, rfl⟩, rfl, rfl⟩

/-- A set that does not stand, as the one that a link error leaves unread, completes with TRIM_BAD_SET alone. -/
theorem completes_trimRestoreComplete_of_not_stands {set : Option (List Byte)} (hphase : s.trim.phase = 2)
    (h : ¬ SetStands (set.getD [])) : Completes (.trimRestoreComplete set) s (fun t =>
      t.trim.status = sTrimBadSet ∧ t.trim.busy = false ∧ t.trim.phase = 0 ∧ t.cols = s.cols ∧ t.trims = s.trims ∧
      s.TrimTouches t) := by
  obtain ⟨v, o, hend⟩ := s.trimFinish_spec sTrimBadSet
  exact completes_upkeep (exec_trimRestoreComplete set s) rfl ((trimRestoreComplete_of_not_stands hphase h).trans hend) rfl
    ⟨rfl, rfl, rfl, rfl, rfl, rfl⟩

/-- A set that stands completes with the records of the dies that TRIM_DONE names taken, and those of no other die. -/
theorem completes_trimRestoreComplete_of_stands {set : List Byte} (hphase : s.trim.phase = 2) (h : SetStands set) :
    Completes (.trimRestoreComplete (some set)) s (fun t =>
      t.trim.busy = false ∧ t.trim.phase = 0 ∧
      t.trim.status = (if maskDies s.trim.latchMask ⊆ maskDies t.trim.done then sOK else sTrimPartial) ∧
      (∀ m p j, p < arrPerMast → j < 1026 → kDie m (dieOf p) ∈ maskDies t.trim.done →
        RecordTaken set (dieOffset set (kDie m (dieOf p)) + 8224 * (p % arrPerDie)) m p j s t) ∧
      (∀ m p j, p < arrPerMast → j < 1026 → kDie m (dieOf p) ∉ setDies set → CellKept m p j s t) ∧
      s.TrimTouches t) := by
  obtain ⟨dies, hdies, hrestore⟩ := trimRestoreComplete_of_stands hphase h
  have htouch := s.restoreTouches_applyDies set dies
  have htaken := fun m p j (hp : p < arrPerMast) (hj : j < 1026) =>
    s.recordTaken_applyDies (m := m) (dies := dies) set ((nodup_maskDies _).sublist hdies) hp hj rfl
  have hkept := fun m p j (hp : p < arrPerMast) (hj : j < 1026) (hk : kDie m (dieOf p) ∉ setDies set) =>
    s.cellKept_applyDies (dies := dies) set hp hj fun hmem => hk (hdies.subset hmem)
  generalize s.applyDies set dies = u at *
  obtain ⟨v, o, hend⟩ := trimFinish_spec { u with trim := { u.trim with done := diesMask dies } }
    (if maskDies s.trim.latchMask ⊆ dies then sOK else sTrimPartial)
  have hnames : ∀ k, k ∈ maskDies (diesMask dies) ↔ k ∈ dies := fun k =>
    mem_maskDies_diesMask fun i hi => (mem_maskDies.1 (hdies.subset hi)).1
  have hsubset : maskDies s.trim.latchMask ⊆ maskDies (diesMask dies) ↔ maskDies s.trim.latchMask ⊆ dies := by
    simp only [List.subset_def, hnames]
  refine completes_upkeep (exec_trimRestoreComplete _ s) rfl (hrestore.trans hend) (by rw [UpkeepTouches, htouch])
    ⟨rfl, rfl, ?_, fun m p j hp hj hk => ?_, fun m p j hp hj hk => ?_, by rw [TrimTouches, htouch]⟩
  · simp only [hsubset]
  · exact (htaken m p j hp hj ((hnames _).1 hk)).of_kept (.refl s) ⟨rfl, rfl, rfl, id⟩
  · exact (hkept m p j hp hj hk).trans _ _ _ ⟨rfl, rfl, rfl, id⟩

end

/-- Settles O22: a column's new value waits or is in force by the array's state; a restore that stands is a fold over dies, arrays and words
that each touch their own place, so what each word meets and leaves is what stood there before and what stands there at the end. -/
theorem trimColumnsAndSets : Obligations.TrimColumnsAndSets := by
  refine ⟨fun s v hm => ⟨completes_trimColWrite v hm, completes_trimColWrite_of_no_word v hm⟩,
    fun s => ⟨fun hm hidle => ⟨?_, ?_⟩, fun hm hbusy => ?_, completes_trimSaveComplete, fun hphase => ⟨?_, fun set => ?_⟩⟩⟩
  · have hsave : s.trimSave = _ := if_neg (by rw [State.trimAccept, hidle]; decide)
    exact completes_upkeep (exec_trimSave s) hm hsave rfl rfl
  · have hrestore : s.trimRestore = _ := if_neg (by rw [State.trimAccept, hidle]; decide)
    exact completes_upkeep (exec_trimRestore s) hm hrestore rfl rfl
  · simp only [List.forall_mem_cons]
    exact ⟨completes_trim_busy 1 (exec_trimSave s) hm (if_pos hbusy), completes_trim_busy 2 (exec_trimRestore s) hm (if_pos hbusy),
      List.forall_mem_nil _⟩
  · refine (completes_trimRestoreComplete_of_not_stands (set := none) hphase State.not_setStands_nil).mono ?_
    rintro t ⟨hstatus, hbusy, -, hcols, htrims, -⟩
    exact ⟨hstatus, hbusy, hcols, htrims⟩
  · by_cases hset : State.SetStands set
    · refine (completes_trimRestoreComplete_of_stands hphase hset).mono ?_
      rintro t ⟨hbusy, hph, hstatus, htaken, hkept, htouch⟩
      refine ⟨hbusy, hph, (if_pos hset).mpr ⟨hstatus, fun k hk a ha => ?_, fun m p j _ hp hj hdie => ?_⟩, htouch⟩
      · have hdie : dieOf (k % 8 * 2176 + a) = k % 8 := by simp only [dieOf, arrPerDie]; omega
        have hkDie : kDie (k / 8) (dieOf (k % 8 * 2176 + a)) = k := by rw [hdie, kDie]; omega
        have harr : (k % 8 * 2176 + a) % arrPerDie = a := by simp only [arrPerDie]; omega
        have hp : k % 8 * 2176 + a < arrPerMast := by simp only [arrPerMast]; omega
        have h := fun j hj => htaken (k / 8) _ j hp hj (hkDie.symm ▸ hk)
        rw [hkDie, harr] at h
        exact State.RecordTaken.spec h
      · have h := hkept m p j hp hj hdie
        exact ⟨h.word, h.record⟩
    · refine (completes_trimRestoreComplete_of_not_stands (set := some set) hphase hset).mono ?_
      rintro t ⟨hstatus, hbusy, hph, hcols, htrims, htouch⟩
      exact ⟨hbusy, hph, (if_neg hset).mpr ⟨hstatus, hcols, htrims⟩, htouch⟩

end Sys2Proof.Machine

/-! The ageing record and the lasers (R138, R139, R450). -/

namespace Sys2Proof.Machine

namespace State

variable {s t : State} {m g e : Nat} {r : List Byte}

/-! An ageing record is taken (Table 6.12). -/

theorem mast_modMast_ne {k : Nat} (s : State) (f : Mast → Mast) (h : k ≠ m) : (s.modMast m f).mast k = s.mast k :=
  tabGet_tabSet_ne _ _ _ _ h

@[simp] theorem ageGrp_setAgeGrp (s : State) (m g : Nat) (v : AgeGrp) : (s.setAgeGrp m g v).ageGrp m g = v := tabGet_tabSet_self ..

theorem ageGrp_setAgeGrp_ne {k i : Nat} (s : State) (v : AgeGrp) (h : kGrp k i ≠ kGrp m g) :
    (s.setAgeGrp m g v).ageGrp k i = s.ageGrp k i := tabGet_tabSet_ne _ _ _ _ h

/-- A mast's ageing setting, as the record has it. -/
def intervalTaken (r : List Byte) (m : Nat) (x : Mast) : Mast := { x with ageInt := BitVec.ofNat 2 (leAt r (24 + m) 1) }

/-- Group i of the record's order: what the record has of it, its Q4CYC cleared. -/
def groupTaken (r : List Byte) (i : Nat) (x : AgeGrp) : AgeGrp :=
  let w := leAt r (64 + 4 * i) 4
  { x with
    lmap := BitVec.ofNat 2 (bitsOf w 30 2)
    rung := BitVec.ofNat 2 (bitsOf w 28 2)
    leak := BitVec.ofNat 8 (bitsOf w 16 8)
    retired := BitVec.ofNat 8 (bitsOf w 0 8)
    hist := [] }

/-- The groups of the record, and the ageing settings, are taken. -/
def takeGroup (r : List Byte) (s : State) (i : Nat) : State :=
  s.setAgeGrp (i / 1024) (i % 1024) (groupTaken r i (s.ageGrp (i / 1024) (i % 1024)))
def takeGroups (r : List Byte) (s : State) : State := (upTo 4096).foldl (takeGroup r) s
def takeIntervals (r : List Byte) (s : State) : State := (upTo 4).foldl (fun s m => s.modMast m (intervalTaken r m)) s

theorem applyAge_eq (s : State) (r : List Byte) : s.applyAge r =
    takeGroups r (takeIntervals r { s with age := { s.age with epoch := BitVec.ofNat 64 (leAt r 8 8) } }) := rfl

theorem mast_takeIntervals (s : State) (r : List Byte) (hm : m < 4) : (takeIntervals r s).mast m = intervalTaken r m (s.mast m) := by
  obtain ⟨t, hbefore, hafter⟩ := foldl_once (R := fun s t : State => t.mast m = s.mast m) (fun _ => rfl) (fun _ _ _ h k => k.trans h)
    List.nodup_range (List.mem_range.2 hm) (f := fun s m => s.modMast m (intervalTaken r m))
    (fun k _ hne t => t.mast_modMast_ne _ hne.symm) s
  exact hafter.trans ((mast_setMast ..).trans (congrArg _ hbefore))

theorem ageGrp_takeGroups (s : State) (r : List Byte) (hm : m < 4) (hg : g < 1024) :
    (takeGroups r s).ageGrp m g = groupTaken r (1024 * m + g) (s.ageGrp m g) := by
  have hi : 1024 * m + g < 4096 := by omega
  have hmast : (1024 * m + g) / 1024 = m := by omega
  have hgroup : (1024 * m + g) % 1024 = g := by omega
  obtain ⟨t, hbefore, hafter⟩ := foldl_once (R := fun s t : State => t.ageGrp m g = s.ageGrp m g) (fun _ => rfl) (fun _ _ _ h k => k.trans h)
    List.nodup_range (List.mem_range.2 hi) (f := takeGroup r)
    (fun i _ hne t => t.ageGrp_setAgeGrp_ne _ (by simp only [kGrp]; omega)) s
  rw [takeGroup, hmast, hgroup, ageGrp_setAgeGrp, hbefore] at hafter
  exact hafter

/-- From `s` to `t` the masts and the ageing groups may have changed, and nothing else of State. -/
def AgeTaken (s t : State) : Prop := t = { s with
  masts := t.masts
  ageGrps := t.ageGrps }

theorem AgeTaken.refl (s : State) : AgeTaken s s := rfl

theorem AgeTaken.trans (s t u : State) (h : AgeTaken s t) (k : AgeTaken t u) : AgeTaken s u := by
  unfold AgeTaken at h k ⊢
  rw [h] at k
  exact k

theorem ageTaken_modMast (s : State) (m : Nat) (f : Mast → Mast) : AgeTaken s (s.modMast m f) := rfl

theorem ageTaken_takeGroup (s : State) (r : List Byte) (i : Nat) : AgeTaken s (takeGroup r s i) := rfl

theorem ageTaken_takeIntervals (s : State) (r : List Byte) : AgeTaken s (takeIntervals r s) :=
  foldl_rel AgeTaken.refl AgeTaken.trans (fun m _ t => t.ageTaken_modMast m (intervalTaken r m)) s

theorem ageTaken_takeGroups (s : State) (r : List Byte) : AgeTaken s (takeGroups r s) :=
  foldl_rel AgeTaken.refl AgeTaken.trans (fun i _ t => t.ageTaken_takeGroup r i) s

theorem masts_takeGroups (s : State) (r : List Byte) : (takeGroups r s).masts = s.masts :=
  foldl_keeps (f := takeGroup r) State.masts (fun _ _ => rfl) (upTo 4096) s

theorem ageGrps_takeIntervals (s : State) (r : List Byte) : (takeIntervals r s).ageGrps = s.ageGrps :=
  foldl_keeps (f := fun s m => s.modMast m (intervalTaken r m)) State.ageGrps (fun _ _ => rfl) (upTo 4) s

/-- A record that is taken is what comes of the ageing epoch and of the banks of masts and groups, and nothing else changes. -/
theorem applyAge_spec (s : State) (r : List Byte) : ∃ masts groups, s.applyAge r = { s with
      age := { s.age with epoch := BitVec.ofNat 64 (leAt r 8 8) }
      masts := masts
      ageGrps := groups } ∧
    (∀ m, m < 4 → tabGet {} masts m = intervalTaken r m (s.mast m)) ∧
    ∀ m g, m < 4 → g < 1024 → tabGet {} groups (kGrp m g) = groupTaken r (1024 * m + g) (s.ageGrp m g) := by
  rw [applyAge_eq]
  generalize hs : ({ s with age := { s.age with epoch := BitVec.ofNat 64 (leAt r 8 8) } } : State) = u
  refine ⟨(takeIntervals r u).masts, (takeGroups r (takeIntervals r u)).ageGrps, ?_, fun m hm => ?_, fun m g hm hg => ?_⟩
  · have hframe := (ageTaken_takeIntervals u r).trans _ _ _ (ageTaken_takeGroups _ r)
    rw [AgeTaken, masts_takeGroups] at hframe
    rw [hframe, ← hs]
  · rw [← mast, mast_takeIntervals _ r hm, ← hs]
    rfl
  · rw [← ageGrp, ageGrp_takeGroups _ r hm hg, ageGrp, ageGrps_takeIntervals, ← hs]
    rfl

/-! Ageing commands (R138). -/

theorem ageRefuse_spec (s : State) (st : Byte) : ∃ v o, s.ageRefuse st = { s with
    age := { s.age with status := st }
    genCause := s.genCause ||| BitVec.ofNat 11 (2 ^ gAge)
    vecs := v
    out := s.out ++ o } := cause_spec _ _

/-- AGE_RESTORE is taken: no ageing command runs, and no array is ACTIVE or WRITING. -/
def AgeIdle (s : State) : Prop := s.age.busy = false ∧
  ∀ m, m < 4 → s.arrsOf m (fun a => decide (a.st = .active) || decide (a.st = .writing)) = []

theorem ageIdle_iff (s : State) : (s.age.busy || (upTo 4).any (fun m =>
    !(s.arrsOf m (fun a => decide (a.st = .active) || decide (a.st = .writing))).isEmpty)) = false ↔ s.AgeIdle := by
  simp only [AgeIdle, upTo, Bool.or_eq_false_iff, List.any_eq_false, List.mem_range, Bool.not_eq_true, Bool.not_eq_false', List.isEmpty_iff]

/-- AGE_RESTORE with its code taken. -/
def ageAccept (s : State) : State := { s with age := { s.age with cmdLast := 2 } }

theorem ageRestore_of_not_idle (r : Option (List Byte)) (h : ¬ s.AgeIdle) : s.ageRestore r = s.ageAccept.ageRefuse sAgeBusy :=
  if_pos (Bool.not_eq_false _ ▸ fun hbusy => h ((ageIdle_iff s).1 hbusy))

theorem ageRestore_of_idle (r : Option (List Byte)) (h : s.AgeIdle) : s.ageRestore r =
    if ageRecordOk (r.getD []) = true then (s.ageAccept.applyAge (r.getD [])).ageRefuse sOK else s.ageAccept.ageRefuse sAgeBadSet := by
  refine (if_neg (Bool.not_eq_true _ ▸ (ageIdle_iff s).2 h)).trans ?_
  cases ageRecordOk (r.getD [])
  · exact (if_pos rfl).trans (if_neg Bool.false_ne_true).symm
  · exact (if_neg Bool.false_ne_true).trans (if_pos rfl).symm

theorem ageRecordOk_nil : ageRecordOk [] = false := by
  rw [ageRecordOk, show leAt [] 0 4 = 0 from rfl]
  rfl

/-! Lasers. -/

theorem laser_setLaser_ne {k : Nat} (s : State) (v : Bool × W16) (h : k ≠ e) : (s.setLaser e v).laser k = s.laser k :=
  tabGet_tabSet_ne _ _ _ _ h

/-- From `s` to `t` laser e has come to `v`, and the log has grown to `tail`. -/
structure LaserSet (s : State) (e : Nat) (v : Bool × W16) (tail : W32) (t : State) : Prop where
  laser : t.laser e = v
  tail : t.integ.tail = tail
  others : ∀ k, k ≠ e → t.laser k = s.laser k
  job : t.integ.jobState = s.integ.jobState
  frame : t = { s with
    lasers := t.lasers
    integ := t.integ
    vecs := t.vecs
    out := t.out }

theorem laserSet_setLaser (s : State) (e : Nat) (v : Bool × W16) : LaserSet s e v s.integ.tail (s.setLaser e v) :=
  ⟨laser_setLaser .., rfl, fun _ hne => s.laser_setLaser_ne v hne, rfl, rfl⟩

/-- The laser's event is one record of the log, severity DEGRADED. -/
theorem laserSet_logged (s : State) (e : Nat) (v : Bool × W16) (i : RecInfo) :
    LaserSet s e v (s.integ.tail + 1) ((s.setLaser e v).log .degraded i) := by
  have htail := (s.setLaser e v).tail_logOnly .degraded i
  obtain ⟨g, x, o, hlog, hjob, -⟩ := (s.setLaser e v).logOnly_frame .degraded i
  rw [log_mild _ .degraded i (by decide)]
  rw [hlog] at htail ⊢
  exact ⟨laser_setLaser .., htail, fun _ hne => s.laser_setLaser_ne v hne, hjob, rfl⟩

theorem laserSet_laserWarn (s : State) (e : Nat) (bias : W16) :
    LaserSet s e (true, if (s.laser e).2 = 1000 then 1000 else if 1000 ≤ bias.toNat then 999 else bias)
      (if (s.laser e).1 then s.integ.tail else s.integ.tail + 1) (s.laserWarn e bias) := by
  rw [laserWarn]
  cases (s.laser e).1
  · rw [if_neg Bool.false_ne_true, if_neg Bool.false_ne_true]
    exact laserSet_logged ..
  · exact laserSet_setLaser ..

theorem laserSet_laserEnd (h : (s.laser e).2 ≠ 1000) : LaserSet s e ((s.laser e).1, 1000) (s.integ.tail + 1) (s.laserEnd e) := by
  rw [laserEnd, if_neg h]
  exact laserSet_logged ..

theorem LaserSet.keepBoot_eq {v : Bool × W16} {tail : W32} (h : LaserSet s e v tail t) : s.keepBoot t = t :=
  State.keepBoot_eq (by rw [h.frame]) (by rw [h.frame]) (by rw [h.frame]) (by rw [h.frame]) h.job (by rw [h.frame]) (by rw [h.frame])
    (by rw [h.frame])

end State

/-! The commands of ageing, and the events of lasers. -/

theorem exec_ageSave (s : State) : exec .ageSave s = act s.hostMay s State.ageSave := rfl

theorem exec_ageRestore (r : Option (List Byte)) (s : State) : exec (.ageRestore r) s = act s.hostMay s (·.ageRestore r) := rfl

theorem exec_laserWarn (e : Nat) (bias : W16) (s : State) : exec (.laserWarn e bias) s = act (okEngine e) s (·.laserWarn e bias) := rfl

theorem exec_laserEndOfLife (e : Nat) (s : State) : exec (.laserEndOfLife e) s = act (okEngine e) s (·.laserEnd e) := rfl

section

open State

variable {s t : State} {i : Instr} {ok : Bool} {f : State → State} {P : State → Prop}

theorem completes_ageSave (hm : s.hostMay = true) : Completes .ageSave s (fun t =>
    (∃ o, t.out = s.out ++ [.hostWrite s.age.buf.toNat (withCheckTable s.ageRecord)] ++ o) ∧
    t.age = { s.age with
      cmdLast := 1
      status := sOK } ∧
    t = { s with
      age := t.age
      out := t.out
      vecs := t.vecs
      genCause := s.genCause ||| BitVec.ofNat 11 (2 ^ gAge) }) := by
  obtain ⟨v, o, hend⟩ := ageRefuse_spec ({ s with age := { s.age with cmdLast := 1 } }.emit
    (.hostWrite s.age.buf.toNat (withCheckTable s.ageRecord))) sOK
  exact completes_upkeep (exec_ageSave s) hm hend rfl ⟨⟨o, rfl⟩, rfl, rfl⟩

/-- An AGE_RESTORE that takes nothing of a record ends with its status, and nothing else of ageing changes. -/
theorem completes_ageRestore_refused {r : Option (List Byte)} {st : Byte} (hm : s.hostMay = true)
    (hf : s.ageRestore r = s.ageAccept.ageRefuse st) : Completes (.ageRestore r) s (fun t =>
      t.age = { s.age with
        cmdLast := 2
        status := st } ∧
      t = { s with
        age := t.age
        out := t.out
        vecs := t.vecs
        genCause := s.genCause ||| BitVec.ofNat 11 (2 ^ gAge) }) := by
  obtain ⟨v, o, hend⟩ := s.ageAccept.ageRefuse_spec st
  exact completes_upkeep (exec_ageRestore r s) hm (hf.trans hend) rfl ⟨rfl, rfl⟩

/-- A record that stands is taken whole. -/
theorem completes_ageRestore_taken {r : List Byte} (hm : s.hostMay = true) (hidle : s.AgeIdle) (hok : ageRecordOk r = true) :
    Completes (.ageRestore (some r)) s (fun t =>
      t.age = { s.age with
        cmdLast := 2
        epoch := BitVec.ofNat 64 (leAt r 8 8)
        status := sOK } ∧
      (∀ m, m < 4 → t.mast m = intervalTaken r m (s.mast m)) ∧
      (∀ m g, m < 4 → g < 1024 → t.ageGrp m g = groupTaken r (1024 * m + g) (s.ageGrp m g)) ∧
      t = { s with
        age := t.age
        masts := t.masts
        ageGrps := t.ageGrps
        out := t.out
        vecs := t.vecs
        genCause := s.genCause ||| BitVec.ofNat 11 (2 ^ gAge) }) := by
  obtain ⟨masts, groups, htaken, hmasts, hgroups⟩ := s.ageAccept.applyAge_spec r
  have hrestore := (ageRestore_of_idle (some r) hidle).trans (if_pos hok)
  obtain ⟨v, o, hend⟩ := (s.ageAccept.applyAge r).ageRefuse_spec sOK
  have hf := hrestore.trans hend
  rw [htaken] at hf
  exact completes_upkeep (exec_ageRestore _ s) hm hf rfl ⟨rfl, hmasts, hgroups, rfl⟩

theorem completes_laser {e : Nat} {v : Bool × W16} {tail : W32} (h : exec i s = act (okEngine e) s f) (he : e < 9)
    (hset : LaserSet s e v tail (f s)) : Completes i s (fun t => t.laser e = v ∧ t.integ.tail = tail ∧
      (∀ k, k ≠ e → t.laser k = s.laser k) ∧
      t = { s with
        lasers := t.lasers
        integ := t.integ
        vecs := t.vecs
        out := t.out }) :=
  completes_act h (decide_eq_true he) (by rw [hset.keepBoot_eq]; exact ⟨hset.laser, hset.tail, hset.others, hset.frame⟩)

end

/-- Settles O23: a record that stands is a fold over masts and groups, each taking its own place; a laser's event writes that laser, and one
record of the log where the laser had not come so far before. A bias of 1,000 or more is held at 999 by the model's own choice (log entry
137). -/
theorem ageingAndLasers : Obligations.AgeingAndLasers := by
  refine ⟨fun s hm => ⟨completes_ageSave hm, fun hidle r => ?_, fun r hr => ?_⟩,
    fun s e he => ⟨fun bias => ?_, fun hbias => ?_, fun hbias => ?_⟩⟩
  · cases hok : State.ageRecordOk r
    · have hbad := completes_ageRestore_refused hm ((State.ageRestore_of_idle (some r) hidle).trans (if_neg (Bool.not_eq_true _ ▸ hok)))
      refine hbad.mono ?_
      rintro t ⟨hage, hframe⟩
      refine ⟨(if_neg Bool.false_ne_true).mpr ⟨hage, ?_, ?_⟩, ?_⟩ <;> rw [hframe]
    · refine (completes_ageRestore_taken hm hidle hok).mono ?_
      rintro t ⟨hage, hmasts, hgroups, hframe⟩
      exact ⟨(if_pos rfl).mpr ⟨hage, hmasts, hgroups⟩, hframe⟩
  · refine completes_ageRestore_refused hm ?_
    split
    · next h =>
      obtain ⟨rfl, hidle⟩ := h
      exact (State.ageRestore_of_idle none hidle).trans (if_neg (Bool.not_eq_true _ ▸ State.ageRecordOk_nil))
    · next h =>
      exact State.ageRestore_of_not_idle r fun hidle => hr.elim (fun hnone => h ⟨hnone.2, hidle⟩) (fun hbusy => hbusy hidle)
  · exact completes_laser (exec_laserWarn e bias s) he (s.laserSet_laserWarn e bias)
  · exact completes_laser (exec_laserEndOfLife e s) he (State.laserSet_laserEnd hbias)
  · exact completes_upkeep (t := s) (exec_laserEndOfLife e s) (decide_eq_true he) (if_pos hbias) rfl rfl

end Sys2Proof.Machine

/-! The sail plan (R144, R154, R157, R160): a LOAD ends in one way, whatever ends it, and what a commit releases leaves the plan's registers
alone until the commit writes them itself. -/

namespace Sys2Proof.Machine

namespace State

variable (s : State)

/-! What a commit releases (R157, order 2). -/

@[simp] theorem sail_cause (b : Nat) : (s.cause b).sail = s.sail := by
  obtain ⟨v, o, hcause⟩ := s.cause_spec b
  rw [hcause]

theorem sail_setCtx (c : Nat) (x : Ctx) : (s.setCtx c x).sail = s.sail := rfl

@[simp] theorem sail_unref (p : Nat) : (s.unref p).sail = s.sail := by
  simp only [unref]
  repeat' split
  all_goals rfl

@[simp] theorem sail_freeTables (i : Nat) : (s.freeTables i).sail = s.sail := by
  have hpages := foldl_keeps State.sail (fun u (ep : Nat × Nat) => u.sail_unref (ep.2 - 1)) (s.tbl i).pages s
  simp only [freeTables]
  split <;> exact hpages

@[simp] theorem sail_rplFinish (st : Byte) : (s.rplFinish st).sail = s.sail := sail_cause ..

theorem sail_rplFree : s.rplFree.sail = s.sail := by
  simp only [rplFree]
  exact s.sail_freeTables rplKey

@[simp] theorem sail_rplAbortCtx (c : Nat) : (s.rplAbortCtx c).sail = s.sail := by
  have hnow : s.rplAbortNow.sail = s.sail := by
    simp only [rplAbortNow]
    split
    · exact (sail_rplFinish _ _).trans s.sail_rplFree
    · split
      · exact s.sail_rplFinish _
      · rfl
  simp only [rplAbortCtx]
  split
  · split
    · exact hnow
    · rfl
  · rfl

@[simp] theorem sail_endWload (c : Nat) (st : Byte) : (s.endWload c st).sail = s.sail := by
  simp only [endWload]
  split
  · rfl
  · exact sail_cause ..

@[simp] theorem sail_pfxFinish (st : Byte) : (s.pfxFinish st).sail = s.sail := sail_cause ..

@[simp] theorem sail_arrFinish (m p : Nat) (st : Byte) : (s.arrFinish m p st).sail = s.sail := by
  simp only [arrFinish]
  split
  · exact sail_cause ..
  · rfl

@[simp] theorem sail_discardArr (m p : Nat) : (s.discardArr m p).sail = s.sail := by
  suffices hend : (s.endWrite m p).sail = s.sail from hend
  simp only [endWrite]
  split
  · exact sail_arrFinish ..
  · rfl

/-- Emptying a slot of learned prefixes writes its frames' descriptors and the slot, of which its count of users stays. -/
theorem pfxFree_spec (c x : Nat) : ∃ d, s.pfxFree c x = { s with
    pdescs := d
    prefixes := tabSet {} s.prefixes (c * 4096 + x) { users := (s.pfx c x).users } } := by
  let step (u : State) (ep : Nat × Nat) := u.setPdesc (ep.2 - 1) (if (u.pdesc (ep.2 - 1)).lost then { lost := true } else {})
  have hfold : ∃ d, (s.pfx c x).pages.foldl step s = { s with pdescs := d } :=
    foldl_frame (fun s t => ∃ d, t = { s with pdescs := d }) (fun _ => ⟨_, rfl⟩)
      (by rintro s t u ⟨d, rfl⟩ ⟨e, rfl⟩; exact ⟨e, rfl⟩) step (fun _ _ => ⟨_, rfl⟩) _ s
  obtain ⟨d, hd⟩ := hfold
  exact ⟨d, congrArg (fun u : State => u.setPfx c x { users := (s.pfx c x).users }) hd⟩

@[simp] theorem sail_pfxFree (c x : Nat) : (s.pfxFree c x).sail = s.sail := by
  obtain ⟨d, hfree⟩ := s.pfxFree_spec c x
  rw [hfree]

/-- The replay, the WLOAD and the KV_PFX command of a context that a commit releases end. -/
def endJobs (c : Nat) : State :=
  let s := (s.rplAbortCtx c).endWload c sWloadAborted
  match s.kv.pfxJob with
  | some j => if j.ctx = c then s.pfxFinish sCtxAbsent else s
  | none => s

/-- Its arrays leave their slots. -/
def releaseArrays (c : Nat) : State := (upTo 4).foldl (fun s m =>
  (s.arrsOf m (fun a => decide (a.slot.map (·.ctx) = some c))).foldl (fun s p => s.discardArr m p) s) s

/-- Its slots of learned prefixes are emptied. -/
def releaseSlots (c : Nat) : State := (tabKeys s.prefixes (fun k _ => decide (k / 4096 = c))).foldl
  (fun s k => (s.pfxFree c (k % 4096)).setPfx c (k % 4096) {}) s

theorem sail_endJobs (c : Nat) : (s.endJobs c).sail = s.sail := by
  have hwork : ((s.rplAbortCtx c).endWload c sWloadAborted).sail = s.sail := by simp
  simp only [endJobs]
  split
  · split
    · exact (sail_pfxFinish ..).trans hwork
    · exact hwork
  · exact hwork

theorem sail_releaseArrays (c : Nat) : (s.releaseArrays c).sail = s.sail :=
  foldl_keeps State.sail (fun u m => foldl_keeps State.sail (fun u p => u.sail_discardArr m p) _ u) _ s

theorem sail_releaseSlots (c : Nat) : (s.releaseSlots c).sail = s.sail :=
  foldl_keeps State.sail (f := fun (u : State) k => (u.pfxFree c (k % 4096)).setPfx c (k % 4096) {})
    (fun u k => u.sail_pfxFree c (k % 4096)) _ s

/-- What a context holds is released without a change of the plan's registers. -/
theorem sail_releaseCtx (c : Nat) : (s.releaseCtx c).sail = s.sail := by
  have hall : (((s.endJobs c).releaseArrays c).releaseSlots c).sail = s.sail :=
    (sail_releaseSlots _ c).trans ((sail_releaseArrays _ c).trans (s.sail_endJobs c))
  simp only [releaseCtx]
  split
  · rfl
  · exact (sail_setCtx _ c _).trans hall

/-- A commit puts its plan in force under the next generation, with its build tag and its digest (Table 7.9). -/
theorem commitPlan_inForce (f : PlanForm) (b : List Byte) : (s.commitPlan f b).sail.inForce = true ∧
    (s.commitPlan f b).sail.gen = s.sail.gen + 1 ∧ (s.commitPlan f b).sail.tag = BitVec.ofNat 64 f.buildTag ∧
    (s.commitPlan f b).sail.digest = shakeDigest b := by
  have hreleased := foldl_keeps State.sail (f := releaseCtx) sail_releaseCtx (maskCtxs (f.mask ||| f.remove)) s
  refine ⟨rfl, ?_, rfl, rfl⟩
  simp only [commitPlan]
  split <;> rw [← hreleased]

/-! The end of a LOAD (Tables 7.8, 7.10). -/

/-- The registers of the plan once a LOAD has ended with a status, and SAIL_ERR tells of `e`. -/
def sailEnded (x : Sail) (st : Byte) (e : SailFail) : Sail := { x with
  busy := false
  step := 0
  job := none
  status := st
  errStep := BitVec.ofNat 4 e.step
  errDetail := BitVec.ofNat 8 e.detail
  errOffset := BitVec.ofNat 32 e.offset }

/-- From `s` a command of the plan has come to the registers `x` of it, and to its interrupt. -/
def SailAnswers (x : Sail) (t : State) : Prop := ∃ v o, t = { s with
  sail := x
  genCause := s.genCause ||| BitVec.ofNat 11 (2 ^ gSail)
  vecs := v
  out := s.out ++ o }

theorem sailAnswers_cause (x : Sail) : s.SailAnswers x (({ s with sail := x } : State).cause gSail) := cause_spec ..

theorem sailAnswers_sailFinish (x : Sail) (st : Byte) (e : SailFail) :
    s.SailAnswers (sailEnded x st e) (({ s with sail := x } : State).sailFinish st (some e)) := s.sailAnswers_cause (sailEnded x st e)

theorem getLsbD_gSail (c : BitVec 11) : (c ||| BitVec.ofNat 11 (2 ^ gSail)).getLsbD 0 = true := by simp [gSail]

/-! What the commands come to. -/

variable {s} {j : LoadJob} {named : List Nat} {l : List Byte}

theorem sailLoad_taken (hidle : s.sail.busy = false) (hsrc : s.sail.src.toNat % 4096 = 0)
    (hmin : 256 ≤ s.sail.len.toNat) (hmax : s.sail.len.toNat ≤ 16777216) : s.sailLoad named = { s with sail := { s.sail with
      busy := true
      step := 3
      job := some ⟨s.sail.src, s.sail.len.toNat, named⟩ } } := by
  have hfits : ¬(s.sail.src.toNat % 4096 ≠ 0 ∨ s.sail.len.toNat < 256 ∨ 16777216 < s.sail.len.toNat) := by omega
  rw [sailLoad, hidle]
  exact if_neg hfits

theorem sailAnswers_sailLoad_badConfig (hidle : s.sail.busy = false)
    (hbad : s.sail.src.toNat % 4096 ≠ 0 ∨ s.sail.len.toNat < 256 ∨ 16777216 < s.sail.len.toNat) :
    s.SailAnswers (sailEnded s.sail sBadConfig { step := 2, status := sBadConfig }) (s.sailLoad named) := by
  have hload : s.sailLoad named = s.sailFinish sBadConfig (some { step := 2, status := sBadConfig }) := by
    rw [sailLoad, hidle]
    exact if_pos hbad
  rw [hload]
  exact sailAnswers_sailFinish ..

theorem sailAnswers_sailLoad_busy (hbusy : s.sail.busy = true) : s.SailAnswers { s.sail with
    status := sSailBusy
    errStep := 1
    errDetail := 0
    errOffset := 0 } (s.sailLoad named) := by
  rw [sailLoad, if_pos hbusy]
  exact sailAnswers_cause ..

theorem sailAnswers_sailPlanRead_none (hj : s.sail.job = some j) :
    s.SailAnswers (sailEnded s.sail sSailAborted { step := 3, status := sSailAborted }) (s.sailPlanRead none) := by
  rw [sailPlanRead, hj]
  exact sailAnswers_sailFinish ..

/-- A plan that fails ends its LOAD with the failure's status; SAIL_PROG_ERR is the one other register that may change. -/
theorem sailAnswers_sailPlanRead_error {e : SailFail} (hj : s.sail.job = some j)
    (hbad : s.validate (slice l 0 j.len) j.len false = .error e) :
    ∃ w, s.SailAnswers (sailEnded { s.sail with progErr := w } e.status e) (s.sailPlanRead (some l)) := by
  simp only [sailPlanRead, hj, hbad]
  split
  · exact ⟨_, sailAnswers_sailFinish ..⟩
  · split
    · exact ⟨_, sailAnswers_sailFinish ..⟩
    · exact ⟨s.sail.progErr, sailAnswers_sailFinish ..⟩

theorem sailPlanRead_ok {f : PlanForm} (hj : s.sail.job = some j) (hok : s.validate (slice l 0 j.len) j.len false = .ok f) :
    s.sailPlanRead (some l) =
      (({ s with sail := { s.sail with progErr := 0 } } : State).commitPlan f (slice l 0 j.len)).sailFinish sOK none := by
  simp only [sailPlanRead, hj, hok]

theorem sailAnswers_sailAbort_running (hbusy : s.sail.busy = true) : s.SailAnswers
    (sailEnded s.sail sSailAborted { step := s.sail.step.toNat, status := sSailAborted }) s.sailAbort := by
  rw [sailAbort, if_pos hbusy]
  exact sailAnswers_sailFinish ..

theorem sailAnswers_sailAbort_idle (hidle : s.sail.busy = false) : s.SailAnswers { s.sail with status := sOK } s.sailAbort := by
  rw [sailAbort, hidle]
  exact sailAnswers_cause ..

/-- The form of a meaning lets the operator key be written while it is not locked. -/
theorem keepBoot_sail_of_open (hopen : s.sail.locked = false) (x : Sail) : s.keepBoot { s with sail := x } = { s with sail := x } := by
  have hself : s.keepBoot s = s := keepBoot_of rfl rfl rfl rfl rfl rfl
  calc s.keepBoot { s with sail := x }
      = { s.keepBoot s with sail := { x with
          opkey := if s.sail.locked then s.sail.opkey else x.opkey
          locked := s.sail.locked || x.locked } } := rfl
    _ = { s with sail := x } := by rw [hself, hopen]; rfl

end State

/-! The commands of the sail plan. -/

theorem exec_sailOpkeyWrite (n : Nat) (v : W64) (s : State) : exec (.sailOpkeyWrite n v) s =
    act (decide (n < 4) && s.hostMay) s (fun s => if s.link.bound then s.opkeyWrite n v else s.bar2Reject 0) := rfl

theorem exec_sailLoad (named : List Nat) (s : State) : exec (.sailLoad named) s = act s.hostMay s (·.sailLoad named) := rfl

theorem exec_sailPlanRead (bytes : Option (List Byte)) (s : State) :
    exec (.sailPlanRead bytes) s = act true s (·.sailPlanRead bytes) := rfl

theorem exec_sailAbort (s : State) : exec .sailAbort s = act s.hostMay s State.sailAbort := rfl

section

open State

variable {s t : State} {i : Instr} {ok : Bool} {f : State → State} {P : State → Prop} {n : Nat} {v : W64}

/-- A command whose meaning makes `t` completes with `t`, where `t` has what the form of a meaning keeps. -/
theorem completes_kept (h : exec i s = act ok s f) (hok : ok = true) (hf : f s = t) (hkeep : s.keepBoot t = t) (hp : P t) :
    Completes i s P := completes_act h hok (by rwa [hf, hkeep])

/-- A command that answers through the plan's registers and leaves the operator key as it is completes with that answer. -/
theorem completes_sailAnswers {x : Sail} (h : exec i s = act ok s f) (hok : ok = true) (hf : s.SailAnswers x (f s))
    (hkey : x.opkey = s.sail.opkey) (hlocked : x.locked = s.sail.locked) : Completes i s (s.SailAnswers x) := by
  refine completes_kept h hok rfl ?_ hf
  obtain ⟨v, o, hf⟩ := hf
  rw [hf]
  exact State.keepBoot_eq rfl rfl hkey hlocked rfl rfl rfl rfl

/-! SAIL_OPKEY (R144, R388). -/

theorem completes_sailOpkeyWrite_open (hok : (decide (n < 4) && s.hostMay) = true) (hbound : s.link.bound = true)
    (hopen : s.sail.locked = false) : Completes (.sailOpkeyWrite n v) s (fun t => t = { s with sail := { s.sail with
      opkey := s.sail.opkey.set n v
      locked := decide (n = 3) } }) := by
  have hwrite : s.opkeyWrite n v = _ := if_neg (Bool.not_eq_true _ ▸ hopen)
  exact completes_kept (exec_sailOpkeyWrite n v s) hok ((if_pos hbound).trans hwrite) (keepBoot_sail_of_open hopen _) rfl

theorem completes_sailOpkeyWrite_locked (hok : (decide (n < 4) && s.hostMay) = true) (hbound : s.link.bound = true)
    (hlocked : s.sail.locked = true) : Completes (.sailOpkeyWrite n v) s (fun t => t = s) :=
  completes_kept (exec_sailOpkeyWrite n v s) hok ((if_pos hbound).trans (if_pos hlocked)) (keepBoot_of rfl rfl rfl rfl rfl rfl) rfl

theorem completes_sailOpkeyWrite_unbound (hok : (decide (n < 4) && s.hostMay) = true) (hbound : s.link.bound = false) :
    Completes (.sailOpkeyWrite n v) s (fun t => t = { s with link := { s.link with secRej := satAdd s.link.secRej 1 } }) :=
  completes_kept (exec_sailOpkeyWrite n v s) hok (if_neg (Bool.not_eq_true _ ▸ hbound)) (keepBoot_of rfl rfl rfl rfl rfl rfl) rfl

/-- A plan that passes every step is in force once its LOAD has ended. -/
theorem completes_sailPlanRead_ok {l : List Byte} {j : LoadJob} {f : PlanForm} (hj : s.sail.job = some j)
    (hok : s.validate (slice l 0 j.len) j.len false = .ok f) : Completes (.sailPlanRead (some l)) s (fun t =>
      t.sail.busy = false ∧ t.sail.job = none ∧ t.sail.status = sOK ∧ t.sail.inForce = true ∧ t.sail.gen = s.sail.gen + 1 ∧
      t.sail.tag = BitVec.ofNat 64 f.buildTag ∧ t.sail.digest = shakeDigest (slice l 0 j.len)) := by
  refine completes_act (exec_sailPlanRead _ s) rfl ?_
  obtain ⟨hforce, hgen, htag, hdigest⟩ :=
    State.commitPlan_inForce { s with sail := { s.sail with progErr := 0 } } f (slice l 0 j.len)
  rw [sailPlanRead_ok hj hok]
  generalize State.commitPlan _ f _ = u at *
  obtain ⟨v, o, hend⟩ := u.sailAnswers_cause (sailEnded u.sail sOK { step := 0, status := sOK })
  rw [show u.sailFinish sOK none = _ from hend]
  exact ⟨rfl, rfl, rfl, hforce, hgen, htag, hdigest⟩

end

/-- Settles O24: a LOAD is taken or answered by what R160 asks of it in order, and its end is one answer whatever ends it; a plan that stands
is in force by what its commit writes last, since nothing that the commit releases touches the plan's generation. -/
theorem planAndOperatorKey : Obligations.PlanAndOperatorKey := by
  refine ⟨fun s i v hi hm => ?_, fun s => ⟨fun named hm => ⟨fun hidle hsrc hmin hmax => ?_, fun hidle hbad => ?_, fun hbusy => ?_⟩,
    fun j hj => ⟨?_, fun bytes => ?_⟩, fun hm => ⟨fun hbusy => ?_, fun hidle => ?_⟩⟩⟩
  · have hok : (decide (i < 4) && s.hostMay) = true := by rw [hm, decide_eq_true hi, Bool.true_and]
    exact ⟨completes_sailOpkeyWrite_open hok, completes_sailOpkeyWrite_locked hok, completes_sailOpkeyWrite_unbound hok⟩
  · exact completes_kept (exec_sailLoad named s) hm (State.sailLoad_taken hidle hsrc hmin hmax)
      (State.keepBoot_eq rfl rfl rfl rfl rfl rfl rfl rfl) rfl
  · refine (completes_sailAnswers (exec_sailLoad named s) hm (State.sailAnswers_sailLoad_badConfig hidle hbad) rfl rfl).mono ?_
    rintro t ⟨v, o, rfl⟩
    exact ⟨rfl, rfl, rfl, State.getLsbD_gSail _, rfl⟩
  · refine (completes_sailAnswers (exec_sailLoad named s) hm (State.sailAnswers_sailLoad_busy hbusy) rfl rfl).mono ?_
    rintro t ⟨v, o, rfl⟩
    exact ⟨rfl, State.getLsbD_gSail _, rfl⟩
  · refine (completes_sailAnswers (exec_sailPlanRead none s) rfl (State.sailAnswers_sailPlanRead_none hj) rfl rfl).mono ?_
    rintro t ⟨v, o, rfl⟩
    exact ⟨rfl, rfl, rfl, rfl, rfl, rfl, rfl, rfl, rfl⟩
  · cases hv : s.validate (slice bytes 0 j.len) j.len false with
    | ok f => exact completes_sailPlanRead_ok hj hv
    | error e =>
      obtain ⟨w, hread⟩ := State.sailAnswers_sailPlanRead_error hj hv
      refine (completes_sailAnswers (exec_sailPlanRead _ s) rfl hread rfl rfl).mono ?_
      rintro t ⟨v, o, rfl⟩
      exact ⟨rfl, rfl, rfl, rfl, rfl, rfl, rfl, rfl, rfl, rfl⟩
  · refine (completes_sailAnswers (exec_sailAbort s) hm (State.sailAnswers_sailAbort_running hbusy) rfl rfl).mono ?_
    rintro t ⟨v, o, rfl⟩
    exact ⟨rfl, rfl, rfl, rfl, rfl, rfl⟩
  · refine (completes_sailAnswers (exec_sailAbort s) hm (State.sailAnswers_sailAbort_idle hidle) rfl rfl).mono ?_
    rintro t ⟨v, o, rfl⟩
    exact ⟨rfl, rfl⟩

end Sys2Proof.Machine

/-! Prefix slots, the host tier's registers and the exclusion ranges (R248, R257, R271, R294): a command that is taken empties its slot or
waits, and every other end is a status alone. -/

namespace Sys2Proof.Machine

namespace State

variable {s : State} {c x len : Nat} {st : Byte} {j : PfxJob}

/-! The slot is emptied (R257). -/

@[simp] theorem pfx_setPfx (s : State) (c x : Nat) (v : PrefixSlot) : (s.setPfx c x v).pfx c x = v := tabGet_tabSet_self ..

/-- From `s` to `t` the slot of learned prefixes has lost what it held, and sequences have lost nothing. -/
def SlotEmptied (s : State) (c x : Nat) (t : State) : Prop := (t.pfx c x).loaded = false ∧ (t.pfx c x).pages = [] ∧
  (t.pfx c x).users = (s.pfx c x).users ∧ t.entries = s.entries ∧ t.tables = s.tables

theorem slotEmptied_pfxFree (s : State) (c x : Nat) : s.SlotEmptied c x (s.pfxFree c x) := by
  have hslot : (s.pfxFree c x).pfx c x = { users := (s.pfx c x).users } := pfx_setPfx ..
  obtain ⟨d, hfree⟩ := s.pfxFree_spec c x
  refine ⟨by rw [hslot], by rw [hslot], by rw [hslot], ?_, ?_⟩ <;> rw [hfree]

theorem rowNeed_pfxFree (s : State) (c x d r : Nat) : (s.pfxFree c x).rowNeed d r = s.rowNeed d r := by
  obtain ⟨p, hfree⟩ := s.pfxFree_spec c x
  rw [hfree]
  rfl

/-- The code of the command is no part of what its slot holds, nor of what the pools can give. -/
theorem pfxFree_pfxAccept (s : State) (k : BitVec 4) (c x : Nat) : (s.pfxAccept k).pfxFree c x = (s.pfxFree c x).pfxAccept k :=
  congrArg (fun u : State => u.setPfx c x { users := (s.pfx c x).users })
    (List.foldl_hom (pfxAccept · k) (fun _ _ => rfl))

theorem fitsPrefix_pfxAccept (s : State) (k : BitVec 4) (c : Nat) (need : Nat → Nat) :
    (s.pfxAccept k).fitsPrefix c need = s.fitsPrefix c need := rfl

/-! LOAD and CLEAR are refused, wait, or take the slot. -/

theorem pfxLoad_refused (h : s.pfxRefusal = some st) : s.pfxLoad len = (s.pfxAccept 1).pfxRefuse st := by
  have hrefusal : (s.pfxAccept 1).pfxRefusal = some st := h
  simp only [pfxLoad, hrefusal]

theorem pfxClear_refused (h : s.pfxRefusal = some st) : s.pfxClear = (s.pfxAccept 2).pfxRefuse st := by
  have hrefusal : (s.pfxAccept 2).pfxRefusal = some st := h
  simp only [pfxClear, hrefusal]

theorem pfxLoad_of_not_refused (h : s.pfxRefusal = none) : s.pfxLoad len =
    if len = 0 ∨ 64 * s.prefixPages s.kv.pfxSelCtx.toNat < len then (s.pfxAccept 1).pfxRefuse sPfxTooLong
    else (s.pfxAccept 1).pfxBegin ⟨s.kv.pfxSelCtx.toNat, s.kv.pfxSelSlot.toNat, len, s.kv.pfxSrc, false, false⟩ := by
  have hrefusal : (s.pfxAccept 1).pfxRefusal = none := h
  simp only [pfxLoad, hrefusal]
  rfl

theorem pfxClear_of_not_refused (h : s.pfxRefusal = none) : s.pfxClear =
    (s.pfxAccept 2).pfxBegin ⟨s.kv.pfxSelCtx.toNat, s.kv.pfxSelSlot.toNat, 0, 0, false, true⟩ := by
  have hrefusal : (s.pfxAccept 2).pfxRefusal = none := h
  simp only [pfxClear, hrefusal]
  rfl

theorem pfxBegin_of_named (k : BitVec 4) (h : s.pfxNamed j.ctx j.slot = true) :
    (s.pfxAccept k).pfxBegin j = (s.pfxAccept k).pfxStart { j with held := true } := if_pos h

theorem pfxBegin_of_not_named (k : BitVec 4) (h : s.pfxNamed j.ctx j.slot = false) :
    (s.pfxAccept k).pfxBegin j = (s.pfxAccept k).pfxTake j := if_neg (Bool.not_eq_true _ ▸ h)

/-- A LOAD that takes its slot reads the image where the pools can give its pages once the slot is empty. -/
theorem pfxTake_load (k : BitVec 4) (h : j.clear = false) : (s.pfxAccept k).pfxTake j =
    if (s.pfxFree j.ctx j.slot).fitsPrefix j.ctx (s.rowNeed j.ctx (pagesFor j.len)) then
      ((s.pfxFree j.ctx j.slot).pfxAccept k).pfxStart { j with held := false }
    else ((s.pfxFree j.ctx j.slot).pfxAccept k).pfxFinish sNoPages := by
  have hneed := s.rowNeed_pfxFree j.ctx j.slot j.ctx (pagesFor j.len)
  rw [pfxTake, pfxFree_pfxAccept, h, if_neg Bool.false_ne_true, fitsPrefix_pfxAccept, ← hneed]
  rfl

theorem pfxTake_clear (k : BitVec 4) (h : j.clear = true) : (s.pfxAccept k).pfxTake j =
    ((s.pfxFree j.ctx j.slot).pfxAccept k).pfxFinish sOK := by
  rw [pfxTake, pfxFree_pfxAccept, h, if_pos rfl]

/-! The image of a LOAD has been read (R257). -/

theorem pfxFinish_spec (s : State) (st : Byte) : ∃ v o, s.pfxFinish st = { s with
    kv := { s.kv with
      pfxStatus := st
      pfxJob := none }
    genCause := s.genCause ||| BitVec.ofNat 11 (2 ^ gKvPfx)
    vecs := v
    out := s.out ++ o } := cause_spec ..

section

variable (hj : s.kv.pfxJob = some j) (hread : j.held = false)

include hj hread

theorem pfxLoadComplete_none : s.pfxLoadComplete none = s.pfxFinish sBadImage := by
  simp only [pfxLoadComplete, hj, hread]
  rfl

theorem pfxLoadComplete_badImage {l : List Byte} (h : checksPass l (s.layerCount j.ctx * pagesFor j.len * 32768) = false) :
    s.pfxLoadComplete (some l) = s.pfxFinish sBadImage := by
  simp only [pfxLoadComplete, hj, hread, h]
  rfl

variable {l : List Byte} (hsound : checksPass l (s.layerCount j.ctx * pagesFor j.len * 32768) = true)

include hsound

theorem pfxLoadComplete_noPages (h : s.fitsPrefix j.ctx (s.rowNeed j.ctx (pagesFor j.len)) = false) :
    s.pfxLoadComplete (some l) = s.pfxFinish sNoPages := by
  simp only [pfxLoadComplete, hj, hread, hsound, h]
  rfl

/-- The slot is written last, after the frames that its pages take. -/
theorem pfxLoadComplete_filled (h : s.fitsPrefix j.ctx (s.rowNeed j.ctx (pagesFor j.len)) = true) : ∃ (u : State) (pages : Tab Nat),
    s.pfxLoadComplete (some l) = (u.setPfx j.ctx j.slot { loaded := true, length := j.len, pages := pages }).pfxFinish sOK := by
  simp only [pfxLoadComplete, hj, hread, hsound, h, Bool.not_true, Bool.false_eq_true, if_false]
  exact ⟨_, _, rfl⟩

end

/-! The host tier (R248). -/

theorem kvHostWrite_free (pages : Bool) (v : W64) (h : s.hostUsed = 0) : s.kvHostWrite pages v =
    if pages then { s with kv := { s.kv with hostPages := BitVec.ofNat 25 v.toNat } }
    else { s with kv := { s.kv with hostBase := v &&& ~~~0xFFF } } := if_neg (Nat.not_lt.2 (Nat.le_of_eq h))

/-! Exclusion ranges (R294). -/

theorem xApply_of_no_entry (h : s.byHandle s.xregs.handle = none) : s.xApply = s.xDone 1 sBadHandle := by rw [xApply, h]

theorem xFetch_of_no_entry (h : s.byHandle s.xregs.handle = none) : s.xFetch = s.xDone 2 sBadHandle := by rw [xFetch, h]

variable {i : Nat} (h : s.byHandle s.xregs.handle = some i)

include h

theorem xApply_of_entry : s.xApply = if s.xregs.ranges.any badRange then s.xDone 1 sBadRange
    else (s.setXr i { s.xr i with ranges := s.xregs.ranges }).xDone 1 sOK := by rw [xApply, h]

theorem xFetch_of_entry : s.xFetch = ({ s with xregs := { s.xregs with ranges := (s.xr i).ranges } } : State).xDone 2 sOK := by
  rw [xFetch, h]

end State

/-! The commands of learned prefixes, of the host tier and of the ranges. -/

theorem exec_pfxLoad (len : Nat) (s : State) : exec (.pfxLoad len) s = act (decide (len < 8192) && s.hostMay) s (·.pfxLoad len) := rfl

theorem exec_pfxLoadComplete (bytes : Option (List Byte)) (s : State) :
    exec (.pfxLoadComplete bytes) s = act true s (·.pfxLoadComplete bytes) := rfl

theorem exec_pfxClear (s : State) : exec .pfxClear s = act s.hostMay s State.pfxClear := rfl

theorem exec_kvHostBaseWrite (pages : Bool) (v : W64) (s : State) :
    exec (.kvHostBaseWrite pages v) s = act s.hostMay s (·.kvHostWrite pages v) := rfl

theorem exec_apply (s : State) : exec .apply s = act s.hostMay s State.xApply := rfl

theorem exec_fetch (s : State) : exec .fetch s = act s.hostMay s State.xFetch := rfl

section

open State

variable {s u : State} {i : Instr} {ok : Bool} {f : State → State} {c x len : Nat} {st : Byte} {k : BitVec 4} {j : PfxJob}

variable (h : exec i s = act ok s f) (hok : ok = true)

include h hok

theorem completes_pfxRefuse (hf : f s = (s.pfxAccept k).pfxRefuse st) : Completes i s (fun t =>
    t.kv = { s.kv with
      pfxCmd := k
      pfxStatus := st } ∧ t.prefixes = s.prefixes) := by
  obtain ⟨v, o, hend⟩ := State.cause_spec { s.pfxAccept k with kv := { (s.pfxAccept k).kv with pfxStatus := st } } gKvPfx
  refine completes_act h hok ?_
  rw [hf.trans hend]
  exact ⟨rfl, rfl⟩

theorem completes_pfxHeld (hf : f s = (s.pfxAccept k).pfxStart j) : Completes i s (fun t =>
    t = { s with kv := { s.kv with
      pfxCmd := k
      pfxJob := some j } }) := completes_kept h hok hf (keepBoot_of rfl rfl rfl rfl rfl rfl) rfl

theorem completes_pfxFinish (hf : f s = s.pfxFinish st) : Completes i s (fun t =>
    t.kv.pfxJob = none ∧ t.kv.pfxStatus = st ∧ t.prefixes = s.prefixes ∧ t.pdescs = s.pdescs) := by
  obtain ⟨v, o, hend⟩ := s.pfxFinish_spec st
  refine completes_act h hok ?_
  rw [hf.trans hend]
  exact ⟨rfl, rfl, rfl, rfl⟩

/-- A command that has taken its slot ends with a status, the slot empty. -/
theorem completes_pfxFree_finish (hf : f s = ((s.pfxFree c x).pfxAccept k).pfxFinish st) : Completes i s (fun t =>
    s.SlotEmptied c x t ∧ t.kv = { s.kv with
      pfxCmd := k
      pfxStatus := st
      pfxJob := none }) := by
  have hempty := s.slotEmptied_pfxFree c x
  have hkv : (s.pfxFree c x).kv = s.kv := by
    obtain ⟨d, hfree⟩ := s.pfxFree_spec c x
    rw [hfree]
  refine completes_act h hok ?_
  rw [hf, ← hkv]
  generalize s.pfxFree c x = w at hempty
  obtain ⟨v, o, hend⟩ := (w.pfxAccept k).pfxFinish_spec st
  rw [hend]
  exact ⟨hempty, rfl⟩

/-- A command that has taken its slot goes on, the slot empty. -/
theorem completes_pfxFree_start (hf : f s = ((s.pfxFree c x).pfxAccept k).pfxStart j) : Completes i s (fun t =>
    s.SlotEmptied c x t ∧ t.kv.pfxCmd = k ∧ t.kv.pfxJob = some j) := by
  have hempty := s.slotEmptied_pfxFree c x
  refine completes_act h hok ?_
  rw [hf]
  generalize s.pfxFree c x = w at hempty
  exact ⟨hempty, rfl, rfl⟩

theorem completes_pfxFilled {pages : Tab Nat}
    (hf : f s = (u.setPfx j.ctx j.slot { loaded := true, length := j.len, pages := pages }).pfxFinish st) : Completes i s (fun t =>
      t.kv.pfxJob = none ∧ t.kv.pfxStatus = st ∧ (t.pfx j.ctx j.slot).loaded = true ∧ (t.pfx j.ctx j.slot).length = j.len ∧
      (t.pfx j.ctx j.slot).users = 0) := by
  have hslot := u.pfx_setPfx j.ctx j.slot { loaded := true, length := j.len, pages := pages }
  refine completes_act h hok ?_
  rw [hf]
  generalize u.setPfx j.ctx j.slot _ = w at hslot
  obtain ⟨v, o, hend⟩ := w.pfxFinish_spec st
  rw [hend]
  exact ⟨rfl, rfl, congrArg PrefixSlot.loaded hslot, congrArg PrefixSlot.length hslot, congrArg PrefixSlot.users hslot⟩

/-- A command on SEQ_XCMD completes with a status, over the words and ranges that it has made. -/
theorem completes_xDone {y : XRegs} {r : Tab Xr} (hf : f s = ({ s with xregs := y, xrs := r } : State).xDone k st) :
    Completes i s (fun t => t.xrs = r ∧ t.xregs = { y with cmdLast := k, status := st } ∧ t = { s with
      xregs := { y with cmdLast := k, status := st }
      xrs := t.xrs
      genCause := s.genCause ||| BitVec.ofNat 11 (2 ^ gSeqx)
      vecs := t.vecs
      out := t.out }) := by
  obtain ⟨v, o, hend⟩ := State.cause_spec { s with xregs := { y with cmdLast := k, status := st }, xrs := r } gSeqx
  exact completes_kept h hok (hf.trans hend) (keepBoot_of rfl rfl rfl rfl rfl rfl) ⟨rfl, rfl, rfl⟩

end

/-- A LOAD into a slot of learned prefixes that nothing refuses and no SUBMIT holds up takes the slot. -/
theorem completes_pfxLoad_take {s : State} {len : Nat} (hok : (decide (len < 8192) && s.hostMay) = true) (hnone : s.pfxRefusal = none)
    (hfits : ¬(len = 0 ∨ 64 * s.prefixPages s.kv.pfxSelCtx.toNat < len))
    (hnamed : s.pfxNamed s.kv.pfxSelCtx.toNat s.kv.pfxSelSlot.toNat = false) :
    let c := s.kv.pfxSelCtx.toNat
    let x := s.kv.pfxSelSlot.toNat
    Completes (.pfxLoad len) s (fun t => s.SlotEmptied c x t ∧ t.kv.pfxCmd = 1 ∧
      if (s.pfxFree c x).fitsPrefix c (s.rowNeed c (pagesFor len)) then t.kv.pfxJob = some ⟨c, x, len, s.kv.pfxSrc, false, false⟩
      else t.kv.pfxJob = none ∧ t.kv.pfxStatus = sNoPages) := by
  intro c x
  have htake := ((State.pfxLoad_of_not_refused hnone).trans (if_neg hfits)).trans
    ((State.pfxBegin_of_not_named 1 hnamed).trans (State.pfxTake_load 1 rfl))
  by_cases hpages : (s.pfxFree c x).fitsPrefix c (s.rowNeed c (pagesFor len)) = true
  · simp only [if_pos hpages]
    exact completes_pfxFree_start (exec_pfxLoad len s) hok (htake.trans (if_pos hpages))
  · simp only [if_neg hpages]
    refine (completes_pfxFree_finish (exec_pfxLoad len s) hok (htake.trans (if_neg hpages))).mono ?_
    rintro t ⟨hempty, hkv⟩
    exact ⟨hempty, by rw [hkv], by rw [hkv], by rw [hkv]⟩

/-- Settles O41: a KV_PFX command comes to a refusal, to waiting, or to its slot emptied, by the conditions of R257 and R271 in their order;
the end of a LOAD, the host tier's registers and the ranges' commands by one condition each. -/
theorem prefixesAndRanges : Obligations.PrefixesAndRanges := by
  refine fun s => ⟨fun hm hnone => ?_, fun st hm hrefused => ?_, fun j hj hread => ?_, fun v hm => ⟨fun hfree => ?_, fun hused pages => ?_⟩,
    fun hm => ⟨fun i hi => ⟨fun hgood => ?_, fun hbad => ?_, ?_⟩, fun hno => ⟨?_, ?_⟩⟩⟩
  · have hok {len : Nat} (hlen : len < 8192) : (decide (len < 8192) && s.hostMay) = true := by rw [decide_eq_true hlen, hm, Bool.true_and]
    have hload {len : Nat} := State.pfxLoad_of_not_refused (len := len) hnone
    have hclear := State.pfxClear_of_not_refused hnone
    refine ⟨fun len hlen hpos hmax => ?_, fun len hlen hlong => ?_, fun hnamed => ?_, fun hnamed => ?_⟩
    · have hfits : ¬(len = 0 ∨ 64 * s.prefixPages s.kv.pfxSelCtx.toNat < len) := by omega
      refine ⟨completes_pfxLoad_take (hok hlen) hnone hfits, fun hnamed => ?_⟩
      exact completes_pfxHeld (exec_pfxLoad len s) (hok hlen) ((hload.trans (if_neg hfits)).trans (State.pfxBegin_of_named 1 hnamed))
    · exact completes_pfxRefuse (exec_pfxLoad len s) (hok hlen) (hload.trans (if_pos hlong))
    · exact completes_pfxFree_finish (exec_pfxClear s) hm
        (hclear.trans ((State.pfxBegin_of_not_named 2 hnamed).trans (State.pfxTake_clear 2 rfl)))
    · exact completes_pfxHeld (exec_pfxClear s) hm (hclear.trans (State.pfxBegin_of_named 2 hnamed))
  · refine ⟨fun len hlen => ?_, completes_pfxRefuse (exec_pfxClear s) hm (State.pfxClear_refused hrefused)⟩
    exact completes_pfxRefuse (exec_pfxLoad len s) (by rw [decide_eq_true hlen, hm, Bool.true_and]) (State.pfxLoad_refused hrefused)
  · refine ⟨completes_pfxFinish (exec_pfxLoadComplete _ s) rfl (State.pfxLoadComplete_none hj hread), fun l hbad => ?_,
      fun l hsound hfull => ?_, fun l hsound hfits => ?_⟩
    · exact completes_pfxFinish (exec_pfxLoadComplete _ s) rfl (State.pfxLoadComplete_badImage hj hread hbad)
    · exact completes_pfxFinish (exec_pfxLoadComplete _ s) rfl (State.pfxLoadComplete_noPages hj hread hsound hfull)
    · obtain ⟨u, pages, hfilled⟩ := State.pfxLoadComplete_filled hj hread hsound hfits
      exact completes_pfxFilled (exec_pfxLoadComplete _ s) rfl hfilled
  · constructor
    · exact completes_kept (exec_kvHostBaseWrite false v s) hm (State.kvHostWrite_free false v hfree)
        (State.keepBoot_of rfl rfl rfl rfl rfl rfl) rfl
    · exact completes_kept (exec_kvHostBaseWrite true v s) hm (State.kvHostWrite_free true v hfree)
        (State.keepBoot_of rfl rfl rfl rfl rfl rfl) rfl
  · exact completes_kept (exec_kvHostBaseWrite pages v s) hm (if_pos hused) (State.keepBoot_of rfl rfl rfl rfl rfl rfl) rfl
  · have happly := (State.xApply_of_entry hi).trans (if_neg (Bool.not_eq_true _ ▸ hgood))
    refine (completes_xDone (y := s.xregs) (exec_apply s) hm happly).mono ?_
    rintro t ⟨hxrs, hdone⟩
    refine ⟨?_, fun j hj => ?_, hdone⟩ <;> rw [State.xr, hxrs]
    · exact tabGet_tabSet_self ..
    · exact tabGet_tabSet_ne _ _ _ _ hj
  · exact completes_xDone (y := s.xregs) (r := s.xrs) (exec_apply s) hm ((State.xApply_of_entry hi).trans (if_pos hbad))
  · exact completes_xDone (r := s.xrs) (exec_fetch s) hm (State.xFetch_of_entry hi)
  · exact completes_xDone (y := s.xregs) (r := s.xrs) (exec_apply s) hm (State.xApply_of_no_entry hno)
  · exact completes_xDone (y := s.xregs) (r := s.xrs) (exec_fetch s) hm (State.xFetch_of_no_entry hno)

end Sys2Proof.Machine

/-! Operations of layer programs (R173 to R177, R180, R282, R331): what they do beside the streams is the same whatever the streams are. First
the operation that completes, then the vector operations, ATTEND and EXPAND, and SEND, RECV and GATHER. -/

namespace Sys2Proof.Machine

namespace State

variable {s t u : State} {m n : Nat} {a : At}

/-! An operation of which others follow completes. -/

theorem complete_of_lt (s : State) (m : Nat) (hlt : a.pos + 1 < a.ops.length) : s.complete_ m a = s.modStream m (fun x => { x with
    pos := a.pos + 1
    iter := a.iter
    started := false
    wait := 0
    done := []
    left := []
    since := s.now }) := goTo_of_lt s m _ hlt

theorem stream_complete (s : State) (m : Nat) (hlt : a.pos + 1 < a.ops.length) : (s.complete_ m a).stream m = { s.stream m with
    pos := a.pos + 1
    iter := a.iter
    started := false
    wait := 0
    done := []
    left := []
    since := s.now } := by rw [complete_of_lt s m hlt, stream_modStream]

theorem streamsMove_complete (s : State) (m : Nat) (hlt : a.pos + 1 < a.ops.length) : StreamsMove s (s.complete_ m a) :=
  streamsMove_goTo s m a.iter hlt

/-- The form of a meaning keeps a state whose streams differ where it keeps the state. -/
theorem StreamsMove.keepBoot_of_kept (h : StreamsMove u t) (hkeep : s.keepBoot u = u) : s.keepBoot t = t := by
  rw [h]
  exact congrArg (fun x : State => { x with streams := t.streams }) hkeep

/-! Rows written to the activation store. -/

theorem writesRows_writeRow (m k w fmt t : Nat) (l : List Nat) : WritesRows (·.writeRow m k w fmt t l) :=
  writesRows_putLines m k (rowLines w fmt) t _ 0

@[simp] theorem masts_putLines (s : State) (m k rl t : Nat) (b : List Byte) (tag : W64) : (s.putLines m k rl t b tag).masts = s.masts := by
  rw [putLines]
  exact foldl_keeps State.masts (f := fun u i => u.setLine m (k + t * rl + i) _) (fun _ _ => rfl) _ s

theorem putLines_streams (s : State) (v : Tab Stream) (m k rl t : Nat) (b : List Byte) (tag : W64) :
    ({ s with streams := v } : State).putLines m k rl t b tag = { s with
      streams := v
      store := (s.putLines m k rl t b tag).store } := by
  rw [(writesRows_putLines m k rl t b tag).rows, masts_putLines]

theorem writeRow_streams (s : State) (v : Tab Stream) (m k w fmt t : Nat) (l : List Nat) :
    ({ s with streams := v } : State).writeRow m k w fmt t l = { s with
      streams := v
      store := (s.writeRow m k w fmt t l).store } :=
  putLines_streams ..

/-- Where rows have been written and the streams have moved, nothing else differs, and the form of a meaning keeps the state. -/
theorem StreamsMove.rows {v : Tab Stream} {rows : Tab Line} (h : StreamsMove { s with streams := v, store := rows } t) :
    s.keepBoot t = t ∧ t.store = rows ∧ t = { s with
      store := t.store
      streams := t.streams } := by
  rw [show t = { s with streams := t.streams, store := rows } from h]
  exact ⟨keepBoot_of rfl rfl rfl rfl rfl rfl, rfl, rfl⟩

/-! Vector operations (R174). -/

theorem regionRead_streams (s : State) (v : Tab Stream) (c k o n : Nat) :
    ({ s with streams := v } : State).regionRead c k o n = s.regionRead c k o n := by
  simp only [regionRead, hbmRead_streams]
  rfl

theorem tensorElems_streams (s : State) (v : Tab Stream) (c t i n : Nat) :
    ({ s with streams := v } : State).tensorElems c t i n = s.tensorElems c t i n := by
  simp only [tensorElems, regionRead_streams]
  rfl

section

variable {f : State → Nat → Nat × Nat → List W32}

/-- What gives each token's row does not go by the streams. -/
def RowsBesideStreams (f : State → Nat → Nat × Nat → List W32) : Prop :=
  ∀ (s : State) (v : Tab Stream), f { s with streams := v } = f s

theorem writesRows_vectorRows (hf : RowsBesideStreams f) (m : Nat) (a : At) : WritesRows (·.vectorRows m a f) := by
  refine .foldl (fun x : Nat × Nat × Nat => ?_) _
  exact .of_read (read := fun u => (f u x.1 x.2).map (fun v => (convTo (opFmtD a.op) v).bits)) (fun s v => by rw [hf])
    (writesRows_writeRow m (opDst a.op) (opWidth a.op) (opFmtD a.op) x.1)

theorem masts_vectorRows (s : State) (m : Nat) (a : At) (f : State → Nat → Nat × Nat → List W32) :
    (s.vectorRows m a f).masts = s.masts := foldl_keeps State.masts (fun _ _ => masts_putLines ..) _ s

theorem vectorRows_streams (hf : RowsBesideStreams f) (s : State) (v : Tab Stream) (m : Nat) (a : At) :
    ({ s with streams := v } : State).vectorRows m a f = { s with
      streams := v
      store := (s.vectorRows m a f).store } := by
  rw [(writesRows_vectorRows hf m a).rows, masts_vectorRows]

end

theorem vectorOp_eq {code : Nat} (hat : s.atOp m code = some a) (slow : Nat) (f : State → At → Nat → Nat × Nat → List W32) :
    s.vectorOp m code none slow f = (((s.issue m a).vectorRows m a (f · a)).modStream m (fun z => { z with
      vecSlow := satAdd z.vecSlow slow })).complete_ m a := by
  rw [vectorOp, hat]
  dsimp only
  rw [readCheck, if_neg (atOperation_of_atOp hat).issue_running]
  rfl

/-! CHECK (R180, R331). -/

theorem log_corrected (s : State) (i : RecInfo) : ∃ r, s.log .corrected i = { s with integ := putRec s.integ r } := by
  refine ⟨_, (log_mild s .corrected i (by decide)).trans (if_neg ?_)⟩
  simp [escalates, sevCode]

theorem data_putRec (g : Integ) (r : ErrRec) : (putRec g r).data = g.data := by
  simp only [putRec]
  split
  · rfl
  · split <;> rfl

/-- Findings of CHECK are logged and counted, one by one. -/
theorem foldl_logData (i : RecInfo) : ∀ (l : List Nat) (s : State), ∃ g : Integ,
    l.foldl (fun s _ => (s.log .corrected i).countData) s = { s with integ := g } ∧ g.jobState = s.integ.jobState ∧
      g.data = s.integ.data + BitVec.ofNat 64 l.length ∧ g.tail = s.integ.tail + BitVec.ofNat 32 l.length
  | [], s => ⟨s.integ, rfl, rfl, by simp, by simp⟩
  | _ :: l, s => by
    obtain ⟨r, hlog⟩ := s.log_corrected i
    obtain ⟨g, hfold, hjob, hdata, htail⟩ := foldl_logData i l (s.log .corrected i).countData
    rw [hlog] at hfold hjob hdata htail
    refine ⟨g, by rw [List.foldl_cons, hlog, hfold]; rfl, hjob.trans (putRec_jobState ..), hdata.trans ?_, htail.trans ?_⟩
    · rw [List.length_cons, Nat.add_comm, BitVec.ofNat_add, ← BitVec.add_assoc]
      exact congrArg (· + 1 + _) (data_putRec ..)
    · rw [List.length_cons, Nat.add_comm, BitVec.ofNat_add, ← BitVec.add_assoc]
      exact congrArg (· + _) (tail_putRec ..)

/-- An element that CHECK finds is not finite, or lies at or above the bound. -/
def checkFails (a : At) (v : Ext) : Bool := !v.isFinite || decide (pow2 ((opA10 a.op % 256 : Nat) : Int) ≤ absQ v.toRat)

/-- The tokens of the block that CHECK finds. -/
def failingToks (s : State) (m : Nat) (a : At) : List Nat :=
  (upTo (blockToks a.b a.blk).length).filter (fun k => (s.srcA m a k).any (checkFails a))

theorem checkOp_eq (hat : s.atOp m cCheck = some a) : ∃ i, s.checkOp m none =
    ((s.failingToks m a).foldl (fun s _ => (s.log .corrected i).countData) (s.issue m a)).complete_ m a := by
  refine ⟨{ typ := tValueData, source := m, step := some a.b.step, ctx := some a.b.ctx, detail := a.num }, ?_⟩
  rw [checkOp, hat]
  dsimp only
  rw [readCheck, if_neg (atOperation_of_atOp hat).issue_running]
  rfl

end State

section

open State

variable {s t u : State} {m : Nat} {a : At} {i : Instr} {f : State → State} {P : State → Prop} (hm : m < 4) (hruns : s.mastRuns m = true)
  (hlt : a.pos + 1 < a.ops.length)

include hm hruns hlt

/-- An operation whose work the form of a meaning keeps completes, and its stream goes on. -/
theorem completes_wentOn (hi : StreamCommand i m f) (hf : f s = u.complete_ m a) (hbusy : (u.stream m).busy = true)
    (hkeep : s.keepBoot u = u) (hp : P (u.complete_ m a)) : Completes i s (fun t => t.WentOn m a ∧ P t) :=
  completes_of_keepBoot_eq hi hm hruns hf ((streamsMove_complete u m hlt).keepBoot_of_kept hkeep) ⟨wentOn_complete hbusy hlt, hp⟩

theorem completes_vectorOp {code slow : Nat} {f : State → At → Nat → Nat × Nat → List W32} {g : State → Nat → Nat × Nat → List W32}
    (hi : StreamCommand i m (·.vectorOp m code none slow f)) (hat : s.atOp m code = some a) (hfg : (f · a) = g)
    (hg : RowsBesideStreams g) : Completes i s (fun t => t.WentOn m a ∧ (t.stream m).vecSlow = satAdd (s.stream m).vecSlow slow ∧
      t.store = (s.vectorRows m a g).store ∧ t = { s with
        store := t.store
        streams := t.streams }) := by
  have hop := vectorOp_eq hat slow f
  have hrows : (s.issue m a).vectorRows m a g = { s.issue m a with store := (s.vectorRows m a g).store } :=
    vectorRows_streams hg s (s.issue m a).streams m a
  rw [hfg, hrows] at hop
  generalize hu : modStream _ m (fun z => { z with vecSlow := satAdd z.vecSlow slow }) = u at hop
  have hmove : StreamsMove { s with streams := (s.issue m a).streams, store := (s.vectorRows m a g).store } u :=
    hu ▸ streamsMove_modStream ..
  have hstream : u.stream m = { (s.issue m a).stream m with vecSlow := satAdd ((s.issue m a).stream m).vecSlow slow } :=
    hu ▸ stream_modStream _ m (fun z => { z with vecSlow := satAdd z.vecSlow slow })
  refine completes_wentOn hm hruns hlt hi hop ?_ hmove.rows.1 ⟨?_, (hmove.trans (streamsMove_complete u m hlt)).rows.2⟩
  · rw [hstream, stream_issue]
    exact (atOperation_of_atOp hat).busy
  · rw [stream_complete u m hlt, hstream, stream_issue]

/-- Where no count of slow elements is asked for, as in ADD and SCALE. -/
theorem completes_vectorOp_rows {code slow : Nat} {f : State → At → Nat → Nat × Nat → List W32} {g : State → Nat → Nat × Nat → List W32}
    (hi : StreamCommand i m (·.vectorOp m code none slow f)) (hat : s.atOp m code = some a) (hfg : (f · a) = g)
    (hg : RowsBesideStreams g) : Completes i s (fun t => t.WentOn m a ∧ t.store = (s.vectorRows m a g).store ∧ t = { s with
      store := t.store
      streams := t.streams }) :=
  (completes_vectorOp hm hruns hlt hi hat hfg hg).mono fun _ ⟨hgo, _, hrows⟩ => ⟨hgo, hrows⟩

theorem completes_check (hat : s.atOp m cCheck = some a) : Completes (.check m none) s (fun t => t.WentOn m a ∧
    t.integ.data = s.integ.data + BitVec.ofNat 64 (s.failingToks m a).length ∧
    t.integ.tail = s.integ.tail + BitVec.ofNat 32 (s.failingToks m a).length ∧ t = { s with
      streams := t.streams
      integ := t.integ }) := by
  obtain ⟨i, hop⟩ := checkOp_eq hat
  obtain ⟨g, hfold, hjob, hdata, htail⟩ := foldl_logData i (s.failingToks m a) (s.issue m a)
  rw [hfold] at hop
  refine completes_wentOn (f := (·.checkOp m none)) hm hruns hlt (fun _ => rfl) hop ?_ (keepBoot_eq rfl rfl rfl rfl hjob rfl rfl rfl) ?_
  · exact (congrArg Stream.busy (stream_issue s m a)).trans (atOperation_of_atOp hat).busy
  · rw [complete_of_lt _ m hlt]
    exact ⟨hdata, htail, rfl⟩

end

/-- Settles O26: the rows that a vector operation writes come of the store, of HBM and of the contexts alone, so that they are the same before the
operation is issued and after; CHECK logs and counts a token at a time, and a CORRECTED record takes no further action. -/
theorem vectorOperations : Obligations.VectorOperations := by
  intro s m slow a hm hruns hlt tensor
  refine ⟨fun hat => ?_, fun hat => ?_, fun hat => ?_, fun hat => ?_, fun hat => ?_, completes_check hm hruns hlt⟩
  · refine completes_vectorOp hm hruns hlt (fun _ => rfl) hat rfl fun u v => ?_
    simp only [State.tensorElems_streams]
    rfl
  · refine completes_vectorOp hm hruns hlt (fun _ => rfl) hat rfl fun u v => ?_
    simp only [State.tensorElems_streams]
    rfl
  · refine completes_vectorOp hm hruns hlt (fun _ => rfl) hat ?_ fun u v => rfl
    funext u k _
    by_cases hone : opA10 a.op = 0xFFFF
    · simp only [if_pos hone]
      exact List.ext_getElem (by simp) (by simp)
    · simp only [if_neg hone]
  · exact completes_vectorOp_rows hm hruns hlt (fun _ => rfl) hat rfl fun u v => rfl
  · refine completes_vectorOp_rows hm hruns hlt (fun _ => rfl) hat ?_ fun u v => ?_
    · funext u k _
      by_cases hone : opA10 a.op = 0xFFFF
      · simp only [if_pos hone]
      · simp only [if_neg hone, tensor]
    · simp only [State.tensorElems_streams]
      rfl

end Sys2Proof.Machine

/-! EXPAND and ATTEND (R173, R282). -/

namespace Sys2Proof.Machine

namespace State

variable {s t u : State} {m n : Nat} {a : At} {mb : Member}

/-! What moves the streams alone. -/

theorem streamsMove_hbmMoved (s : State) (k b : Nat) : StreamsMove s (s.hbmMoved k b) := streamsMove_modStream ..

/-- The count of bytes moved is all that a transfer changes of a stream (R470). -/
theorem stream_hbmMoved (s : State) (k b m : Nat) : ∃ n, (s.hbmMoved k b).stream m = { s.stream m with moved := n } := by
  by_cases h : m = k / 2
  · subst h
    exact ⟨_, stream_modStream ..⟩
  · exact ⟨_, stream_modStream_ne s _ h⟩

theorem pos_of_atOp {code : Nat} (h : s.atOp m code = some a) : a.pos = (s.stream m).pos := by
  rw [atOp] at h
  split at h
  · cases h
  · dsimp only at h
    split at h
    · cases h
    · split at h
      · obtain rfl := Option.some.inj h
        rfl
      · cases h

/-! EXPAND. -/

/-- A tensor goes into the buffer that the latest EXPAND did not load. -/
def loadBuffer (t : Nat) (x : Stream) : Stream :=
  if x.latest = 0 then { x with buf1 := some t, latest := 1 } else { x with buf0 := some t, latest := 0 }

theorem busy_loadBuffer (t : Nat) (x : Stream) : (loadBuffer t x).busy = x.busy := by
  rw [loadBuffer]
  split
  · rfl
  · rfl

/-- The buffer that is loaded becomes the latest, and the other stands. -/
theorem loadBuffer_turns (t : Nat) (x : Stream) :
    if x.latest = 0 then (loadBuffer t x).latest = 1 ∧ (loadBuffer t x).buf1 = some t ∧ (loadBuffer t x).buf0 = x.buf0
    else (loadBuffer t x).latest = 0 ∧ (loadBuffer t x).buf0 = some t ∧ (loadBuffer t x).buf1 = x.buf1 := by
  by_cases h : x.latest = 0
  · simp only [loadBuffer, if_pos h, and_self]
  · simp only [loadBuffer, if_neg h, and_self]

theorem expand_eq (hat : s.atOp m cExpand = some a) : ∃ u n, StreamsMove s u ∧
    u.stream m = { (s.issue m a).stream m with moved := n } ∧
    s.expand m none = (u.modStream m (loadBuffer (a.tensor (opA10 a.op)))).complete_ m a := by
  rw [expand, hat]
  dsimp only
  rw [readCheck, if_neg (atOperation_of_atOp hat).issue_running]
  split
  · next x _ =>
    obtain ⟨n, hn⟩ := (s.issue m a).stream_hbmMoved x.stack x.size m
    exact ⟨_, n, (streamsMove_issue s m a).trans (streamsMove_hbmMoved ..), hn, rfl⟩
  · exact ⟨_, _, streamsMove_issue s m a, rfl, rfl⟩

/-! ATTEND makes its jobs. -/

/-- One job for each sequence of the block, by first token. -/
def blockJobs (a : At) : List AttJob :=
  let toks := (blockToks a.b a.blk).mapIdx (fun t kj => (t, kj.1))
  ((toks.map (·.2)).eraseDups).map (fun k => ⟨k, (toks.filter (fun x => x.2 = k)).map (·.1)⟩)

theorem attend_eq (hat : s.atOp m cAttend = some a) (hfirst : (s.stream m).started = false) :
    s.attend m none = ((s.issue m a).modStream m (fun x => { x with jobs := blockJobs a })).waits m 7 := by
  rw [attend, hat]
  dsimp only
  rw [hfirst, if_neg Bool.false_ne_true, readCheck, if_neg (atOperation_of_atOp hat).issue_running]
  rfl

/-! The rovings of a job are written (R173, R243). -/

/-- Position of a token of the block. -/
def tokPos (a : At) (k : Nat) : Nat := posOf a.b ((blockToks a.b a.blk).getD k (0, 0))

/-- The page that receives the roving of a position may be written (R258). -/
def TakesRoving (s : State) (a : At) (mb : Member) (pos : Nat) : Prop :=
  ∀ p, s.rovingPage a mb pos = some p → (s.pdesc p).ro = false

theorem takesRoving_of_jobReadOnly {j : AttJob} (h : s.jobReadOnly a mb j = false) : ∀ k ∈ j.toks, s.TakesRoving a mb (tokPos a k) := by
  intro k hk p hp
  have hnot := List.any_eq_false.1 h k hk
  rw [tokPos] at hp
  rw [hp] at hnot
  exact Bool.eq_false_iff.2 hnot

theorem hbmWrite_streams (v : Tab Stream) (k : Nat) : ∀ (l : List Byte) (s : State) (o : Nat),
    ({ s with streams := v } : State).hbmWrite k o l = { s with
      streams := v
      hbm := (s.hbmWrite k o l).hbm }
  | [], _, _ => rfl
  | b :: l, s, o => hbmWrite_streams v k l (s.setHbmByte k o b) (o + 1)

/-- The new roving of a token, as its page holds it. -/
def rovingBytes (s : State) (m : Nat) (a : At) (t : Nat) : List Byte :=
  (s.readVals m (opA10 a.op) 512 (opFmtS a.op) t).map (fun v => BitVec.ofNat 8 (toE4m3 v).bits)

theorem writeRoving_of_page {pos p : Nat} (hp : s.rovingPage a mb pos = some p) (hro : (s.pdesc p).ro = false) (m t : Nat) :
    s.writeRoving m a mb t pos = s.writePage p ((pos % 64) * 512) (s.rovingBytes m a t) := by
  rw [writeRoving, hp]
  dsimp only
  rw [hro, if_neg Bool.false_ne_true]
  rfl

theorem writeRoving_of_no_page {pos : Nat} (hp : s.rovingPage a mb pos = none) (m t : Nat) : s.writeRoving m a mb t pos = s := by
  rw [writeRoving, hp]

theorem writeRoving_streams {pos : Nat} (h : s.TakesRoving a mb pos) (m t : Nat) : ∃ mem, ∀ v : Tab Stream,
    ({ s with streams := v } : State).writeRoving m a mb t pos = { s with
      streams := v
      hbm := mem } := by
  cases hp : s.rovingPage a mb pos with
  | none => exact ⟨s.hbm, fun v => writeRoving_of_no_page (s := { s with streams := v }) hp m t⟩
  | some p =>
    exact ⟨_, fun v => (writeRoving_of_page (s := { s with streams := v }) hp (h p hp) m t).trans
      (hbmWrite_streams v _ (s.rovingBytes m a t) s _)⟩

/-- The rovings of tokens are written in turn. -/
def writeRovings (m : Nat) (a : At) (mb : Member) (l : List Nat) (s : State) : State :=
  l.foldl (fun s k => s.writeRoving m a mb k (tokPos a k)) s

theorem writeRovings_streams (m : Nat) : ∀ (l : List Nat) (s : State), (∀ k ∈ l, s.TakesRoving a mb (tokPos a k)) →
    ∃ mem, ∀ v : Tab Stream, writeRovings m a mb l { s with streams := v } = { s with
      streams := v
      hbm := mem }
  | [], s, _ => ⟨s.hbm, fun _ => rfl⟩
  | k :: l, s, h => by
    obtain ⟨mem, hfirst⟩ := writeRoving_streams (h k List.mem_cons_self) m k
    obtain ⟨mem', hrest⟩ := writeRovings_streams m l { s with hbm := mem } fun k hk => h k (List.mem_cons_of_mem _ hk)
    exact ⟨mem', fun v => (congrArg (writeRovings m a mb l) (hfirst v)).trans (hrest v)⟩

/-! The tokens of a job attend (R276, R281). -/

/-- From `v` to `w` mast m has counted n tokens attended, some of them with nothing to attend to. -/
def TokensCounted (m n : Nat) (v w : Tab Stream) : Prop := ∃ e, tabGet {} w m = { tabGet {} v m with
  attTokens := (tabGet {} v m).attTokens + BitVec.ofNat 64 n
  attEmpty := e }

theorem roving_streams (s : State) (v : Tab Stream) (c : Nat) (mb : Member) (l : Nat) :
    ({ s with streams := v } : State).roving c mb l = s.roving c mb l := by
  funext t
  simp only [roving, hbmRead_streams]
  rfl

theorem readVals_streams (s : State) (v : Tab Stream) (m k w fmt t : Nat) :
    ({ s with streams := v } : State).readVals m k w fmt t = s.readVals m k w fmt t := rfl

/-- One token is counted as attended, or as one that has nothing to attend to. -/
def countToken (x : Stream) : Stream := { x with attTokens := x.attTokens + 1 }
def countEmpty (x : Stream) : Stream := { x with attEmpty := satAdd x.attEmpty 1 }

/-- A token at a position has nothing to attend to (R281). -/
def AttendsNone (a : At) (mb : Member) (pos : Nat) : Prop :=
  ((upTo (pos + 1)).filter (fun x => allowed (opB14 a.op % 16) (opA12 a.op) mb.p0 mb.ranges pos x)).isEmpty = true

theorem writeRow_modStream (s : State) (m : Nat) (f : Stream → Stream) (k w fmt t : Nat) (l : List Nat) :
    (s.modStream m f).writeRow m k w fmt t l = (s.writeRow m k w fmt t l).modStream m f := by
  have hrow := writeRow_streams s s.streams m k w fmt t l
  refine (writeRow_streams s (s.modStream m f).streams m k w fmt t l).trans ?_
  rw [show s.writeRow m k w fmt t l = _ from hrow]
  rfl

theorem attendToken_of_none {pos : Nat} (h : AttendsNone a mb pos) (s : State) (m : Nat) (exp : List Byte) (t : Nat) :
    s.attendToken m a mb exp t pos =
      ((s.writeRow m (opDst a.op) (opWidth a.op) (opFmtD a.op) t (List.replicate (opWidth a.op) 0)).modStream m countToken).modStream m
        countEmpty := by
  rw [attendToken]
  refine (if_pos h).trans ?_
  rw [writeRow_modStream]
  rfl

theorem attendToken_of_some {pos : Nat} (h : ¬ AttendsNone a mb pos) (s : State) (m : Nat) (exp : List Byte) (t : Nat) :
    ∃ row, ∀ v : Tab Stream, ({ s with streams := v } : State).attendToken m a mb exp t pos =
      (({ s with streams := v } : State).writeRow m (opDst a.op) (opWidth a.op) (opFmtD a.op) t row).modStream m countToken := by
  apply Exists.intro
  intro v
  rw [attendToken]
  refine (if_neg h).trans ?_
  rw [writeRow_modStream]
  simp only [modStream, setStream, readVals_streams, roving_streams]
  rfl

theorem attendToken_streams (s : State) (m : Nat) (a : At) (mb : Member) (exp : List Byte) (t pos : Nat) : ∃ rows, ∀ v : Tab Stream,
    ∃ w, TokensCounted m 1 v w ∧ ({ s with streams := v } : State).attendToken m a mb exp t pos = { s with
      streams := w
      store := rows } := by
  by_cases h : AttendsNone a mb pos
  · refine ⟨(s.writeRow m (opDst a.op) (opWidth a.op) (opFmtD a.op) t (List.replicate (opWidth a.op) 0)).store, fun v => ?_⟩
    rw [attendToken_of_none h, writeRow_streams]
    refine ⟨_, ⟨satAdd (tabGet {} v m).attEmpty 1, ?_⟩, rfl⟩
    refine (stream_modStream _ m countEmpty).trans ?_
    rw [stream_modStream]
    rfl
  · obtain ⟨row, hrow⟩ := attendToken_of_some h s m exp t
    refine ⟨(s.writeRow m (opDst a.op) (opWidth a.op) (opFmtD a.op) t row).store, fun v => ?_⟩
    rw [hrow, writeRow_streams]
    refine ⟨_, ⟨(tabGet {} v m).attEmpty, ?_⟩, rfl⟩
    exact stream_modStream _ m countToken

/-- Tokens attend in turn. -/
def attendTokens (m : Nat) (a : At) (mb : Member) (exp : List Byte) (l : List Nat) (s : State) : State :=
  l.foldl (fun s k => s.attendToken m a mb exp k (tokPos a k)) s

theorem attendTokens_streams (m : Nat) (a : At) (mb : Member) (exp : List Byte) : ∀ (l : List Nat) (s : State), ∃ rows, ∀ v : Tab Stream,
    ∃ w, TokensCounted m l.length v w ∧ attendTokens m a mb exp l { s with streams := v } = { s with
      streams := w
      store := rows }
  | [], s => ⟨s.store, fun v => ⟨v, ⟨_, by simp; rfl⟩, rfl⟩⟩
  | k :: l, s => by
    obtain ⟨rows, hfirst⟩ := attendToken_streams s m a mb exp k (tokPos a k)
    obtain ⟨rows', hrest⟩ := attendTokens_streams m a mb exp l { s with store := rows }
    refine ⟨rows', fun v => ?_⟩
    obtain ⟨w, ⟨_, hone⟩, hw⟩ := hfirst v
    obtain ⟨x, ⟨e, hmany⟩, hx⟩ := hrest w
    refine ⟨x, ⟨e, ?_⟩, (congrArg (attendTokens m a mb exp l) hw).trans hx⟩
    rw [hmany, hone, List.length_cons, Nat.add_comm, BitVec.ofNat_add, ← BitVec.add_assoc]

/-- What a job writes to its pages and to the activation store is the same whatever the streams are. -/
theorem attendTokens_writeRovings {l : List Nat} (h : ∀ k ∈ l, s.TakesRoving a mb (tokPos a k)) (m : Nat) (exp : List Byte)
    (v : Tab Stream) : ∃ w, TokensCounted m l.length v w ∧
      attendTokens m a mb exp l (writeRovings m a mb l { s with streams := v }) = { s with
        streams := w
        hbm := (writeRovings m a mb l s).hbm
        store := (attendTokens m a mb exp l (writeRovings m a mb l s)).store } := by
  obtain ⟨mem, hmem⟩ := writeRovings_streams m l s h
  obtain ⟨rows, hrows⟩ := attendTokens_streams m a mb exp l { s with hbm := mem }
  obtain ⟨w, hcount, hw⟩ := hrows v
  obtain ⟨_, _, hs⟩ := hrows s.streams
  have hhere : writeRovings m a mb l s = { s with hbm := mem } := hmem s.streams
  refine ⟨w, hcount, ?_⟩
  rw [hmem v, hhere]
  refine hw.trans ?_
  rw [show attendTokens m a mb exp l { s with hbm := mem } = _ from hs]

/-! A job starts (R282). -/

/-- What the engines' gang and the bytes moved change of the streams: mast m's is at its operation as it was. -/
def GangTaken (m : Nat) (s t : State) : Prop := StreamsMove s t ∧ ∃ e n, t.stream m = { s.stream m with
  engines := e
  moved := n }

theorem gangTaken_takeGang (s : State) (m : Nat) (a : At) (mb : Member) (j : AttJob) : GangTaken m s (s.takeGang m a mb j) := by
  rw [takeGang]
  refine foldl_frame (GangTaken m) (fun _ => ⟨rfl, _, _, rfl⟩) ?_ _ (fun s ke => ⟨streamsMove_modStream .., _, _, stream_modStream ..⟩) _ s
  rintro s t u ⟨hst, e, n, h⟩ ⟨htu, e', n', h'⟩
  exact ⟨hst.trans htu, e', n', by rw [h', h]⟩

theorem GangTaken.hbmMoved (h : GangTaken m s t) (k b : Nat) : GangTaken m s (t.hbmMoved k b) := by
  obtain ⟨hst, e, n, hstream⟩ := h
  obtain ⟨n', hmoved⟩ := t.stream_hbmMoved k b m
  exact ⟨hst.trans (streamsMove_hbmMoved ..), e, n', by rw [hmoved, hstream]⟩

section

variable {j : AttJob} {rest : List AttJob} {e : Tensor × List Byte} (hat : s.atOp m cAttend = some a)
  (hjobs : (s.stream m).jobs = j :: rest) (hexp : s.expansion m a.b.ctx = some e)

include hat hjobs hexp

theorem attendJob_of_held (h : s.jobBlocked a (memberOf a.b j.member) j = true ∨ (s.freeEngines m).length < gangOf j) :
    s.attendJob m [] = s := by
  rw [attendJob, hat]
  dsimp only
  rw [hjobs, hexp]
  exact if_pos (by simpa using h)

theorem attendJob_of_free (hcopied : s.jobBlocked a (memberOf a.b j.member) j = false) (hgang : gangOf j ≤ (s.freeEngines m).length) :
    ∃ t, GangTaken m s t ∧ s.attendJob m [] =
      let u := (attendTokens m a (memberOf a.b j.member) e.2 j.toks (writeRovings m a (memberOf a.b j.member) j.toks t)).modStream m
        (fun x => { x with jobs := rest })
      if rest.isEmpty then u.complete_ m a else u := by
  refine ⟨_, (s.gangTaken_takeGang m a (memberOf a.b j.member) j).hbmMoved
    ((s.takeGang m a (memberOf a.b j.member) j).homeStack a.b.ctx a.layer)
    (512 * ((jobPositions a (memberOf a.b j.member) j).length + j.toks.length)), ?_⟩
  rw [attendJob, hat]
  dsimp only
  rw [hjobs, hexp]
  refine (if_neg (by simp [hcopied, hgang])).trans ?_
  rfl

end

end State

section

open State

variable {s : State} {m : Nat} {a : At} (hm : m < 4) (hruns : s.mastRuns m = true)

include hm hruns

theorem completes_expand (hat : s.atOp m cExpand = some a) (hlt : a.pos + 1 < a.ops.length) : Completes (.expand m none) s (fun t =>
    t.WentOn m a ∧ (if (s.stream m).latest = 0 then (t.stream m).latest = 1 ∧ (t.stream m).buf1 = some (a.tensor (opA10 a.op)) ∧
        (t.stream m).buf0 = (s.stream m).buf0
      else (t.stream m).latest = 0 ∧ (t.stream m).buf0 = some (a.tensor (opA10 a.op)) ∧ (t.stream m).buf1 = (s.stream m).buf1) ∧
    t = { s with streams := t.streams }) := by
  obtain ⟨u, n, hmove, hstream, hop⟩ := expand_eq hat
  generalize a.tensor (opA10 a.op) = k at hop ⊢
  have hmoved : StreamsMove s (u.modStream m (loadBuffer k)) := hmove.trans (streamsMove_modStream ..)
  have hbusy := (atOperation_of_atOp hat).busy
  refine completes_wentOn hm hruns hlt (f := (·.expand m none)) (fun _ => rfl) hop ?_ hmoved.keepBoot_eq
    ⟨?_, hmoved.trans (streamsMove_complete _ m hlt)⟩
  · rw [stream_modStream, busy_loadBuffer, hstream, stream_issue]
    exact hbusy
  · have hturn := loadBuffer_turns k (u.stream m)
    have hbuffers : (u.stream m).latest = (s.stream m).latest ∧ (u.stream m).buf0 = (s.stream m).buf0 ∧
        (u.stream m).buf1 = (s.stream m).buf1 := by
      rw [hstream, stream_issue]
      exact ⟨rfl, rfl, rfl⟩
    obtain ⟨hlatest, hbuf0, hbuf1⟩ := hbuffers
    rw [hlatest, hbuf0, hbuf1] at hturn
    rw [stream_complete _ m hlt, stream_modStream]
    exact hturn

theorem completes_attend (hat : s.atOp m cAttend = some a) (hfirst : (s.stream m).started = false) : Completes (.attend m none) s (fun t =>
    (t.stream m).started = true ∧ (t.stream m).wait = 7 ∧ (t.stream m).pos = (s.stream m).pos ∧ (t.stream m).jobs = blockJobs a ∧
    t = { s with streams := t.streams }) := by
  have hmove : StreamsMove s (((s.issue m a).modStream m (fun x => { x with jobs := blockJobs a })).waits m 7) :=
    ((streamsMove_issue s m a).trans (streamsMove_modStream ..)).trans (streamsMove_modStream ..)
  refine completes_of_streamsMove (f := (·.attend m none)) (fun _ => rfl) hm hruns (attend_eq hat hfirst) hmove ?_
  rw [stream_waits, stream_modStream, stream_issue]
  exact ⟨rfl, rfl, rfl, rfl, hmove⟩

section

variable {j : AttJob} {rest : List AttJob} {e : Tensor × List Byte} (hat : s.atOp m cAttend = some a)
  (hjobs : (s.stream m).jobs = j :: rest) (hexp : s.expansion m a.b.ctx = some e)

include hat hjobs hexp

theorem completes_attendJob_held (h : s.jobBlocked a (memberOf a.b j.member) j = true ∨ (s.freeEngines m).length < gangOf j) :
    Completes (.attendJobStart m []) s (fun t => t = s) :=
  completes_of_keepBoot_eq (f := (·.attendJob m [])) (fun _ => rfl) hm hruns (attendJob_of_held hat hjobs hexp h)
    (keepBoot_of rfl rfl rfl rfl rfl rfl) rfl

theorem completes_attendJob_free (hlt : a.pos + 1 < a.ops.length) (hcopied : s.jobBlocked a (memberOf a.b j.member) j = false)
    (hgang : gangOf j ≤ (s.freeEngines m).length) (hwritable : s.jobReadOnly a (memberOf a.b j.member) j = false) :
    let u := writeRovings m a (memberOf a.b j.member) j.toks s
    Completes (.attendJobStart m []) s (fun t =>
      t.hbm = u.hbm ∧ t.store = (attendTokens m a (memberOf a.b j.member) e.2 j.toks u).store ∧ (t.stream m).jobs = rest ∧
      (t.stream m).attTokens = (s.stream m).attTokens + BitVec.ofNat 64 j.toks.length ∧
      (if rest = [] then t.WentOn m a else (t.stream m).pos = a.pos) ∧
      t = { s with
        store := t.store
        streams := t.streams
        hbm := t.hbm }) := by
  obtain ⟨t, ⟨hmove, engines, moved, hstream⟩, hjob⟩ := attendJob_of_free hat hjobs hexp hcopied hgang
  obtain ⟨w, ⟨empty, hcount⟩, hrun⟩ := attendTokens_writeRovings (takesRoving_of_jobReadOnly hwritable) m e.2 t.streams
  rw [← show t = { s with streams := t.streams } from hmove] at hrun
  rw [hrun] at hjob
  intro u
  generalize hx : ({ s with
    streams := w
    hbm := u.hbm
    store := (attendTokens m a (memberOf a.b j.member) e.2 j.toks u).store } : State) = x at hjob
  have hafter : (x.modStream m (fun x => { x with jobs := rest })).stream m = { s.stream m with
      engines := engines
      moved := moved
      attTokens := (s.stream m).attTokens + BitVec.ofNat 64 j.toks.length
      attEmpty := empty
      jobs := rest } := by
    have hxw : x.stream m = tabGet {} w m := by rw [← hx]; rfl
    rw [stream_modStream, hxw, hcount, show tabGet {} t.streams m = t.stream m from rfl, hstream]
  have hbeside : ∀ t, StreamsMove x t → s.keepBoot t = t ∧ t.hbm = u.hbm ∧
      t.store = (attendTokens m a (memberOf a.b j.member) e.2 j.toks u).store ∧ t = { s with
        store := t.store
        streams := t.streams
        hbm := t.hbm } := fun t ht => by
    rw [show t = { x with streams := t.streams } from ht, ← hx]
    exact ⟨keepBoot_of rfl rfl rfl rfl rfl rfl, rfl, rfl, rfl⟩
  have hnext := streamsMove_modStream x m (fun x => { x with jobs := rest })
  generalize x.modStream m (fun x => { x with jobs := rest }) = y at hjob hafter hnext
  by_cases hlast : rest = []
  · have hf : s.attendJob m [] = y.complete_ m a := hjob.trans (if_pos (List.isEmpty_iff.2 hlast))
    obtain ⟨hkeep, hhbm, hstore, hframe⟩ := hbeside _ (hnext.trans (streamsMove_complete y m hlt))
    have hgo := wentOn_complete ((congrArg Stream.busy hafter).trans (atOperation_of_atOp hat).busy) hlt
    refine completes_of_keepBoot_eq (f := (·.attendJob m [])) (fun _ => rfl) hm hruns hf hkeep ⟨hhbm, hstore, ?_, ?_, ?_, hframe⟩
    · rw [stream_complete y m hlt, hafter]
    · rw [stream_complete y m hlt, hafter]
    · rw [if_pos hlast]
      exact hgo
  · have hf : s.attendJob m [] = y := hjob.trans (if_neg (mt List.isEmpty_iff.1 hlast))
    obtain ⟨hkeep, hhbm, hstore, hframe⟩ := hbeside _ hnext
    refine completes_of_keepBoot_eq (f := (·.attendJob m [])) (fun _ => rfl) hm hruns hf hkeep ⟨hhbm, hstore, ?_, ?_, ?_, hframe⟩
    · rw [hafter]
    · rw [hafter]
    · rw [if_neg hlast, hafter]
      exact (pos_of_atOp hat).symm

end

end

/-- Settles O27: what a job writes to its pages and to the store does not go by the streams, which the gang it takes, the bytes moved and the
counts of tokens change before and meanwhile. -/
theorem attentionOperations : Obligations.AttentionOperations := by
  intro s m a hm hruns hlt
  refine ⟨fun hat => completes_expand hm hruns hat hlt, completes_attend hm hruns, fun j rest e hat hjobs hexp => ⟨?_, ?_⟩⟩
  · exact fun hcopied hgang hwritable => completes_attendJob_free hm hruns hat hjobs hexp hlt hcopied hgang hwritable
  · exact completes_attendJob_held hm hruns hat hjobs hexp

end Sys2Proof.Machine

/-! SEND, RECV and GATHER (R175 to R177), of a block of one token. -/

namespace Sys2Proof.Machine

namespace State

variable {s t u : State} {m n : Nat} {a : At} {kj : Nat × Nat}

/-! Tokens that an operation has not finished. -/

theorem leftToks_of_none_done (hblock : blockToks a.b a.blk = [kj]) (hdone : (s.stream m).done = []) : s.leftToks m a = [0] := by
  simp [leftToks, hblock, hdone, upTo]

theorem leftToks_of_one_done (hblock : blockToks a.b a.blk = [kj]) (hdone : (s.stream m).done = [0]) : s.leftToks m a = [] := by
  simp [leftToks, hblock, hdone, upTo]

/-! SEND (R175). -/

theorem send_eq (hat : s.atOp m cSend = some a) (hblock : blockToks a.b a.blk = [kj]) (hdone : (s.stream m).done = []) :
    s.send m none = (s.issue m a).sendRows m a [0] := by
  rw [send, hat]
  dsimp only
  rw [readCheck, if_neg (atOperation_of_atOp hat).issue_running, leftToks_of_none_done hblock]
  rw [stream_issue, hdone]

/-- A row that a SEND within the device puts into an inbox: what it is of and what it holds. -/
structure SentRow (s : State) (m : Nat) (a : At) (r : InRow) : Prop where
  srcRank : r.srcRank = s.jobRank
  srcMast : r.srcMast = m
  tag : r.tag = opA10 a.op
  step : r.step = a.b.step
  block : r.block = a.blk
  tok : r.tok = 0
  width : r.width = opWidth a.op
  fmt : r.fmt = opFmtS a.op
  bytes : r.bytes = s.rowBytes m (opSrcA a.op) (rowLines (opWidth a.op) (opFmtS a.op)) 0

theorem inboxOf_setInbox (s : State) (m : Nat) (l : List InRow) : (s.setInbox m l).inboxOf m = l := tabGet_tabSet_self ..

theorem inboxOf_setInbox_ne {k : Nat} (s : State) (l : List InRow) (h : k ≠ m) : (s.setInbox m l).inboxOf k = s.inboxOf k :=
  tabGet_tabSet_ne _ _ _ _ h

theorem sendRow_within (hrank : opA12 a.op = 0xFFFF) (hroom : s.inboxRoom (opB14 a.op % 4) (opWidth a.op) (opFmtS a.op) = true) :
    ∃ r, SentRow s m a r ∧
      s.sendRow m a 0 = (s.setInbox (opB14 a.op % 4) (s.inboxOf (opB14 a.op % 4) ++ [r]), true) :=
  ⟨_, ⟨rfl, rfl, rfl, rfl, rfl, rfl, rfl, rfl, rfl⟩, (if_pos (.inl hrank)).trans (if_pos hroom)⟩

theorem sendRow_full (hrank : opA12 a.op = 0xFFFF) (hroom : s.inboxRoom (opB14 a.op % 4) (opWidth a.op) (opFmtS a.op) = false) :
    s.sendRow m a 0 = (s, false) :=
  (if_pos (.inl hrank)).trans (if_neg (Bool.eq_false_iff.1 hroom))

/-- A packet is handed over alike whatever the streams are. -/
theorem sendData_streams (s : State) (v : Tab Stream) (rank vc typ : Nat) (desc payload : List Byte) :
    ({ s with streams := v } : State).sendData rank vc typ desc payload = { s.sendData rank vc typ desc payload with streams := v } := by
  have hroute : ({ s with streams := v } : State).routeTo (({ s with streams := v } : State).rankId rank) vc =
    s.routeTo (s.rankId rank) vc := rfl
  have hsize : ({ s with streams := v } : State).jobSize = s.jobSize := rfl
  rw [sendData, sendData, hroute, hsize]
  split
  · rfl
  · split
    · rfl
    · rfl

theorem foldl_streams {α : Type} {f : State → α → State}
    (hf : ∀ (s : State) (x : α) (v : Tab Stream), f { s with streams := v } x = { f s x with streams := v }) (v : Tab Stream) :
    ∀ (l : List α) (s : State), l.foldl f { s with streams := v } = { l.foldl f s with streams := v }
  | [], _ => rfl
  | x :: l, s => by rw [List.foldl_cons, List.foldl_cons, hf, foldl_streams hf v l]

section

variable (hnear : opA12 a.op ≠ 0xFFFF) (haway : opA12 a.op ≠ s.jobRank)

include hnear haway

theorem sendRow_away (m : Nat) : ∃ g, s.sendRow m a 0 = ({ s with rig := g }, true) := by
  obtain ⟨g, hg⟩ : ∃ g, (s.sendRow m a 0).1 = { s with rig := g } := by
    rw [show s.sendRow m a 0 = _ from if_neg (not_or.2 ⟨hnear, haway⟩)]
    refine foldl_frame (fun s t => ∃ g, t = { s with rig := g }) (fun _ => ⟨_, rfl⟩) ?_ _ (fun u i => u.sendData_frame ..) _ s
    rintro s t u ⟨g, rfl⟩ ⟨h, rfl⟩
    exact ⟨h, rfl⟩
  have hsent : s.sendRow m a 0 = ((s.sendRow m a 0).1, true) := by
    rw [show s.sendRow m a 0 = _ from if_neg (not_or.2 ⟨hnear, haway⟩)]
  exact ⟨g, by rw [hsent, hg]⟩

theorem sendRow_away_streams (m : Nat) (v : Tab Stream) :
    ({ s with streams := v } : State).sendRow m a 0 = ({ (s.sendRow m a 0).1 with streams := v }, true) := by
  rw [show s.sendRow m a 0 = _ from if_neg (not_or.2 ⟨hnear, haway⟩)]
  refine (if_neg (not_or.2 ⟨hnear, haway⟩)).trans (congrArg (·, true) ?_)
  exact foldl_streams (fun u i w => sendData_streams u w ..) v _ s

end

/-- The operation's one token is among those done. -/
def tokenDone (s : State) (m : Nat) : State := s.modStream m (fun x => { x with done := x.done ++ [0] })

theorem rowsInside_tokenDone (s : State) (m : Nat) : (s.tokenDone m).rowsInside m = s.rowsInside m := rfl

theorem sendRows_taken (h : s.sendRow m a 0 = (u, true)) :
    s.sendRows m a [0] = if (u.tokenDone m).rowsInside m then (u.tokenDone m).waits m 3 else (u.tokenDone m).complete_ m a := by
  rw [sendRows, h]
  rfl

theorem sendRows_held (h : s.sendRow m a 0 = (u, false)) : s.sendRows m a [0] = u.waits m 3 := by
  rw [sendRows, h]

/-! RECV (R176). -/

theorem recv_eq (hat : s.atOp m cRecv = some a) (hblock : blockToks a.b a.blk = [kj]) (hdone : (s.stream m).done = []) :
    s.recv m none = (let u := (s.issue m a).recvRows m a [0]
      if u.integ.phase ≠ 0 then u else if (u.leftToks m a).isEmpty then u.complete_ m a else u.waits m 3) := by
  rw [recv, hat]
  dsimp only
  rw [readCheck, if_neg (atOperation_of_atOp hat).issue_running, leftToks_of_none_done hblock]
  rw [stream_issue, hdone]

/-- The row that a RECV takes leaves its inbox for the activation store. -/
def receiveRow (s : State) (m : Nat) (a : At) (r : InRow) : State :=
  let s := s.putLines m (opDst a.op) (rowLines r.width r.fmt) 0 r.bytes r.ptag
  (((s.setInbox m ((s.inboxOf m).erase r)).hbmMoved (2 * m) (r.width * fmtBytes r.fmt)).tokenDone m)

theorem recvRows_none (h : s.recvRow m a 0 = none) : s.recvRows m a [0] = s := by
  rw [recvRows, h]
  rfl

theorem recvRows_misfit {r : InRow} (h : s.recvRow m a 0 = some r) (hmisfit : r.width ≠ opWidth a.op ∨ r.fmt ≠ opFmtD a.op) :
    s.recvRows m a [0] = s.recvFault m a 2 := by
  rw [recvRows, h]
  exact if_pos hmisfit

theorem recvRows_taken {r : InRow} (h : s.recvRow m a 0 = some r) (hwidth : r.width = opWidth a.op) (hfmt : r.fmt = opFmtD a.op)
    (hparts : rowLines r.width r.fmt ≤ r.parts) : s.recvRows m a [0] = s.receiveRow m a r := by
  rw [recvRows, h]
  dsimp only
  rw [if_neg (not_or.2 ⟨not_not_intro hwidth, not_not_intro hfmt⟩), if_neg (Nat.not_lt.2 hparts)]
  rfl

theorem streamsMove_receiveRow (s : State) (m : Nat) (a : At) (r : InRow) :
    StreamsMove ((s.putLines m (opDst a.op) (rowLines r.width r.fmt) 0 r.bytes r.ptag).setInbox m ((s.inboxOf m).erase r))
      (s.receiveRow m a r) := by
  have hinbox : (s.putLines m (opDst a.op) (rowLines r.width r.fmt) 0 r.bytes r.ptag).inboxOf m = s.inboxOf m := by
    rw [show s.putLines m (opDst a.op) (rowLines r.width r.fmt) 0 r.bytes r.ptag = _ from putLines_streams s s.streams ..]
    rfl
  rw [receiveRow, hinbox]
  exact (streamsMove_hbmMoved ..).trans (streamsMove_modStream ..)

theorem receiveRow_eq (s : State) (m : Nat) (a : At) (r : InRow) : ∃ v, s.receiveRow m a r = { s with
    streams := v
    inboxes := tabSet [] s.inboxes m ((s.inboxOf m).erase r)
    store := (s.putLines m (opDst a.op) (rowLines r.width r.fmt) 0 r.bytes r.ptag).store } := by
  have hmove := s.streamsMove_receiveRow m a r
  rw [show s.putLines m (opDst a.op) (rowLines r.width r.fmt) 0 r.bytes r.ptag = _ from putLines_streams s s.streams ..] at hmove
  exact ⟨_, hmove⟩

theorem stream_receiveRow (s : State) (m : Nat) (a : At) (r : InRow) : ∃ n, (s.receiveRow m a r).stream m = { s.stream m with
    moved := n
    done := (s.stream m).done ++ [0] } := by
  rw [receiveRow]
  generalize hu : (s.putLines m (opDst a.op) (rowLines r.width r.fmt) 0 r.bytes r.ptag) = u
  have hstream : u.stream m = s.stream m := by
    rw [← hu, show s.putLines m (opDst a.op) (rowLines r.width r.fmt) 0 r.bytes r.ptag = _ from putLines_streams s s.streams ..]
    rfl
  obtain ⟨n, hn⟩ := (u.setInbox m ((u.inboxOf m).erase r)).stream_hbmMoved (2 * m) (r.width * fmtBytes r.fmt) m
  have hkept : (u.setInbox m ((u.inboxOf m).erase r)).stream m = s.stream m := hstream
  rw [hkept] at hn
  exact ⟨n, by rw [tokenDone, stream_modStream, hn]⟩

/-! A RECV that fails halts the job (R176, R339). -/

/-- The job has halted for a fault of mast m's stream at operation `a`. -/
def FaultHalted (s t : State) (m : Nat) (a : At) (cause : BitVec 4) : Prop :=
  (t.stream m).errCause = cause ∧ (t.stream m).errOp = BitVec.ofNat 16 a.num ∧ t.integ.tail = s.integ.tail + 1 ∧ t.integ.phase = 1 ∧
  t.batches = [] ∧ t.hbm = s.hbm

theorem batches_haltHere (h : s.integ.phase = 0) : s.haltHere.batches = [] := by
  obtain ⟨x, hsend⟩ := sendTree_frame (s.enterHalt (s.integ.epoch + 1) s.deviceId 1) s.deviceId pkHalt 1
  obtain ⟨d, y, hwork⟩ := s.haltWork_frame
  rw [haltHere, if_neg (not_not_intro h), hsend, enterHalt, hwork]

theorem LogTouches.hbm_eq (h : s.LogTouches t) : t.hbm = s.hbm := by
  obtain ⟨_, _, _, _, _, _, _, _, _, _, _, _, _, _, _, _, _, rfl⟩ := h
  rfl

theorem faultHalted_recvFault {cause : Nat} (h : s.integ.phase = 0) (hcause : BitVec.ofNat 4 cause ≠ 0) :
    FaultHalted s (s.recvFault m a cause) m a (BitVec.ofNat 4 cause) := by
  rw [recvFault]
  generalize hu : s.modStream m (fun x => { x with errCause := BitVec.ofNat 4 cause, errOp := BitVec.ofNat 16 a.num }) = u
  have hstream : u.stream m = { s.stream m with
      errCause := BitVec.ofNat 4 cause
      errOp := BitVec.ofNat 16 a.num } := by rw [← hu, stream_modStream]
  have hinteg : u.integ = s.integ := by rw [← hu]; rfl
  have hhbm : u.hbm = s.hbm := by rw [← hu]; rfl
  generalize hi : ({ typ := tSequencer, source := m, step := some a.b.step, ctx := some a.b.ctx, detail := (cause <<< 28) + a.num } :
    RecInfo) = i
  obtain ⟨g, x, o, hlog, -, hphase⟩ := u.logOnly_frame .jobFatal i
  have hrun : (u.logOnly .jobFatal i).integ.phase = 0 := by rw [hlog, hphase, hinteg, h]
  have hkept : (u.logOnly .jobFatal i).stream m = u.stream m := by rw [hlog]; rfl
  have htouches := (u.log_touches .jobFatal i).hbm_eq
  rw [log_jobFatal_of_running (by rw [hinteg, h])] at htouches ⊢
  obtain ⟨hhalt, htail, -⟩ := haltHere_of_running hrun
  have hhalted := stream_haltHere hrun (m := m) (by rw [hkept, hstream]; exact hcause)
  rw [hkept, hstream] at hhalted
  exact ⟨congrArg Stream.errCause hhalted, congrArg Stream.errOp hhalted, htail.trans ((tail_logOnly ..).trans (by rw [hinteg])), hhalt,
    batches_haltHere hrun, htouches.trans hhbm⟩

/-! GATHER (R177). -/

/-- The row of the embedding that a token names, as the tensor holds it. -/
def embeddingRow (s : State) (a : At) (x : Tensor) (id : Nat) : List Nat :=
  unpackElems (opFmtD a.op) (opWidth a.op) (s.regionRead a.b.ctx x.stack (x.offset + id * opWidth a.op * fmtBytes (opFmtD a.op))
    (opWidth a.op * fmtBytes (opFmtD a.op)))

/-- ID of a token vector. -/
def tokenId (a : At) (kj : Nat × Nat) : Nat := (memberOf a.b kj.1).toks.getD kj.2 0

theorem embeddingRow_issue (s : State) (m : Nat) (a : At) (x : Tensor) (id : Nat) :
    (s.issue m a).embeddingRow a x id = s.embeddingRow a x id :=
  congrArg (unpackElems (opFmtD a.op) (opWidth a.op)) (regionRead_streams ..)

theorem gather_foreign (hat : s.atOp m cGather = some a) (hblock : blockToks a.b a.blk = [kj])
    (h : s.vocabOf a.b.ctx ≤ tokenId a kj) : s.gather m none =
    (((s.issue m a).writeRow m (opDst a.op) (opWidth a.op) (opFmtD a.op) 0 (List.replicate (opWidth a.op) 0)).badToken m a
      kj.1).complete_ m a := by
  rw [gather, hat]
  dsimp only
  rw [readCheck, if_neg (atOperation_of_atOp hat).issue_running, hblock]
  simp only [List.mapIdx_cons, List.mapIdx_nil, List.foldl_cons, List.foldl_nil]
  exact congrArg (fun u : State => u.complete_ m a) (if_pos h)

theorem gather_known (hat : s.atOp m cGather = some a) (hblock : blockToks a.b a.blk = [kj])
    (h : tokenId a kj < s.vocabOf a.b.ctx) {x : Tensor} (hx : s.tensorOf a.b.ctx (a.tensor (opA10 a.op)) = some x) : s.gather m none =
    (((s.issue m a).hbmMoved x.stack (opWidth a.op * fmtBytes (opFmtD a.op))).writeRow m (opDst a.op) (opWidth a.op) (opFmtD a.op) 0
      (s.embeddingRow a x (tokenId a kj))).complete_ m a := by
  have hxi : (s.issue m a).tensorOf a.b.ctx (a.tensor (opA10 a.op)) = some x := hx
  rw [gather, hat]
  dsimp only
  rw [readCheck, if_neg (atOperation_of_atOp hat).issue_running, hblock]
  simp only [List.mapIdx_cons, List.mapIdx_nil, List.foldl_cons, List.foldl_nil, hxi]
  rw [← embeddingRow_issue s m]
  exact congrArg (fun u : State => u.complete_ m a) (if_neg (Nat.not_le.2 h))

theorem entry_modEntry (s : State) (i : Nat) (f : SeqEntry → SeqEntry) : (s.modEntry i f).entry i = f (s.entry i) := entry_setEntry ..

theorem entry_modEntry_ne {i k : Nat} (s : State) (f : SeqEntry → SeqEntry) (h : k ≠ i) : (s.modEntry i f).entry k = s.entry k :=
  tabGet_tabSet_ne _ _ _ _ h

/-- A token at or above VOCAB is recorded, and the step of its sequence fails. -/
theorem badToken_eq (s : State) (m k : Nat) (hlocal : a.b.remote = false) (hlive : a.b.replay = false) : s.badToken m a k =
    (s.modStream m (fun x => { x with errCause := 4, errOp := BitVec.ofNat 16 a.num })).modEntry (memberOf a.b k).idx (fun e => { e with
      stepFault := if e.stepFault = 0 then 2 else e.stepFault }) := by
  rw [badToken, hlocal, hlive]
  rfl

end State

section

open State

variable {s t u : State} {m : Nat} {a : At} {kj : Nat × Nat} (hm : m < 4) (hruns : s.mastRuns m = true)

include hm hruns

/-! SEND. -/

section

variable (hat : s.atOp m cSend = some a) (hblock : blockToks a.b a.blk = [kj]) (hdone : (s.stream m).done = [])

include hat hblock hdone

theorem completes_send_within (hlt : a.pos + 1 < a.ops.length) (hrank : opA12 a.op = 0xFFFF) (hinside : s.rowsInside m = false)
    (hroom : s.inboxRoom (opB14 a.op % 4) (opWidth a.op) (opFmtS a.op) = true) : Completes (.send m none) s (fun t => t.WentOn m a ∧
      (∃ r, t.inboxOf (opB14 a.op % 4) = s.inboxOf (opB14 a.op % 4) ++ [r] ∧ SentRow s m a r) ∧
      (∀ k, k ≠ opB14 a.op % 4 → t.inboxOf k = s.inboxOf k) ∧
      t = { s with
        streams := t.streams
        inboxes := t.inboxes }) := by
  obtain ⟨r, hr, hsent⟩ := sendRow_within (s := s.issue m a) (m := m) hrank hroom
  have hop := (send_eq hat hblock hdone).trans (sendRows_taken hsent)
  generalize hu : (s.issue m a).setInbox (opB14 a.op % 4) ((s.issue m a).inboxOf (opB14 a.op % 4) ++ [r]) = u at hop
  have hstill : (u.tokenDone m).rowsInside m = false := by rw [rowsInside_tokenDone, ← hu]; exact hinside
  rw [if_neg (Bool.eq_false_iff.1 hstill)] at hop
  have hstream : u.stream m = (s.issue m a).stream m := by rw [← hu]; rfl
  have hnamed : u.inboxOf (opB14 a.op % 4) = s.inboxOf (opB14 a.op % 4) ++ [r] := by
    rw [← hu]
    exact inboxOf_setInbox ..
  have hothers : ∀ k, k ≠ opB14 a.op % 4 → u.inboxOf k = s.inboxOf k := fun k hk => by
    rw [← hu]
    exact inboxOf_setInbox_ne (s.issue m a) _ hk
  have hmove : StreamsMove u ((u.tokenDone m).complete_ m a) := (streamsMove_modStream ..).trans (streamsMove_complete _ m hlt)
  refine completes_wentOn (f := (·.send m none)) hm hruns hlt (fun _ => rfl) hop ?_ ?_ ?_
  · rw [tokenDone, stream_modStream, hstream, stream_issue]
    exact (atOperation_of_atOp hat).busy
  · refine (streamsMove_modStream ..).keepBoot_of_kept (u := u) ?_
    rw [← hu]
    exact keepBoot_of rfl rfl rfl rfl rfl rfl
  · rw [show (u.tokenDone m).complete_ m a = _ from hmove]
    refine ⟨⟨r, hnamed, hr.1, hr.2, hr.3, hr.4, hr.5, hr.6, hr.7, hr.8, hr.9⟩, hothers, ?_⟩
    rw [← hu]
    rfl

theorem completes_send_full (hrank : opA12 a.op = 0xFFFF)
    (hroom : s.inboxRoom (opB14 a.op % 4) (opWidth a.op) (opFmtS a.op) = false) : Completes (.send m none) s (fun t =>
      (t.stream m).wait = 3 ∧ (t.stream m).pos = (s.stream m).pos ∧ t = { s with streams := t.streams }) := by
  have hop := (send_eq hat hblock hdone).trans (sendRows_held (sendRow_full (s := s.issue m a) (m := m) hrank hroom))
  have hmove : StreamsMove s ((s.issue m a).waits m 3) := (streamsMove_issue s m a).trans (streamsMove_modStream ..)
  refine completes_of_streamsMove (f := (·.send m none)) (fun _ => rfl) hm hruns hop hmove ?_
  rw [stream_waits, stream_issue]
  exact ⟨rfl, rfl, hmove⟩

theorem completes_send_away (hlt : a.pos + 1 < a.ops.length) (hnear : opA12 a.op ≠ 0xFFFF) (haway : opA12 a.op ≠ s.jobRank) :
    let u := (s.sendRow m a 0).1
    Completes (.send m none) s (fun t => t.rig = u.rig ∧ (t.stream m).busy = true ∧
      (if u.rowsInside m then (t.stream m).wait = 3 ∧ (t.stream m).pos = (s.stream m).pos ∧ (t.stream m).done = [0] else t.WentOn m a) ∧
      t = { s with
        streams := t.streams
        rig := t.rig }) := by
  intro u
  obtain ⟨g, hg⟩ := sendRow_away hnear haway m
  have hu : u = { s with rig := g } := congrArg Prod.fst hg
  have hsent : (s.issue m a).sendRow m a 0 = ({ u with streams := (s.issue m a).streams }, true) :=
    sendRow_away_streams hnear haway m _
  have hop := (send_eq hat hblock hdone).trans (sendRows_taken hsent)
  generalize hy : ({ u with streams := (s.issue m a).streams } : State).tokenDone m = y at hop
  have hstream : y.stream m = { (s.issue m a).stream m with done := [0] } := by
    rw [← hy, tokenDone, stream_modStream]
    refine congrArg (fun l => { (s.issue m a).stream m with done := l }) ?_
    exact congrArg (· ++ [0]) ((congrArg Stream.done (stream_issue s m a)).trans hdone)
  have hbusy : (y.stream m).busy = true := by
    rw [hstream, stream_issue]
    exact (atOperation_of_atOp hat).busy
  have hinside : y.rowsInside m = u.rowsInside m := by rw [← hy, rowsInside_tokenDone]; rfl
  have hbeside : ∀ t, StreamsMove y t → s.keepBoot t = t ∧ t.rig = u.rig ∧ t = { s with
      streams := t.streams
      rig := t.rig } := fun t ht => by
    rw [show t = { y with streams := t.streams } from ht, ← hy, hu]
    exact ⟨keepBoot_of rfl rfl rfl rfl rfl rfl, rfl, rfl⟩
  rw [hinside] at hop
  by_cases hwaits : u.rowsInside m = true
  · rw [if_pos hwaits] at hop
    obtain ⟨hkeep, hrig, hframe⟩ := hbeside _ (streamsMove_modStream y m (fun x => { x with wait := 3 }))
    refine completes_of_keepBoot_eq (f := (·.send m none)) (fun _ => rfl) hm hruns hop hkeep ⟨hrig, ?_, ?_, hframe⟩
    · rw [stream_waits]
      exact hbusy
    · rw [if_pos hwaits, stream_waits, hstream, stream_issue]
      exact ⟨rfl, rfl, rfl⟩
  · rw [if_neg hwaits] at hop
    obtain ⟨hkeep, hrig, hframe⟩ := hbeside _ (streamsMove_complete y m hlt)
    refine completes_of_keepBoot_eq (f := (·.send m none)) (fun _ => rfl) hm hruns hop hkeep ⟨hrig, ?_, ?_, hframe⟩
    · exact (wentOn_complete hbusy hlt).1
    · rw [if_neg hwaits]
      exact wentOn_complete hbusy hlt

end

/-! RECV. -/

theorem completes_faultHalted {i : Instr} {f : State → State} {c : BitVec 4} (hi : StreamCommand i m f) (hf : f s = t)
    (h : FaultHalted s t m a c) : Completes i s (fun t => FaultHalted s t m a c) :=
  completes_streamCommand hi hm hruns (by rw [hf]; exact h)

theorem completes_recvTimeout (hat : s.atOp m cRecv = some a) (hstarted : (s.stream m).started = true) (htmo : (s.stream m).tmo ≠ 0)
    (hlate : (s.stream m).since + (s.stream m).tmo.toNat < s.now) : Completes (.recvTimeout m) s (fun t => FaultHalted s t m a 1) := by
  have hop : s.recvTimeout m = s.recvFault m a 1 := by
    rw [recvTimeout, hat]
    exact if_pos ⟨hstarted, htmo, hlate⟩
  exact completes_faultHalted (f := (·.recvTimeout m)) hm hruns (fun _ => rfl) hop
    (faultHalted_recvFault (atOperation_of_atOp hat).phase (by decide))

section

variable (hat : s.atOp m cRecv = some a) (hblock : blockToks a.b a.blk = [kj]) (hdone : (s.stream m).done = [])

include hat hblock hdone

theorem completes_recv_none (hnone : s.recvRow m a 0 = none) : Completes (.recv m none) s (fun t =>
    (t.stream m).wait = 3 ∧ (t.stream m).pos = (s.stream m).pos ∧ t = { s with streams := t.streams }) := by
  have hleft : (s.issue m a).leftToks m a = [0] :=
    leftToks_of_none_done hblock ((congrArg Stream.done (stream_issue s m a)).trans hdone)
  have hop := recv_eq hat hblock hdone
  rw [recvRows_none (s := s.issue m a) hnone] at hop
  have hwaits : s.recv m none = (s.issue m a).waits m 3 := hop.trans
    ((if_neg (atOperation_of_atOp hat).issue_running).trans (if_neg (by rw [hleft]; decide)))
  have hmove : StreamsMove s ((s.issue m a).waits m 3) := (streamsMove_issue s m a).trans (streamsMove_modStream ..)
  refine completes_of_streamsMove (f := (·.recv m none)) (fun _ => rfl) hm hruns hwaits hmove ?_
  rw [stream_waits, stream_issue]
  exact ⟨rfl, rfl, hmove⟩

variable {r : InRow} (hrow : s.recvRow m a 0 = some r)

include hrow

theorem completes_recv_misfit (hmisfit : r.width ≠ opWidth a.op ∨ r.fmt ≠ opFmtD a.op) :
    Completes (.recv m none) s (fun t => FaultHalted s t m a 2) := by
  have hfault : FaultHalted (s.issue m a) ((s.issue m a).recvFault m a 2) m a 2 :=
    faultHalted_recvFault (cause := 2) (atOperation_of_atOp hat).phase (by decide)
  obtain ⟨-, -, -, hphase, -, -⟩ := id hfault
  have hop := recv_eq hat hblock hdone
  rw [recvRows_misfit (s := s.issue m a) hrow hmisfit] at hop
  have hhalts : s.recv m none = (s.issue m a).recvFault m a 2 := hop.trans (if_pos (by rw [hphase]; decide))
  exact completes_faultHalted (f := (·.recv m none)) hm hruns (fun _ => rfl) hhalts hfault

theorem completes_recv_taken (hlt : a.pos + 1 < a.ops.length) (hwidth : r.width = opWidth a.op) (hfmt : r.fmt = opFmtD a.op)
    (hparts : rowLines r.width r.fmt ≤ r.parts) : Completes (.recv m none) s (fun t =>
      t.WentOn m a ∧ t.inboxOf m = (s.inboxOf m).erase r ∧ (∀ k, k ≠ m → t.inboxOf k = s.inboxOf k) ∧
      t.store = (s.putLines m (opDst a.op) (rowLines r.width r.fmt) 0 r.bytes r.ptag).store ∧
      t = { s with
        streams := t.streams
        inboxes := t.inboxes
        store := t.store }) := by
  have hop := recv_eq hat hblock hdone
  rw [recvRows_taken (s := s.issue m a) hrow hwidth hfmt hparts] at hop
  obtain ⟨n, hstream⟩ := (s.issue m a).stream_receiveRow m a r
  obtain ⟨v, htaken⟩ := (s.issue m a).receiveRow_eq m a r
  rw [show (s.issue m a).putLines m (opDst a.op) (rowLines r.width r.fmt) 0 r.bytes r.ptag = _ from putLines_streams s _ ..] at htaken
  generalize (s.issue m a).receiveRow m a r = u at hop hstream htaken
  have hleft : u.leftToks m a = [] := leftToks_of_one_done hblock (by rw [hstream, stream_issue, hdone]; rfl)
  have hphase : ¬ u.integ.phase ≠ 0 := by rw [htaken]; exact (atOperation_of_atOp hat).issue_running
  have hgoes : s.recv m none = u.complete_ m a := hop.trans ((if_neg hphase).trans (if_pos (by rw [hleft]; rfl)))
  refine completes_wentOn (f := (·.recv m none)) hm hruns hlt (fun _ => rfl) hgoes ?_ ?_ ?_
  · rw [hstream, stream_issue]
    exact (atOperation_of_atOp hat).busy
  · rw [htaken]
    exact keepBoot_of rfl rfl rfl rfl rfl rfl
  · rw [complete_of_lt _ m hlt, htaken]
    exact ⟨tabGet_tabSet_self .., fun k hk => tabGet_tabSet_ne _ _ _ _ hk, rfl, rfl⟩

end

/-! GATHER. -/

section

variable (hat : s.atOp m cGather = some a) (hblock : blockToks a.b a.blk = [kj]) (hlt : a.pos + 1 < a.ops.length)

include hat hblock hlt

theorem completes_gather_foreign (hlocal : a.b.remote = false) (hlive : a.b.replay = false) (h : s.vocabOf a.b.ctx ≤ tokenId a kj) :
    let e := (memberOf a.b kj.1).idx
    Completes (.gather m none) s (fun t =>
      t.WentOn m a ∧ (t.stream m).errCause = 4 ∧ (t.stream m).errOp = BitVec.ofNat 16 a.num ∧
      t.store = (s.writeRow m (opDst a.op) (opWidth a.op) (opFmtD a.op) 0 (List.replicate (opWidth a.op) 0)).store ∧
      t.entry e = { s.entry e with stepFault := if (s.entry e).stepFault = 0 then 2 else (s.entry e).stepFault } ∧
      (∀ k, k ≠ e → t.entry k = s.entry k) ∧
      t = { s with
        store := t.store
        streams := t.streams
        entries := t.entries }) := by
  have hop := gather_foreign hat hblock h
  rw [badToken_eq _ m kj.1 hlocal hlive, show (s.issue m a).writeRow m (opDst a.op) (opWidth a.op) (opFmtD a.op) 0 _ = _ from
    writeRow_streams s _ ..] at hop
  intro e
  generalize hw : modStream _ m (fun x => { x with errCause := 4, errOp := BitVec.ofNat 16 a.num }) = w at hop
  have hstream : w.stream m = { (s.issue m a).stream m with
      errCause := 4
      errOp := BitVec.ofNat 16 a.num } :=
    hw ▸ stream_modStream _ m (fun x => { x with errCause := 4, errOp := BitVec.ofNat 16 a.num })
  have hrows : StreamsMove { s with
      streams := (s.issue m a).streams
      store := (s.writeRow m (opDst a.op) (opWidth a.op) (opFmtD a.op) 0 (List.replicate (opWidth a.op) 0)).store } w :=
    hw ▸ streamsMove_modStream ..
  obtain ⟨-, hstore, hframe⟩ := hrows.rows
  have hentry : ∀ k, w.entry k = s.entry k := fun k => by rw [hframe]; rfl
  generalize hu : w.modEntry _ _ = u at hop
  have hmine : u.entry e = { s.entry e with stepFault := if (s.entry e).stepFault = 0 then 2 else (s.entry e).stepFault } := by
    rw [← hu, entry_modEntry, hentry]
  have hothers : ∀ k, k ≠ e → u.entry k = s.entry k := fun k hk => by rw [← hu, entry_modEntry_ne w _ hk, hentry]
  have hkept : u.stream m = w.stream m := by rw [← hu]; rfl
  refine completes_wentOn (f := (·.gather m none)) hm hruns hlt (fun _ => rfl) hop ?_ ?_ ?_
  · rw [hkept, hstream, stream_issue]
    exact (atOperation_of_atOp hat).busy
  · rw [← hu, hframe]
    exact keepBoot_of rfl rfl rfl rfl rfl rfl
  · rw [stream_complete u m hlt, hkept, hstream, show u.complete_ m a = _ from streamsMove_complete u m hlt]
    refine ⟨rfl, rfl, ?_, hmine, hothers, ?_⟩
    · rw [← hu]
      exact hstore
    · rw [← hu, hframe]
      rfl

theorem completes_gather_known (h : tokenId a kj < s.vocabOf a.b.ctx) {x : Tensor}
    (hx : s.tensorOf a.b.ctx (a.tensor (opA10 a.op)) = some x) : Completes (.gather m none) s (fun t => t.WentOn m a ∧
      t.store = (s.writeRow m (opDst a.op) (opWidth a.op) (opFmtD a.op) 0 (s.embeddingRow a x (tokenId a kj))).store ∧
      t = { s with
        store := t.store
        streams := t.streams }) := by
  have hop := gather_known hat hblock h hx
  obtain ⟨n, hmoved⟩ := (s.issue m a).stream_hbmMoved x.stack (opWidth a.op * fmtBytes (opFmtD a.op)) m
  have hmove := (streamsMove_issue s m a).trans (streamsMove_hbmMoved _ x.stack (opWidth a.op * fmtBytes (opFmtD a.op)))
  generalize (s.issue m a).hbmMoved x.stack (opWidth a.op * fmtBytes (opFmtD a.op)) = w at hop hmoved hmove
  have hrow : w.writeRow m (opDst a.op) (opWidth a.op) (opFmtD a.op) 0 (s.embeddingRow a x (tokenId a kj)) = { s with
      streams := w.streams
      store := (s.writeRow m (opDst a.op) (opWidth a.op) (opFmtD a.op) 0 (s.embeddingRow a x (tokenId a kj))).store } := by
    rw [show w = { s with streams := w.streams } from hmove]
    exact writeRow_streams ..
  generalize w.writeRow m (opDst a.op) (opWidth a.op) (opFmtD a.op) 0 (s.embeddingRow a x (tokenId a kj)) = u at hop hrow
  have hrows : StreamsMove { s with
      streams := w.streams
      store := (s.writeRow m (opDst a.op) (opWidth a.op) (opFmtD a.op) 0 (s.embeddingRow a x (tokenId a kj))).store } u := by
    rw [hrow]
    rfl
  have hstream : u.stream m = w.stream m := by rw [hrow]; rfl
  refine completes_wentOn (f := (·.gather m none)) hm hruns hlt (fun _ => rfl) hop ?_ hrows.rows.1
    (hrows.trans (streamsMove_complete u m hlt)).rows.2
  rw [hstream, hmoved, stream_issue]
  exact (atOperation_of_atOp hat).busy

end

end

/-- Settles O28: the one token of the block is sent, taken or gathered, or is not, and the stream goes on or waits accordingly; packets are handed
over alike whatever the streams are, and what a halt gives up holds neither the error recorded of the stream nor HBM. -/
theorem movementOperations : Obligations.MovementOperations := by
  intro s m a kj hm hruns hlt hblock
  refine ⟨fun hat hdone => ⟨fun hrank hinside => ⟨fun hroom => ?_, ?_⟩, ?_⟩,
    fun hat hdone => ⟨fun r hrow => ?_, fun r hrow => ?_, ?_, ?_⟩, fun x hat hlocal hlive hx => ⟨?_, ?_⟩⟩
  · refine (completes_send_within hm hruns hat hblock hdone hlt hrank hinside hroom).mono ?_
    rintro t ⟨hgo, ⟨r, hbox, hr⟩, hrest⟩
    exact ⟨hgo, ⟨r, hbox, hr.srcRank, hr.srcMast, hr.tag, hr.step, hr.block, hr.tok, hr.width, hr.fmt, hr.bytes⟩, hrest⟩
  · exact completes_send_full hm hruns hat hblock hdone hrank
  · exact completes_send_away hm hruns hat hblock hdone hlt
  · exact completes_recv_taken hm hruns hat hblock hdone hrow hlt
  · exact completes_recv_misfit hm hruns hat hblock hdone hrow
  · exact completes_recv_none hm hruns hat hblock hdone
  · exact completes_recvTimeout hm hruns hat
  · exact completes_gather_foreign hm hruns hat hblock hlt hlocal hlive
  · exact fun h => completes_gather_known hm hruns hat hblock hlt h hx

end Sys2Proof.Machine

/-! Completions (R212, R467): what a completion goes by, what it may change, and that it answers its command. -/

namespace Sys2Proof.Machine

namespace State

/-- What decides whether a completion is written at once, and into which slot. -/
structure CplRing where
  enable : Bool
  base : W64
  size : BitVec 17
  tail : W16
  head : W16
  held : List Cpl
  link : HostLink

def cplRing (s : State) : CplRing :=
  ⟨s.seq.enable, s.seq.cplBase, s.seq.cplSize, s.seq.cplTail, s.seq.cplHead, s.seq.held, s.link⟩

/-- What a completion may change: the tail of its ring, the completions held with the error that holds them, and what leaves the device. -/
def RingTouches (s t : State) : Prop := t = { s with
  seq := { s.seq with
    cplTail := t.seq.cplTail
    held := t.seq.held
    cplErr := t.seq.cplErr
    retryAt := t.seq.retryAt }
  vecs := t.vecs
  out := t.out }

variable {s t u : State}

theorem RingTouches.trans (h : RingTouches s t) (k : RingTouches t u) : RingTouches s u := by
  rw [RingTouches] at h k ⊢
  rw [k, h]

theorem ringTakes_of_cplRing (h : u.cplRing = s.cplRing) : u.ringTakes = s.ringTakes := by
  simp only [cplRing, CplRing.mk.injEq] at h
  obtain ⟨henable, -, hsize, htail, hhead, hheld, hlink⟩ := h
  simp only [ringTakes, cplFull, bmStop, henable, hsize, htail, hhead, hheld, hlink]

theorem ringTakes_iff : s.ringTakes = true ↔ s.seq.held = [] ∧ s.cplFull = false ∧ s.seq.enable = true ∧ s.bmStop = false := by
  simp [ringTakes, and_assoc]

theorem complete_of_ringTakes (h : s.ringTakes = true) (c : Cpl) : s.complete c true = s.cplPut c := by
  obtain ⟨hheld, hroom, henable, hbm⟩ := ringTakes_iff.1 h
  simp [complete, hheld, hroom, henable, hbm]

theorem complete_of_not_ringTakes (h : s.ringTakes = false) (c : Cpl) (ok : Bool) : s.complete c ok = s.queueCpl c := by
  refine if_pos (Eq.trans ?_ (congrArg not h))
  rw [ringTakes]
  cases s.seq.held.isEmpty <;> cases s.cplFull <;> cases s.seq.enable <;> cases s.bmStop <;> rfl

/-- A completion written: it stands in the slot at the tail, which goes on, and its interrupt may follow it. -/
theorem cplPut_spec (s : State) (c : Cpl) : ∃ v o, s.cplPut c = { s with
    seq := { s.seq with cplTail := BitVec.ofNat 16 ((s.seq.cplTail.toNat + 1) % s.seq.cplSize.toNat) }
    vecs := v
    out := s.out ++ .hostWrite (s.seq.cplBase.toNat + 16 * s.seq.cplTail.toNat) (cplBytes c) :: o } := by
  let w : State := { s.emit (.hostWrite (s.seq.cplBase.toNat + 16 * s.seq.cplTail.toNat) (cplBytes c)) with
    seq := { s.seq with cplTail := BitVec.ofNat 16 ((s.seq.cplTail.toNat + 1) % s.seq.cplSize.toNat) } }
  obtain ⟨v, o, hraise⟩ := w.raise_frame 0
  obtain ⟨o', hout⟩ := w.raise_out 0
  refine ⟨v, o', hraise.trans ?_⟩
  rw [show o = w.out ++ o' by rw [← hout, hraise], List.append_cons]
  rfl

theorem ringTouches_cplPut (s : State) (c : Cpl) : RingTouches s (s.cplPut c) := by
  obtain ⟨v, o, hput⟩ := s.cplPut_spec c
  rw [hput, RingTouches]

theorem ringTouches_complete (s : State) (c : Cpl) (ok : Bool) : RingTouches s (s.complete c ok) := by
  rw [complete]
  split
  · rfl
  · split
    · exact s.ringTouches_cplPut c
    · rfl

/-- A completion answers its command, where the state that it is made in has the command's ring. -/
theorem answered_complete (hring : u.cplRing = s.cplRing) (d : Desc) (h : W32) (st : Byte) (code b11 : Nat) :
    Answered s (u.complete ⟨d.tag, h, st, d.opcode, code, b11⟩ true) d h st code b11 := by
  have htakes := ringTakes_of_cplRing hring
  simp only [cplRing, CplRing.mk.injEq] at hring
  obtain ⟨-, hbase, hsize, htail, -, hheld, -⟩ := hring
  rw [Answered, ← htakes]
  split
  · next h =>
    obtain ⟨v, o, hput⟩ := u.cplPut_spec ⟨d.tag, _, st, d.opcode, code, b11⟩
    rw [complete_of_ringTakes h, hput, ← hbase, ← hsize, ← htail]
    exact ⟨by simp, rfl⟩
  · next h =>
    rw [complete_of_not_ringTakes (Bool.not_eq_true _ ▸ h), ← hheld, ← htail]
    exact ⟨rfl, rfl⟩

/-- A command on an entry, or on none, is answered with the state of that entry, and nothing but the ring is touched. -/
theorem cmdDone_spec (hring : u.cplRing = s.cplRing) (d : Desc) (h : W32) (i : Option Nat) (st : Byte) (b11 : Nat) :
    Answered s (u.cmdDone d h i st b11 true) d h st ((i.map (fun i => stateCode (u.entry i).st)).getD 0) b11 ∧
    RingTouches u (u.cmdDone d h i st b11 true) :=
  ⟨answered_complete hring ..,  ringTouches_complete ..⟩

/-- An answer stands while its ring does, whatever leaves the device after it. -/
theorem Answered.mono {d : Desc} {h : W32} {st : Byte} {code b11 : Nat} (ha : Answered s t d h st code b11) (hseq : u.seq = t.seq)
    (hout : ∃ o, u.out = t.out ++ o) : Answered s u d h st code b11 := by
  obtain ⟨o, hout⟩ := hout
  rw [Answered] at ha ⊢
  rw [hseq, hout]
  split at ha
  · next htakes =>
    rw [if_pos htakes]
    exact ⟨List.mem_append_left o ha.1, ha.2⟩
  · next htakes =>
    rwa [if_neg htakes]

end State

end Sys2Proof.Machine

/-! The rings' commands (R212, R240, R242, R467). -/

namespace Sys2Proof.Machine

namespace State

variable {s : State}

/-- The device with the tail of the command ring as written, fetching no longer stopped. -/
def tailSet (s : State) (v : W16) : State := { s with seq := { s.seq with cqTail := v, fetchStop := false } }

theorem goOn_of_none_held (h : s.seq.held = []) (slots : List (Option (List Byte))) (written : Nat) :
    s.goOn slots written = (slots.foldl fetchOne (s, written)).1 := by
  simp [goOn, h, cplRetry]

/-- With one completion held and room for it, the completion that the host takes is written, and none waits. -/
theorem goOn_of_one_held {c : Cpl} (h : s.seq.held = [c]) (hroom : s.cplFull = false) (henable : s.seq.enable = true)
    (hbm : s.bmStop = false) : s.goOn [] 1 = ({ s with seq := { s.seq with held := [] } } : State).cplPut c := by
  simp [goOn, h, cplRetry, hroom, henable, hbm]

theorem goOn_of_one_held_fails {c : Cpl} (h : s.seq.held = [c]) (hroom : s.cplFull = false) (henable : s.seq.enable = true)
    (hbm : s.bmStop = false) : s.goOn [] 0 = { s with seq := { s.seq with cplErr := true, retryAt := s.now } } := by
  simp [goOn, h, cplRetry, hroom, henable, hbm]

/-- The engine may fetch, and the command ring holds a command that it has not fetched. -/
def CanFetch (s : State) : Prop :=
  s.mayFetch = true ∧ s.seq.cqHead.toNat % s.seq.cqSize.toNat ≠ s.seq.cqTail.toNat % s.seq.cqSize.toNat

/-- The engine may fetch where a completion could be written at once, no failed fetch waits, and the device has not halted. -/
theorem mayFetch_iff : s.mayFetch = true ↔ s.ringTakes = true ∧ s.seq.fetchStop = false ∧ s.devFatal = false := by
  rw [mayFetch, ringTakes]
  cases s.seq.held.isEmpty <;> cases s.cplFull <;> cases s.seq.enable <;> cases s.bmStop <;> cases s.seq.fetchStop <;>
    cases s.devFatal <;> decide

theorem canFetch_tailSet {v : W16} (hm : s.hostMay = true) (htakes : s.ringTakes = true)
    (hmore : s.seq.cqHead.toNat % s.seq.cqSize.toNat ≠ v.toNat % s.seq.cqSize.toNat) : (s.tailSet v).CanFetch :=
  ⟨mayFetch_iff.2 ⟨htakes, rfl, (hostMay_iff.1 hm).1⟩, hmore⟩

/-- The device with the head of the command ring moved past the command that it stands at. -/
def headMoved (s : State) : State :=
  { s with seq := { s.seq with cqHead := BitVec.ofNat 16 ((s.seq.cqHead.toNat + 1) % s.seq.cqSize.toNat) } }

theorem fetchOne_of_canFetch (h : s.CanFetch) (written : Nat) (b : List Byte) : fetchOne (s, written) (some b) =
    if (descOf b).opcode = 0 ∨ 9 < (descOf b).opcode then
      (s.headMoved.cmdDone (descOf b) (descOf b).handle none sBadCommand 0 (decide (0 < written)), written - 1)
    else ({ s.headMoved with seq := { s.headMoved.seq with fetched := s.seq.fetched ++ [descOf b] } }, written) :=
  if_neg (by simp [h.1, h.2])

theorem fetchOne_none_of_canFetch (h : s.CanFetch) (written : Nat) : fetchOne (s, written) none =
    ({ s with seq := { s.seq with fetchErr := true, fetchStop := true } }, written) :=
  if_neg (by simp [h.1, h.2])

/-- SEQ_CTL takes ENABLE unless the engine is off and a ring size is bad; a refusal shows in CQ_ERR. -/
theorem seqCtlSet_eq (s : State) (v : W32) : s.seqCtlSet v =
    let on := v.getLsbD 31 && (s.seq.enable || ringSizeOk s.seq.cqSize.toNat && ringSizeOk s.seq.cplSize.toNat)
    { s with seq := { s.seq with
      enable := on
      cqErr := s.seq.cqErr || (v.getLsbD 31 && !on)
      ageLimit := v.extractLsb' 16 10
      chunkMax := v.extractLsb' 0 14
      linkStop := s.seq.linkStop && !on } } := by
  simp only [seqCtlSet]
  generalize hok : (ringSizeOk s.seq.cqSize.toNat && ringSizeOk s.seq.cplSize.toNat) = ok
  cases v.getLsbD 31 <;> cases s.seq.enable <;> cases ok <;> rfl

end State

theorem exec_seqCqTailWrite (v : W16) (slots : List (Option (List Byte))) (written : Nat) (s : State) :
    exec (.seqCqTailWrite v slots written) s = act s.hostMay s (·.cqTailWrite v slots written) := rfl

theorem exec_seqCplHeadWrite (v : W16) (slots : List (Option (List Byte))) (written : Nat) (s : State) :
    exec (.seqCplHeadWrite v slots written) s = act s.hostMay s (·.cplHeadWrite v slots written) := rfl

theorem exec_completionRetry (slots : List (Option (List Byte))) (written : Nat) (s : State) :
    exec (.completionRetry slots written) s = act true s (·.completionRetry slots written) := rfl

theorem exec_seqCtlWrite (v : W32) (slots : List (Option (List Byte))) (written : Nat) (s : State) :
    exec (.seqCtlWrite v slots written) s = act s.hostMay s (·.seqCtlWrite v slots written) := rfl

theorem exec_seqHintWrite (v : W64) (s : State) : exec (.seqHintWrite v) s = act s.hostMay s (·.hintWrite v) := rfl

theorem exec_seqEntryRead (s : State) : exec .seqEntryRead s = act s.hostReads s State.seqEntryRead := rfl

theorem hostReads_of_hostMay {s : State} (h : s.hostMay = true) : s.hostReads = true := by
  obtain ⟨-, hstate, hfurled⟩ := State.hostMay_iff.1 h
  simp [State.hostReads, hstate, hfurled]

section

open State

variable {s : State} {i : Instr} {ok : Bool} {f : State → State}

/-- A command that writes the one completion held completes with it in its slot. -/
theorem completes_heldPut {q : SeqRegs} {c : Cpl} (h : exec i s = act ok s f) (hok : ok = true)
    (hf : f s = ({ s with seq := { q with held := [] } } : State).cplPut c) (hbase : q.cplBase = s.seq.cplBase)
    (htail : q.cplTail = s.seq.cplTail) (hsize : q.cplSize = s.seq.cplSize) : Completes i s (fun t =>
      .hostWrite (s.seq.cplBase.toNat + 16 * s.seq.cplTail.toNat) (cplBytes c) ∈ t.out ∧
      t = { s with
        seq := { q with
          held := []
          cplTail := BitVec.ofNat 16 ((s.seq.cplTail.toNat + 1) % s.seq.cplSize.toNat) }
        vecs := t.vecs
        out := t.out }) := by
  obtain ⟨v, o, hput⟩ := cplPut_spec { s with seq := { q with held := [] } } c
  refine completes_kept h hok (hf.trans hput) (keepBoot_of rfl rfl rfl rfl rfl rfl) ?_
  rw [← hbase, ← htail, ← hsize]
  exact ⟨by simp, rfl⟩

variable (hm : s.hostMay = true)

include hm

theorem completes_fetch {v : W16} {b : List Byte} (hfetch : (s.tailSet v).CanFetch) (hheld : s.seq.held = [])
    (hlow : 1 ≤ (descOf b).opcode) (hhigh : (descOf b).opcode ≤ 9) : Completes (.seqCqTailWrite v [some b] 0) s (fun t =>
      t = { (s.tailSet v).headMoved with seq := { (s.tailSet v).headMoved.seq with fetched := s.seq.fetched ++ [descOf b] } }) := by
  have hone := (fetchOne_of_canFetch hfetch 0 b).trans (if_neg (by omega))
  exact completes_kept (exec_seqCqTailWrite ..) hm ((goOn_of_none_held (s := s.tailSet v) hheld _ _).trans (congrArg Prod.fst hone))
    (keepBoot_of rfl rfl rfl rfl rfl rfl) rfl

theorem completes_fetch_reserved {v : W16} {b : List Byte} (hfetch : (s.tailSet v).CanFetch) (hheld : s.seq.held = [])
    (hres : (descOf b).opcode = 0 ∨ 9 < (descOf b).opcode) : Completes (.seqCqTailWrite v [some b] 1) s (fun t =>
      Answered s t (descOf b) (descOf b).handle sBadCommand 0 0 ∧
      t = { s with
        seq := { (s.tailSet v).headMoved.seq with cplTail := t.seq.cplTail }
        vecs := t.vecs
        out := t.out }) := by
  have hone := (fetchOne_of_canFetch hfetch 1 b).trans (if_pos hres)
  have hmeans := (goOn_of_none_held (s := s.tailSet v) hheld [some b] 1).trans (congrArg Prod.fst hone)
  obtain ⟨htakes, -, -⟩ := mayFetch_iff.1 hfetch.1
  have hput := complete_of_ringTakes (s := (s.tailSet v).headMoved) htakes
    ⟨(descOf b).tag, (descOf b).handle, sBadCommand, (descOf b).opcode, 0, 0⟩
  obtain ⟨w, o, hspec⟩ := (s.tailSet v).headMoved.cplPut_spec ⟨(descOf b).tag, (descOf b).handle, sBadCommand, (descOf b).opcode, 0, 0⟩
  have hans := answered_complete (s := s) (u := (s.tailSet v).headMoved) rfl (descOf b) (descOf b).handle sBadCommand 0 0
  rw [hput, hspec] at hans
  exact completes_kept (exec_seqCqTailWrite ..) hm (hmeans.trans (hput.trans hspec)) (keepBoot_of rfl rfl rfl rfl rfl rfl) ⟨hans, rfl⟩

theorem completes_fetch_fails {v : W16} (hfetch : (s.tailSet v).CanFetch) (hheld : s.seq.held = []) :
    Completes (.seqCqTailWrite v [none] 0) s (fun t => t = { s with seq := { s.seq with
      cqTail := v
      fetchErr := true
      fetchStop := true } }) := by
  have hone := fetchOne_none_of_canFetch hfetch 0
  exact completes_kept (exec_seqCqTailWrite ..) hm ((goOn_of_none_held (s := s.tailSet v) hheld _ _).trans (congrArg Prod.fst hone))
    (keepBoot_of rfl rfl rfl rfl rfl rfl) rfl

end

/-- Settles O34: a ring's command comes to `goOn`, which with nothing held takes one step of `fetchOne`, and with one completion held
writes it or records that it failed. -/
theorem sequenceRings : Obligations.SequenceRings := by
  intro s hm
  refine ⟨fun v b henable hroom hheld hbm hmore => ?_, fun c hheld henable hbm => ⟨fun v hfree => ?_, fun hroom hdue => ⟨?_, ?_⟩, ?_⟩,
    fun v hheld => ?_, fun v => ?_, ?_⟩
  · have hfetch := State.canFetch_tailSet hm (State.ringTakes_iff.2 ⟨hheld, hroom, henable, hbm⟩) hmore
    exact ⟨completes_fetch hm hfetch hheld, completes_fetch_reserved hm hfetch hheld, completes_fetch_fails hm hfetch hheld⟩
  · have hroom : ({ s with seq := { s.seq with cplHead := v } } : State).cplFull = false := decide_eq_false hfree
    exact completes_heldPut (exec_seqCplHeadWrite ..) hm (State.goOn_of_one_held (by exact hheld) hroom henable hbm) rfl rfl rfl
  · exact completes_heldPut (exec_completionRetry ..) rfl ((if_pos hdue).trans (State.goOn_of_one_held hheld hroom henable hbm)) rfl rfl rfl
  · exact completes_kept (exec_completionRetry ..) rfl ((if_pos hdue).trans (State.goOn_of_one_held_fails hheld hroom henable hbm))
      (State.keepBoot_of rfl rfl rfl rfl rfl rfl) rfl
  · exact fun hearly => completes_kept (exec_completionRetry ..) rfl (if_neg (Nat.not_le_of_gt hearly))
      (State.keepBoot_of rfl rfl rfl rfl rfl rfl) rfl
  · have hmeans : s.seqCtlWrite v [] 0 = s.seqCtlSet v := by
      rw [State.seqCtlWrite]
      split
      · exact State.goOn_of_none_held (by exact hheld) [] 0
      · rfl
    exact completes_kept (exec_seqCtlWrite ..) hm (hmeans.trans (s.seqCtlSet_eq v)) (State.keepBoot_of rfl rfl rfl rfl rfl rfl) rfl
  · exact completes_kept (exec_seqHintWrite ..) hm rfl (State.keepBoot_of rfl rfl rfl rfl rfl rfl) rfl
  · exact completes_kept (exec_seqEntryRead s) (hostReads_of_hostMay hm) rfl (State.keepBoot_of rfl rfl rfl rfl rfl rfl) rfl

end Sys2Proof.Machine

/-! Entries and reels: reads after writes, what a record leaves of its entry, and where a sequence parks (R233, R308 to R310). -/

namespace Sys2Proof.Machine

namespace State

variable {s t u : State} {i : Nat}

theorem entry_setEntry_ne {k : Nat} (s : State) (v : SeqEntry) (h : k ≠ i) : (s.setEntry i v).entry k = s.entry k :=
  tabGet_tabSet_ne _ _ _ _ h

theorem entry_of_entries (h : t.entries = s.entries) (k : Nat) : t.entry k = s.entry k :=
  congrArg (tabGet ({} : SeqEntry) · k) h

theorem reel_of_reels (h : t.reels = s.reels) (k : Nat) : t.reel k = s.reel k := congrArg (tabGet ({} : Reel) · k) h

theorem st_of_byHandle {h : W32} (hh : s.byHandle h = some i) : (s.entry i).st ≠ .free := by
  simp only [byHandle] at hh
  split at hh
  · next hvalid =>
    obtain rfl := Option.some.inj hh
    exact hvalid.1
  · cases hh

/-- Entry i is as it was but for PEND_REC, and every other entry is as it was. -/
def PendOnly (i : Nat) (s t : State) : Prop :=
  t.entry i = { s.entry i with pendRec := (t.entry i).pendRec } ∧ ∀ k, k ≠ i → t.entry k = s.entry k

theorem pendOnly_of_entries (h : t.entries = s.entries) : PendOnly i s t :=
  ⟨by rw [entry_of_entries h], fun k _ => entry_of_entries h k⟩

theorem PendOnly.trans (h : PendOnly i s t) (k : PendOnly i t u) : PendOnly i s u :=
  ⟨by rw [k.1, h.1], fun j hj => (k.2 j hj).trans (h.2 j hj)⟩

theorem pendOnly_notePend (s : State) (i : Nat) : PendOnly i s (s.notePend i) := by
  refine ⟨?_, fun k hk => entry_modEntry_ne s _ hk⟩
  rw [notePend, entry_modEntry]

/-! Parking (R233). -/

/-- A reel lacks room for two records, or a record of it is held, or waits to be written after it was held. -/
def reelShort (x : Reel) : Bool := decide (reelRoom x < 2) || !x.held.isEmpty || decide (x.heldQ ≠ 0)

theorem reelShort_of_roomy {x : Reel} (hroom : 2 ≤ reelRoom x) (hheld : x.held = []) (hqueued : x.heldQ = 0) : reelShort x = false := by
  rw [reelShort, hheld, hqueued, decide_eq_false (Nat.not_lt.2 hroom)]
  rfl

/-- Sequence i has parked where its reel is short, and returned where it is not; no other entry has changed. -/
def Turned (i : Nat) (s t : State) : Prop :=
  (t.entry i).st = (if ((s.entry i).st = .prefill ∨ (s.entry i).st = .decode) ∧ (s.entry i).inFlight = false ∧
      reelShort (t.reel i) = true then .parked
    else if (s.entry i).st = .parked ∧ reelShort (t.reel i) = false then (s.entry i).prior else (s.entry i).st) ∧
  ∀ j, j ≠ i → t.entry j = s.entry j

theorem park_eq (s : State) (i : Nat) : s.park i =
    if ((s.entry i).st = .prefill ∨ (s.entry i).st = .decode) ∧ !(s.entry i).inFlight ∧ reelShort (s.reel i) then
      s.setEntry i { s.entry i with st := .parked, prior := (s.entry i).st }
    else if (s.entry i).st = .parked ∧ !reelShort (s.reel i) then s.setEntry i { s.entry i with st := (s.entry i).prior }
    else s := rfl

/-- Parking changes the entry alone. -/
theorem park_frame (s : State) (i : Nat) : s.park i = { s with entries := (s.park i).entries } := by
  rw [park_eq]
  split
  · rfl
  · split <;> rfl

theorem reel_park (s : State) (i k : Nat) : (s.park i).reel k = s.reel k := by
  rw [park_frame]
  rfl

theorem entry_park_ne {k : Nat} (s : State) (h : k ≠ i) : (s.park i).entry k = s.entry k := by
  rw [park_eq]
  split
  · exact entry_setEntry_ne s _ h
  · split
    · exact entry_setEntry_ne s _ h
    · rfl

/-- Parking changes PRIOR and the state of the entry alone. -/
theorem entry_park (s : State) (i : Nat) : (s.park i).entry i = { s.entry i with
    st := ((s.park i).entry i).st
    prior := ((s.park i).entry i).prior } := by
  rw [park_eq]
  split
  · rw [entry_setEntry]
  · split
    · rw [entry_setEntry]
    · rfl

theorem turned_park_self (s : State) (i : Nat) : Turned i s (s.park i) := by
  refine ⟨?_, fun k hk => entry_park_ne s hk⟩
  rw [reel_park, park_eq]
  simp only [Bool.not_eq_true']
  split
  · rw [entry_setEntry]
  · split
    · rw [entry_setEntry]
    · rfl

theorem turned_park (h : PendOnly i s u) : Turned i s (u.park i) := by
  obtain ⟨hst, hother⟩ := turned_park_self u i
  refine ⟨?_, fun k hk => (hother k hk).trans (h.2 k hk)⟩
  rw [hst, h.1]

/-- A sequence that is neither at work nor parked stays so. -/
theorem park_of_resting (h1 : (s.entry i).st ≠ .prefill) (h2 : (s.entry i).st ≠ .decode) (h3 : (s.entry i).st ≠ .parked) :
    s.park i = s := by
  simp [park_eq, h1, h2, h3]

theorem park_of_roomy (hst : (s.entry i).st ≠ .parked) (hroomy : reelShort (s.reel i) = false) : s.park i = s := by
  simp [park_eq, hst, hroomy]

/-! Writes of TAIL and of records (R309, R310). -/

/-- The write of TAIL into the descriptor of reel i. -/
def tailWrite (s : State) (i : Nat) : Emit := .hostWrite ((s.entry i).reel.toNat + 24) (leBytes 4 (reelTail (s.reel i)).toNat)

/-- What writes of a reel may change: its bank, the sampler's registers, and what leaves the device, to which they add. -/
def ReelWrites (s t : State) : Prop := (∃ o, t.out = s.out ++ o) ∧ t = { s with
  reels := t.reels
  smp := t.smp
  vecs := t.vecs
  out := t.out }

theorem ReelWrites.refl (s : State) : ReelWrites s s := ⟨⟨[], (List.append_nil _).symm⟩, rfl⟩

theorem ReelWrites.trans (h : ReelWrites s t) (k : ReelWrites t u) : ReelWrites s u := by
  obtain ⟨⟨o, ho⟩, h⟩ := h
  obtain ⟨⟨p, hp⟩, k⟩ := k
  refine ⟨⟨o ++ p, by rw [hp, ho, List.append_assoc]⟩, ?_⟩
  rw [k, h]

theorem ReelWrites.entries_eq (h : ReelWrites s t) : t.entries = s.entries := by rw [h.2]

theorem ReelWrites.mem_out {e : Emit} (h : ReelWrites s t) (he : e ∈ s.out) : e ∈ t.out := by
  obtain ⟨⟨o, ho⟩, -⟩ := h
  rw [ho]
  exact List.mem_append_left o he

theorem reelWrites_setReel (s : State) (i : Nat) (x : Reel) : ReelWrites s (s.setReel i x) := ⟨⟨[], (List.append_nil _).symm⟩, rfl⟩

theorem reelWrites_emit (s : State) (e : Emit) : ReelWrites s (s.emit e) := ⟨⟨[e], rfl⟩, rfl⟩

theorem reelWrites_raise (s : State) (v : Nat) : ReelWrites s (s.raise v) := by
  obtain ⟨x, o, hraise⟩ := s.raise_frame v
  exact ⟨s.raise_out v, by rw [hraise]⟩

theorem mem_emit (s : State) (e : Emit) : e ∈ (s.emit e).out := List.mem_append_right _ (List.mem_singleton_self e)

theorem raise_if (s : State) (v : Nat) (c : Prop) [Decidable c] : ReelWrites s (if c then s.raise v else s) ∧
    (if c then s.raise v else s).reels = s.reels ∧ (if c then s.raise v else s).smp = s.smp := by
  obtain ⟨x, o, hraise⟩ := s.raise_frame v
  split
  · exact ⟨s.reelWrites_raise v, by rw [hraise], by rw [hraise]⟩
  · exact ⟨.refl s, rfl, rfl⟩

theorem writeTail_spec (s : State) (i : Nat) : ReelWrites s (s.writeTail i true) ∧ s.tailWrite i ∈ (s.writeTail i true).out ∧
    (s.writeTail i true).smp = s.smp ∧ (s.writeTail i true).reel i = { s.reel i with
      tailOwed := false
      status := false
      any := false } := by
  let x : Reel := { s.reel i with tailOwed := false, status := false, any := false }
  let w := (s.emit (s.tailWrite i)).setReel i x
  obtain ⟨hraise, hreels, hsmp⟩ := w.raise_if 1
    (((s.reel i).notify = 1 ∧ (s.reel i).status) ∨ ((s.reel i).notify = 2 ∧ (s.reel i).any))
  have hw : ReelWrites s w := (s.reelWrites_emit _).trans ((s.emit _).reelWrites_setReel i x)
  exact ⟨hw.trans hraise, hraise.mem_out (s.mem_emit _), hsmp,
    (reel_of_reels hreels i).trans (reel_setReel (s.emit (s.tailWrite i)) i x)⟩

/-- An owed TAIL is written; what else the reel holds is as it was. -/
theorem payTail_spec (s : State) (i : Nat) : let t := if (s.reel i).tailOwed then s.writeTail i true else s
    ReelWrites s t ∧ ((s.reel i).tailOwed = true → s.tailWrite i ∈ t.out) ∧ t.smp = s.smp ∧ t.reel i = { s.reel i with
      tailOwed := false
      status := (t.reel i).status
      any := (t.reel i).any } := by
  cases howed : (s.reel i).tailOwed with
  | true =>
    obtain ⟨hwrites, hmem, hsmp, hreel⟩ := s.writeTail_spec i
    exact ⟨hwrites, fun _ => hmem, hsmp, by rw [if_pos rfl, hreel]⟩
  | false => exact ⟨.refl s, fun h => absurd h Bool.false_ne_true, rfl, by rw [if_neg Bool.false_ne_true, ← howed]⟩

theorem writeRecord_spec {b : List Byte} {rest : List (List Byte)} (h : (s.reel i).queue = b :: rest) :
    let t := s.writeRecord i true true
    ReelWrites s t ∧ .hostWrite ((s.reel i).base.toNat + (leNat (b.take 4) % (s.reel i).size) * 32) b ∈ t.out ∧
    (rest = [] → s.tailWrite i ∈ t.out) ∧ t.smp = { s.smp with records := s.smp.records + 1 } ∧
    (t.reel i).queue = rest ∧ (t.reel i).held = (s.reel i).held := by
  intro t
  let x : Reel := { s.reel i with
    queue := rest
    heldQ := (s.reel i).heldQ - 1
    any := true
    status := (s.reel i).status || decide (2 ≤ (b.getD 4 0).toNat) }
  let w := ({ s.emit (.hostWrite ((s.reel i).base.toNat + (leNat (b.take 4) % (s.reel i).size) * 32) b) with
    smp := { s.smp with records := s.smp.records + 1 } } : State).setReel i x
  have ht : t = if rest.isEmpty then w.writeTail i true else w := by
    simp only [t, writeRecord, h]
    rfl
  have hw : ReelWrites s w := ⟨⟨_, rfl⟩, rfl⟩
  have hmem := s.mem_emit (.hostWrite ((s.reel i).base.toNat + (leNat (b.take 4) % (s.reel i).size) * 32) b)
  have hx : w.reel i = x := reel_setReel ..
  have htail : w.tailWrite i = s.tailWrite i := by
    rw [tailWrite, hx]
    rfl
  rw [ht]
  cases rest with
  | nil =>
    obtain ⟨hwrites, hmem', hsmp, hreel⟩ := w.writeTail_spec i
    rw [if_pos List.isEmpty_nil, hreel, hsmp, hx, ← htail]
    exact ⟨hw.trans hwrites, hwrites.mem_out hmem, fun _ => hmem', rfl, rfl, rfl⟩
  | cons c rest =>
    rw [if_neg (by simp), hx]
    exact ⟨hw, hmem, fun h => absurd h (List.cons_ne_nil c rest), rfl, rfl, rfl⟩

/-- A record whose write fails twice stops its reel, and is held again with all that waited behind it. -/
theorem writeRecord_fails {b : List Byte} {rest : List (List Byte)} (h : (s.reel i).queue = b :: rest) (tailOk : Bool) :
    s.writeRecord i false tailOk = ({ s.setReel i { s.reel i with
        queue := []
        held := (s.reel i).queue ++ (s.reel i).held
        heldQ := 0
        stopped := true } with
      smp := { s.smp with
        wrErr := true
        err := satAdd s.smp.err 1 } } : State).notePend i := by
  simp only [writeRecord, h]
  rfl

/-- Where requests to host memory may be sent, a reel that has not stopped writes the TAIL it owes, then its next record. -/
theorem reelWrite_of_runs (hmay : s.reelMay = true) (hruns : (s.reel i).stopped = false) (ok tailOk : Bool) : s.reelWrite i ok tailOk =
    let w := if (s.reel i).tailOwed then s.writeTail i tailOk else s
    (if (w.reel i).stopped then w else w.writeRecord i ok tailOk).park i :=
  if_neg (by rw [hmay, hruns]; decide)

/-! Reads of HEAD (R308). -/

/-- A reel once HEAD has been read: the records held go into the queue as far as there is room. -/
def headTaken (x : Reel) (now : Nat) (h : W32) : Reel :=
  let n := min (reelRoom { x with head := h }) x.held.length
  { x with
    readAt := now
    head := h
    queue := x.queue ++ x.held.take n
    heldQ := if n = 0 then x.heldQ else x.queue.length + n
    held := x.held.drop n }

theorem unhold_spec (s : State) (i : Nat) : PendOnly i s (s.unhold i) ∧ (s.unhold i).out = s.out ∧ (s.unhold i).smp = s.smp ∧
    (s.unhold i).reel i =
      let n := min (reelRoom (s.reel i)) (s.reel i).held.length
      { s.reel i with
        queue := (s.reel i).queue ++ (s.reel i).held.take n
        heldQ := if n = 0 then (s.reel i).heldQ else (s.reel i).queue.length + n
        held := (s.reel i).held.drop n } :=
  ⟨pendOnly_notePend (s.setReel i _) i, rfl, rfl, reel_setReel s i _⟩

/-- A sequence whose HEAD has been read parks or returns by what its reel then holds. -/
theorem headRead_spec (hst : (s.entry i).st ≠ .free) (head : Option W32) : let t := s.headRead i head
    t.reel i = headTaken (s.reel i) s.now (head.getD (s.reel i).head) ∧ Turned i s t ∧ t.out = s.out ∧
    (head = none → t.smp = { s.smp with headErr := true }) := by
  have hpark : ∀ (u : State), (u.park i).out = u.out ∧ (u.park i).smp = u.smp := by
    intro u
    rw [park_frame]
    exact ⟨rfl, rfl⟩
  have hreads : ∀ (w : State), w.entries = s.entries → w.out = s.out →
      w.reel i = { s.reel i with readAt := s.now, head := head.getD (s.reel i).head } →
      let t := (w.unhold i).park i
      t.reel i = headTaken (s.reel i) s.now (head.getD (s.reel i).head) ∧ Turned i s t ∧ t.out = s.out ∧ t.smp = w.smp := by
    intro w hentries hout hreel
    obtain ⟨hpend, hout', hsmp, htaken⟩ := w.unhold_spec i
    obtain ⟨hout'', hsmp'⟩ := hpark (w.unhold i)
    refine ⟨?_, turned_park ((pendOnly_of_entries hentries).trans hpend), hout''.trans (hout'.trans hout), hsmp'.trans hsmp⟩
    rw [reel_park, htaken, hreel]
    rfl
  cases head with
  | none =>
    rw [headRead, if_neg hst]
    obtain ⟨hreel, hturn, hout, hsmp⟩ := hreads
      { s.setReel i { s.reel i with readAt := s.now } with smp := { s.smp with headErr := true } } rfl rfl (reel_setReel ..)
    exact ⟨hreel, hturn, hout, fun _ => hsmp⟩
  | some h =>
    rw [headRead, if_neg hst]
    dsimp only
    split
    · obtain ⟨hreel, hturn, hout, -⟩ := hreads { s.setReel i { s.reel i with readAt := s.now, head := h } with
        smp := { s.smp with badHead := true } } rfl rfl (reel_setReel ..)
      exact ⟨hreel, hturn, hout, fun h => nomatch h⟩
    · obtain ⟨hreel, hturn, hout, -⟩ := hreads (s.setReel i { s.reel i with readAt := s.now, head := h }) rfl rfl (reel_setReel ..)
      exact ⟨hreel, hturn, hout, fun h => nomatch h⟩

end State

theorem exec_reelRecordWrite (i : Nat) (ok tailOk : Bool) (s : State) :
    exec (.reelRecordWrite i ok tailOk) s = act (okEntry i) s (·.reelWrite i ok tailOk) := rfl

theorem exec_reelHeadRead (i : Nat) (head : Option W32) (s : State) :
    exec (.reelHeadRead i head) s = act (okEntry i && s.reelMay) s (·.headRead i head) := rfl

theorem exec_reelPoll (i : Nat) (head : Option W32) (s : State) :
    exec (.reelPoll i head) s = act (okEntry i && s.reelMay) s (·.reelPoll i head) := rfl

theorem exec_reelKick (h : W32) (head : Option W32) (tailOk : Bool) (s : State) :
    exec (.reelKick h head tailOk) s = act s.hostMay s (·.reelKick h head tailOk) := rfl

theorem exec_smpRecRead (s : State) : exec .smpRecRead s = act s.hostReads s State.smpRecRead := rfl

section

open State

variable {s : State} {i : Nat}

theorem completes_reelRecordWrite {b : List Byte} {rest : List (List Byte)} (hi : okEntry i = true) (hmay : s.reelMay = true)
    (hruns : (s.reel i).stopped = false) (hqueue : (s.reel i).queue = b :: rest) : Completes (.reelRecordWrite i true true) s (fun t =>
      .hostWrite ((s.reel i).base.toNat + (leNat (b.take 4) % (s.reel i).size) * 32) b ∈ t.out ∧ (t.reel i).queue = rest ∧
      (t.reel i).held = (s.reel i).held ∧ t.smp = { s.smp with records := s.smp.records + 1 } ∧
      ((s.reel i).tailOwed = true ∨ rest = [] → s.tailWrite i ∈ t.out) ∧ Turned i s t) := by
  obtain ⟨hwrites, hpaid, hsmp, hreel⟩ := s.payTail_spec i
  generalize hw : (if (s.reel i).tailOwed then s.writeTail i true else s) = w at hwrites hpaid hsmp hreel
  have hrun : s.reelWrite i true true = (w.writeRecord i true true).park i := by
    rw [reelWrite_of_runs hmay hruns]
    dsimp only
    rw [hw, hreel, hruns]
    rfl
  have hqueue' : (w.reel i).queue = b :: rest := by rw [hreel, hqueue]
  obtain ⟨hwrites', hmem, hlast, hsmp', hrest, hheld⟩ := w.writeRecord_spec hqueue'
  have htail : w.tailWrite i = s.tailWrite i := by
    rw [tailWrite, hreel, entry_of_entries hwrites.entries_eq]
    rfl
  refine completes_act (exec_reelRecordWrite ..) hi ?_
  rw [hrun]
  have hpark := (w.writeRecord i true true).park_frame i
  have hturn : Turned i s ((w.writeRecord i true true).park i) := turned_park (pendOnly_of_entries (hwrites.trans hwrites').entries_eq)
  have hreel' := (w.writeRecord i true true).reel_park i i
  generalize (w.writeRecord i true true).park i = t at hpark hturn hreel'
  refine ⟨?_, ?_, ?_, ?_, ?_, hturn⟩
  · rw [keepBoot_out, hpark]
    rwa [hreel] at hmem
  · rw [keepBoot_reel, hreel', hrest]
  · rw [keepBoot_reel, hreel', hheld, hreel]
  · rw [show (s.keepBoot t).smp = t.smp from rfl, hpark, hsmp', hsmp]
  · rw [keepBoot_out, hpark]
    rintro (howed | hnone)
    · exact hwrites'.mem_out (hpaid howed)
    · exact htail ▸ hlast hnone

theorem completes_reelRecordWrite_fails {b : List Byte} {rest : List (List Byte)} (hi : okEntry i = true) (hmay : s.reelMay = true)
    (hruns : (s.reel i).stopped = false) (hqueue : (s.reel i).queue = b :: rest) (howed : (s.reel i).tailOwed = false) :
    Completes (.reelRecordWrite i false true) s (fun t =>
      t.reel i = { s.reel i with
        queue := []
        held := (s.reel i).queue ++ (s.reel i).held
        heldQ := 0
        stopped := true } ∧
      t.smp = { s.smp with
        wrErr := true
        err := satAdd s.smp.err 1 } ∧ Turned i s t ∧
      t = { s with
        reels := t.reels
        entries := t.entries
        smp := t.smp }) := by
  have hrun : s.reelWrite i false true = (s.writeRecord i false true).park i := by
    rw [reelWrite_of_runs hmay hruns]
    simp only [howed, hruns, Bool.false_eq_true, if_false]
  rw [writeRecord_fails hqueue] at hrun
  generalize hw : ({ s.setReel i _ with smp := _ } : State) = w at hrun
  have hpark := (w.notePend i).park_frame i
  have hreel := (w.notePend i).reel_park i i
  have hturn : Turned i s ((w.notePend i).park i) := by
    refine turned_park ((pendOnly_of_entries ?_).trans (w.pendOnly_notePend i))
    rw [← hw]
    rfl
  generalize (w.notePend i).park i = t at hrun hpark hreel hturn
  have hsmp : t.smp = w.smp := by rw [hpark]; rfl
  have hframe : t = { s with reels := t.reels, entries := t.entries, smp := t.smp } := by rw [hpark, ← hw]; rfl
  refine completes_kept (exec_reelRecordWrite ..) hi hrun ?_ ⟨?_, ?_, hturn, hframe⟩
  · rw [hframe]
    exact keepBoot_of rfl rfl rfl rfl rfl rfl
  · rw [hreel, ← hw]
    exact reel_setReel s i _
  · rw [hsmp, ← hw]

/-- A command that comes to a read of HEAD completes with what was read. -/
theorem completes_headRead {n : Instr} {ok : Bool} {f : State → State} {head : Option W32} (h : exec n s = act ok s f) (hok : ok = true)
    (hf : f s = s.headRead i head) (hst : (s.entry i).st ≠ .free) : Completes n s (fun t =>
      t.reel i = headTaken (s.reel i) s.now (head.getD (s.reel i).head) ∧ Turned i s t ∧
      (head = none → t.smp = { s.smp with headErr := true })) := by
  obtain ⟨hreel, hturn, -, hsmp⟩ := headRead_spec hst head
  refine completes_act h hok ?_
  rw [hf]
  exact ⟨hreel, hturn, hsmp⟩

/-- REEL_KICK ends a stop, has an owed TAIL written and reads HEAD. -/
theorem completes_reelKick {handle h : W32} (hm : s.hostMay = true) (hmay : s.reelMay = true) (hhandle : s.byHandle handle = some i) :
    Completes (.reelKick handle (some h) true) s (fun t =>
      (t.reel i).stopped = false ∧ (t.reel i).head = h ∧ (t.reel i).tailOwed = false ∧
      (t.reel i).queue ++ (t.reel i).held = (s.reel i).queue ++ (s.reel i).held ∧
      ((s.reel i).tailOwed = true → s.tailWrite i ∈ t.out) ∧ Turned i s t) := by
  let v := s.modReel i (fun x => { x with stopped := false })
  have hv : v.reel i = { s.reel i with stopped := false } := reel_setReel ..
  obtain ⟨hwrites, hpaid, -, hreel⟩ := v.payTail_spec i
  have htail : v.tailWrite i = s.tailWrite i := by
    rw [tailWrite, hv]
    rfl
  generalize hw : (if (v.reel i).tailOwed then v.writeTail i true else v) = w at hwrites hpaid hreel
  rw [hv, htail] at hpaid
  have hst : (w.entry i).st ≠ .free := by
    rw [entry_of_entries hwrites.entries_eq]
    exact st_of_byHandle hhandle
  obtain ⟨htaken, hturn, hout, -⟩ := headRead_spec hst (some h)
  have hrun : s.reelKick handle (some h) true = w.headRead i (some h) := by
    simp only [reelKick, hhandle]
    rw [← hw]
    exact if_neg (by rw [show (s.modReel i _).reelMay = s.reelMay from rfl, hmay]; decide)
  refine completes_act (exec_reelKick ..) hm ?_
  rw [hrun]
  rw [hreel, hv] at htaken
  generalize w.headRead i (some h) = t at htaken hturn hout
  have hturn' : Turned i s t := by
    have hentry := entry_of_entries (s := s) (hwrites.entries_eq.trans rfl)
    rw [Turned, hentry] at hturn
    exact ⟨hturn.1, fun j hj => (hturn.2 j hj).trans (hentry j)⟩
  have hreel' : (s.keepBoot t).reel i = t.reel i := rfl
  rw [hreel', htaken]
  refine ⟨rfl, rfl, rfl, ?_, fun howed => ?_, hturn'⟩
  · simp only [headTaken, List.append_assoc, List.take_append_drop]
  · exact hout ▸ hpaid howed

end

/-- Settles O39: a write takes the next record of its queue behind the TAIL owed, a read of HEAD moves records held into the queue, and
after each the entry is as `park` leaves it. -/
theorem reelsAreWritten : Obligations.ReelsAreWritten := by
  intro s i hi hmay
  have hok : okEntry i = true := decide_eq_true hi
  have hboth : (okEntry i && s.reelMay) = true := by rw [hok, hmay]; rfl
  refine ⟨fun b rest hruns hqueue => ⟨?_, fun howed => ?_⟩, fun hst h => ⟨?_, fun hpoll hwaits hdue => ?_, ?_⟩,
    fun hm handle h => ⟨fun hhandle => ?_, fun hnone => ?_⟩, fun hreads => ?_⟩
  · exact completes_reelRecordWrite hok hmay hruns hqueue
  · exact completes_reelRecordWrite_fails hok hmay hruns hqueue howed
  · exact (completes_headRead (exec_reelHeadRead ..) hboth rfl hst).mono fun t ht => ⟨ht.1, ht.2.1⟩
  · have hpolls : s.reelPoll i (some h) = s.headRead i (some h) := if_pos ⟨hpoll, by simpa using hwaits, hdue⟩
    exact (completes_headRead (exec_reelPoll ..) hboth hpolls hst).mono fun t ht => ⟨ht.1, ht.2.1⟩
  · exact (completes_headRead (exec_reelHeadRead ..) hboth rfl hst).mono fun t ht => ⟨⟨ht.1, ht.2.1⟩, ht.2.2 rfl⟩
  · exact completes_reelKick hm hmay hhandle
  · have hrejects : s.reelKick handle (some h) true = { s with smp := { s.smp with kickRej := true } } := by
      simp only [State.reelKick, hnone]
    exact completes_kept (exec_reelKick ..) hm hrejects (State.keepBoot_of rfl rfl rfl rfl rfl rfl) rfl
  · exact completes_kept (exec_smpRecRead s) hreads rfl (State.keepBoot_of rfl rfl rfl rfl rfl rfl) rfl

end Sys2Proof.Machine

/-! Pages, packets and the recorder: what each operation that an effect of Table 10.6 makes may change, said once. -/

namespace Sys2Proof.Machine

namespace State

variable {s t u : State} {i : Nat}

@[simp] theorem tbl_setTbl (s : State) (i : Nat) (v : Tables) : (s.setTbl i v).tbl i = v := tabGet_tabSet_self ..

@[simp] theorem tbl_modTbl (s : State) (i : Nat) (f : Tables → Tables) : (s.modTbl i f).tbl i = f (s.tbl i) := tbl_setTbl ..

theorem tbl_modTbl_ne {k : Nat} (s : State) (f : Tables → Tables) (h : k ≠ i) : (s.modTbl i f).tbl k = s.tbl k :=
  tabGet_tabSet_ne _ _ _ _ h

theorem tbl_of_tables (h : t.tables = s.tables) (k : Nat) : t.tbl k = s.tbl k := congrArg (tabGet ({} : Tables) · k) h

@[simp] theorem input_setInput (s : State) (i : Nat) (v : Input) : (s.setInput i v).input i = v := tabGet_tabSet_self ..

@[simp] theorem smpOf_setSmp (s : State) (i : Nat) (v : Smp) : (s.setSmp i v).smpOf i = v := tabGet_tabSet_self ..

@[simp] theorem xr_setXr (s : State) (i : Nat) (v : Xr) : (s.setXr i v).xr i = v := tabGet_tabSet_self ..

/-! Pages and page tables (R249, R253 to R267). -/

/-- What taking, freeing, copying and moving pages may change. -/
def PageTouches (s t : State) : Prop := t = { s with
  freeCtr := t.freeCtr
  out := t.out
  hbm := t.hbm
  pdescs := t.pdescs
  tables := t.tables
  prefixes := t.prefixes
  kv := { s.kv with
    copies := t.kv.copies
    moved := t.kv.moved } }

theorem PageTouches.refl (s : State) : PageTouches s s := rfl

theorem PageTouches.trans (h : PageTouches s t) (k : PageTouches t u) : PageTouches s u := by
  rw [PageTouches] at h k ⊢
  rw [k, h]

theorem PageTouches.entries_eq (h : PageTouches s t) : t.entries = s.entries := by rw [h]

/-- Of table i, such an operation changes the pages and the table blocks alone. -/
def PagesTaken (i : Nat) (s t : State) : Prop := PageTouches s t ∧ t.tbl i = { s.tbl i with
  ptrs := (t.tbl i).ptrs
  pages := (t.tbl i).pages }

theorem PagesTaken.refl (i : Nat) (s : State) : PagesTaken i s s := ⟨.refl s, rfl⟩

theorem PagesTaken.trans (h : PagesTaken i s t) (k : PagesTaken i t u) : PagesTaken i s u :=
  ⟨h.1.trans k.1, by rw [k.2, h.2]⟩

theorem foldl_pagesTaken {α : Type} {f : State → α → State} (h : ∀ s x, PagesTaken i s (f s x)) (l : List α) (s : State) :
    PagesTaken i s (l.foldl f s) :=
  foldl_rel (PagesTaken.refl i) (fun _ _ _ => PagesTaken.trans) (fun x _ s => h s x) s

theorem pagesTaken_of_tables (h : PageTouches s t) (htables : t.tables = s.tables) : PagesTaken i s t :=
  ⟨h, by rw [tbl_of_tables htables]⟩

theorem pagesTaken_takeBlocks (s : State) (i n : Nat) : PagesTaken i s (s.takeBlocks n).2 := ⟨rfl, rfl⟩

theorem pagesTaken_modTbl (s : State) (i : Nat) {f : Tables → Tables}
    (hf : ∀ x, f x = { x with ptrs := (f x).ptrs, pages := (f x).pages } := by exact fun _ => rfl) : PagesTaken i s (s.modTbl i f) :=
  ⟨rfl, by rw [tbl_modTbl, ← hf]⟩

theorem pagesTaken_setTblPage (s : State) (i e : Nat) (p : Option Nat) : PagesTaken i s (s.setTblPage i e p) := s.pagesTaken_modTbl i

theorem pagesTaken_setPdesc (s : State) (i p : Nat) (d : PDesc) : PagesTaken i s (s.setPdesc p d) := ⟨rfl, rfl⟩

theorem pagesTaken_setPfx (s : State) (i c x : Nat) (v : PrefixSlot) : PagesTaken i s (s.setPfx c x v) := ⟨rfl, rfl⟩

theorem pagesTaken_unref (s : State) (i p : Nat) : PagesTaken i s (s.unref p) := by
  simp only [unref]
  split
  · exact .refl i s
  · split
    · exact s.pagesTaken_setPdesc i p _
    · split <;> exact s.pagesTaken_setPdesc i p _

theorem hbmWrite_frame (k : Nat) : ∀ (l : List Byte) (s : State) (o : Nat), s.hbmWrite k o l = { s with hbm := (s.hbmWrite k o l).hbm }
  | [], _, _ => rfl
  | b :: l, s, o => by
    rw [hbmWrite, hbmWrite_frame k l]
    rfl

theorem pagesTaken_writePage (s : State) (i p o : Nat) (b : List Byte) : PagesTaken i s (s.writePage p o b) := by
  rw [writePage, hbmWrite_frame]
  exact ⟨rfl, rfl⟩

/-- As with `beatWork_takeFrame`, the bound of the search is abstracted before `takeFrame` is taken apart. -/
theorem pagesTaken_takeFrame (s : State) (i k c refs : Nat) (ro : Bool) : PagesTaken i s (s.takeFrame k c refs ro).2 := by
  have hdef : @takeFrame = @takeFrame := rfl
  conv at hdef => rhs; delta takeFrame
  obtain ⟨limit, hlimit⟩ : ∃ limit, limit = @frameLimit := ⟨_, rfl⟩
  rw [← hlimit] at hdef
  rw [hdef]
  simp only [free]
  split
  · exact ⟨rfl, rfl⟩
  · exact ⟨rfl, rfl⟩

theorem pagesTaken_of_takeHost {c : Nat} {h : Option Nat} (hh : s.takeHost c = (h, t)) : PagesTaken i s t := by
  rw [takeHost] at hh
  dsimp only [free] at hh
  split at hh
  · cases hh
    exact ⟨rfl, rfl⟩
  · cases hh
    exact ⟨rfl, rfl⟩

theorem pagesTaken_takePtrs (s : State) (i c a b : Nat) : PagesTaken i s (s.takePtrs i c a b) :=
  foldl_pagesTaken (fun s _ => (s.pagesTaken_takeBlocks i 1).trans (pagesTaken_modTbl _ i)) _ s

/-- A directory is taken: the table is the entry's own from then on. -/
theorem takeDir_spec (s : State) (i c : Nat) : PageTouches s (s.takeDir i c) ∧ (s.takeDir i c).prefixes = s.prefixes ∧
    (s.takeDir i c).tbl i = { s.tbl i with
      owned := true
      ctx := c
      dir := ((s.takeDir i c).tbl i).dir
      dirBlocks := ((s.takeDir i c).tbl i).dirBlocks } := by
  have htaken := s.pagesTaken_takeBlocks i (s.dirSize c)
  have hprefixes : (s.takeBlocks (s.dirSize c)).2.prefixes = s.prefixes := rfl
  have htbl : (s.takeBlocks (s.dirSize c)).2.tbl i = s.tbl i := rfl
  simp only [takeDir]
  generalize s.takeBlocks (s.dirSize c) = r at htaken hprefixes htbl
  refine ⟨htaken.1.trans rfl, hprefixes, ?_⟩
  rw [tbl_modTbl, htbl]

theorem placePrefix_spec (s : State) (i c x : Nat) : PagesTaken i s (s.placePrefix i c x) ∧
    ((s.placePrefix i c x).tbl i).pages = (s.pfx c x).pages ∧ ((s.placePrefix i c x).pfx c x).length = (s.pfx c x).length := by
  simp only [placePrefix]
  have hptrs := s.pagesTaken_takePtrs i c 0 (pagesFor (s.pfx c x).length)
  generalize s.takePtrs i c 0 (pagesFor (s.pfx c x).length) = w at hptrs
  refine ⟨(hptrs.trans (w.pagesTaken_modTbl i)).trans (pagesTaken_setPfx ..), ?_, ?_⟩
  · exact congrArg Tables.pages (w.tbl_modTbl i (fun t => { t with pages := (s.pfx c x).pages }))
  · rw [pfx_setPfx]

/-! Packets to members (R238, R370). -/

theorem sendItems_frame (s : State) (rank step : Nat) (items : List (List Byte)) :
    s.sendItems rank step items = { s with rig := (s.sendItems rank step items).rig } :=
  foldl_rel (R := fun s t : State => t = { s with rig := t.rig }) (fun _ => rfl) (fun _ _ _ h k => by rw [k, h])
    (fun g _ s => by
      obtain ⟨x, hsend⟩ := s.sendData_frame rank 3 pkHead (s.descHead g.flatten step g.length) g.flatten
      rw [hsend]) s

theorem sendMembers_frame (s : State) (step : Nat) (items : List (List Byte)) :
    s.sendMembers step items = { s with rig := (s.sendMembers step items).rig } :=
  foldl_rel (R := fun s t : State => t = { s with rig := t.rig }) (fun _ => rfl) (fun _ _ _ h k => by rw [k, h])
    (fun _ _ s => s.sendItems_frame ..) s

/-! The recorder (R345 to R349). -/

/-- What the recorder may change: its registers and its ring in HBM. -/
def RecorderTouches (s t : State) : Prop := t = { s with
  hbm := t.hbm
  recorder := t.recorder }

theorem RecorderTouches.refl (s : State) : RecorderTouches s s := rfl

theorem RecorderTouches.trans (h : RecorderTouches s t) (k : RecorderTouches t u) : RecorderTouches s u := by
  rw [RecorderTouches] at h k ⊢
  rw [k, h]

theorem recorderTouches_putRecords (s : State) (i : Nat) (rs : List RecBody) : RecorderTouches s (s.putRecords i rs) := by
  simp only [putRecords]
  split
  · have hfold := foldl_rel RecorderTouches.refl (fun _ _ _ => RecorderTouches.trans)
      (f := fun (s : State) (kx : Nat × Nat × RecBody) => s.hbmWrite 1 (ringBase + 64 * kx.2.1)
        (recImage (s.recorder.seqno.toNat + kx.1) kx.2.2))
      (l := (layRecords s.ringUnits s.recorder.tail.toNat rs).mapIdx (fun k x => (k, x)))
      (fun kx _ s => by rw [RecorderTouches, hbmWrite_frame]) s
    generalize List.foldl _ s _ = w at hfold
    exact hfold.trans rfl
  · rfl

theorem recorderTouches_recordStart (s : State) (i : Nat) : RecorderTouches s (s.recordStart i) :=
  RecorderTouches.trans (t := { s.dropArm i with recorder := { (s.dropArm i).recorder with
    armed := (s.dropArm i).recorder.armed ++ [(i, List.replicate 8 0)] } }) rfl (recorderTouches_putRecords ..)

theorem recorderTouches_writeDue (s : State) (r : RecDue) : RecorderTouches s (s.writeDue r) := by
  simp only [writeDue]
  split
  · rfl
  · exact RecorderTouches.trans (t := { s with recorder := _ }) rfl (recorderTouches_putRecords ..)

theorem recorderTouches_recorderWrite (s : State) : RecorderTouches s s.recorderWrite :=
  RecorderTouches.trans (t := { s with recorder := { s.recorder with due := [] } }) rfl
    (foldl_rel RecorderTouches.refl (fun _ _ _ => RecorderTouches.trans) (fun r _ s => recorderTouches_writeDue s r) _)

theorem recorderTouches_disarm (s : State) (i reason : Nat) : RecorderTouches s (s.disarm i reason) := by
  have hdue := s.recorderTouches_recorderWrite
  simp only [disarm]
  generalize s.recorderWrite = w at hdue
  split
  · exact hdue.trans (RecorderTouches.trans (w.recorderTouches_putRecords i _) rfl)
  · exact hdue

/-! Prefix commands that waited for a SUBMIT (R271). -/

/-- What a PFX command that goes on may change: its slot and pages, its registers, and the interrupt that ends it. -/
def PfxTouches (s t : State) : Prop := (∃ o, t.out = s.out ++ o) ∧ t = { s with
  kv := t.kv
  pdescs := t.pdescs
  prefixes := t.prefixes
  genCause := t.genCause
  vecs := t.vecs
  out := t.out }

theorem pfxTouches_pfxFinish (h : t = { s with pdescs := t.pdescs, prefixes := t.prefixes }) (st : Byte) :
    PfxTouches s (t.pfxFinish st) := by
  obtain ⟨v, o, hfinish⟩ := t.pfxFinish_spec st
  rw [hfinish, h]
  exact ⟨⟨o, rfl⟩, rfl⟩

theorem pfxTouches_pfxTake (s : State) (j : PfxJob) : PfxTouches s (s.pfxTake j) := by
  obtain ⟨d, hfree⟩ := s.pfxFree_spec j.ctx j.slot
  have hframe : s.pfxFree j.ctx j.slot = { s with
      pdescs := (s.pfxFree j.ctx j.slot).pdescs
      prefixes := (s.pfxFree j.ctx j.slot).prefixes } := by rw [hfree]
  simp only [pfxTake]
  generalize s.pfxFree j.ctx j.slot = w at hframe
  split
  · exact pfxTouches_pfxFinish hframe _
  · split
    · rw [hframe]
      exact ⟨⟨[], (List.append_nil _).symm⟩, rfl⟩
    · exact pfxTouches_pfxFinish hframe _

theorem pfxTouches_pfxResume (s : State) : PfxTouches s s.pfxResume := by
  have hsame : PfxTouches s s := ⟨⟨[], (List.append_nil _).symm⟩, rfl⟩
  rw [pfxResume]
  split
  · split
    · exact hsame
    · split
      · exact pfxTouches_pfxFinish rfl _
      · exact s.pfxTouches_pfxTake _
  · exact hsame

end State

end Sys2Proof.Machine

/-! Admission (R217, R218, R239). -/

namespace Sys2Proof.Machine

namespace State

variable {s t u : State} {i : Nat} {d : Desc}

/-- What an admission may change: the entry, what is kept beside it, pages, and the recorder that CTX_AUTO arms. -/
def AdmitTouches (s t : State) : Prop := t = { s with
  freeCtr := t.freeCtr
  out := t.out
  hbm := t.hbm
  pdescs := t.pdescs
  tables := t.tables
  prefixes := t.prefixes
  kv := { s.kv with
    copies := t.kv.copies
    moved := t.kv.moved }
  entries := t.entries
  inputs := t.inputs
  reels := t.reels
  smps := t.smps
  xrs := t.xrs
  recorder := t.recorder }

theorem AdmitTouches.trans (h : AdmitTouches s t) (k : AdmitTouches t u) : AdmitTouches s u := by
  rw [AdmitTouches] at h k ⊢
  rw [k, h]

theorem PageTouches.admitTouches (h : PageTouches s t) : AdmitTouches s t := by
  rw [h]
  rfl

theorem RecorderTouches.admitTouches (h : RecorderTouches s t) : AdmitTouches s t := by
  rw [h]
  rfl

/-- The length of the PFX slot that a SUBMIT names. -/
def prefixLen (s : State) (d : Desc) : Nat := if d.pfx = 0xFFFF then 0 else (s.pfx d.ctx d.pfx).length

/-- The entry of a sequence that a SUBMIT admits, its tables and its input at addresses that the spec leaves open. -/
def admitted (s : State) (d : Desc) (i : Nat) (tables input : W64) : SeqEntry :=
  { gen := (s.entry i).gen, st := .admitted, ctx := BitVec.ofNat 4 d.ctx, priority := BitVec.ofNat 3 d.priority
    length := BitVec.ofNat 21 (s.prefixLen d), deadline := s.fromNow d.deadline, pageTable := tables, inputPtr := input
    reel := d.reel, smp := BitVec.ofNat 32 i }

/-- A SUBMIT is admitted: its entry, its input still to be copied, its rows as they were. -/
structure Admits (s : State) (d : Desc) (i : Nat) (t : State) : Prop where
  touches : AdmitTouches s t
  entry : ∃ tables input, t.entry i = s.admitted d i tables input
  others : ∀ j, j ≠ i → t.entry j = s.entry j
  input : t.input i = { copying := d.count }
  rows : (t.tbl i).resRows = (s.tbl i).resRows

/-- The entry and what is kept beside it, once a SUBMIT has its directory. -/
def seated (s : State) (d : Desc) (i : Nat) (e : SeqEntry) (reel smp : List Byte) (p0 : Nat) : State := { s with
  entries := tabSet {} s.entries i e
  inputs := tabSet {} s.inputs i { copying := d.count }
  reels := tabSet {} s.reels i (reelFrom reel s.now)
  smps := tabSet {} s.smps i { par := slice smp 0 216 }
  xrs := tabSet {} s.xrs i { p0 := p0, prefixSlot := if d.pfx = 0xFFFF then none else some d.pfx } }

theorem takeIn_eq (s : State) (d : Desc) (i : Nat) (reel smp : List Byte) : s.takeIn d i reel smp =
    let w := s.openAddr.2.takeDir i d.ctx
    let x := w.seated d i (s.admitted d i (w.dirAddr i) s.openAddr.1) reel smp (s.prefixLen d)
    let y := if d.pfx = 0xFFFF then x else x.placePrefix i d.ctx d.pfx
    if y.autoArm d.ctx then y.recordStart i else y := rfl

theorem admits_seated (hw : PageTouches s t) (hrows : (t.tbl i).resRows = (s.tbl i).resRows) (tables input : W64) (reel smp : List Byte)
    (p0 : Nat) : Admits s d i (t.seated d i (s.admitted d i tables input) reel smp p0) where
  touches := hw.admitTouches.trans rfl
  entry := ⟨tables, input, tabGet_tabSet_self ..⟩
  others j hj := (tabGet_tabSet_ne _ _ _ _ hj).trans (entry_of_entries hw.entries_eq j)
  input := tabGet_tabSet_self ..
  rows := hrows

theorem Admits.pages (h : Admits s d i t) (k : PagesTaken i t u) : Admits s d i u where
  touches := h.touches.trans k.1.admitTouches
  entry := by rw [entry_of_entries k.1.entries_eq]; exact h.entry
  others j hj := (entry_of_entries k.1.entries_eq j).trans (h.others j hj)
  input := by rw [k.1]; exact h.input
  rows := by rw [k.2]; exact h.rows

theorem Admits.recorder (h : Admits s d i t) (k : RecorderTouches t u) : Admits s d i u where
  touches := h.touches.trans k.admitTouches
  entry := by rw [k]; exact h.entry
  others j hj := by rw [k]; exact h.others j hj
  input := by rw [k]; exact h.input
  rows := by rw [k]; exact h.rows

theorem admits_takeIn (s : State) (d : Desc) (i : Nat) (reel smp : List Byte) : Admits s d i (s.takeIn d i reel smp) := by
  rw [takeIn_eq]
  obtain ⟨hdir, -, htbl⟩ := s.openAddr.2.takeDir_spec i d.ctx
  generalize s.openAddr.2.takeDir i d.ctx = w at hdir htbl
  have hx : Admits s d i (w.seated d i (s.admitted d i (w.dirAddr i) s.openAddr.1) reel smp (s.prefixLen d)) :=
    admits_seated (PageTouches.trans (t := s.openAddr.2) rfl hdir) (by rw [htbl]; rfl) ..
  dsimp only
  generalize w.seated d i _ reel smp _ = x at hx
  have hy : Admits s d i (if d.pfx = 0xFFFF then x else x.placePrefix i d.ctx d.pfx) := by
    split
    · exact hx
    · exact hx.pages (x.placePrefix_spec i d.ctx d.pfx).1
  generalize (if d.pfx = 0xFFFF then x else x.placePrefix i d.ctx d.pfx) = y at hy
  split
  · exact hy.recorder (y.recorderTouches_recordStart i)
  · exact hy

theorem Admits.cplRing_eq (h : Admits s d i t) : t.cplRing = s.cplRing := by
  rw [h.touches]
  rfl

/-- A sequence that is admitted is known by the entry it takes, and is in the state of code 1. -/
theorem Admits.handleOf_eq (h : Admits s d i t) : t.handleOf i = s.handleOf i := by
  obtain ⟨tables, input, hentry⟩ := h.entry
  rw [handleOf, hentry]
  rfl

theorem Admits.stateCode_eq (h : Admits s d i t) : stateCode (t.entry i).st = 1 := by
  obtain ⟨tables, input, hentry⟩ := h.entry
  rw [hentry]
  rfl

/-- What an admission comes to: the sequence is in, its rows are reserved, and its command is answered with its handle. -/
def admitNow (s : State) (d : Desc) (i : Nat) (reel smp : List Byte) (rows : Nat) : State :=
  let t := (s.takeIn d i reel smp).addRows i rows
  t.cmdDone d (BitVec.ofNat 32 (t.handleOf i)) (some i) sOK 0 true

theorem admitNow_spec (s : State) (d : Desc) (i : Nat) (reel smp : List Byte) (rows : Nat) : let t := s.admitNow d i reel smp rows
    Answered s t d (BitVec.ofNat 32 (s.handleOf i)) sOK 1 0 ∧ (∃ tables input, t.entry i = s.admitted d i tables input) ∧
    (∀ j, j ≠ i → t.entry j = s.entry j) ∧ t.input i = { copying := d.count } ∧
    (t.tbl i).resRows = (s.tbl i).resRows + BitVec.ofNat 16 rows ∧ t.seq.awaits = s.seq.awaits := by
  have hin := s.admits_takeIn d i reel smp
  simp only [admitNow]
  generalize s.takeIn d i reel smp = u at hin
  have hhandle : (u.addRows i rows).handleOf i = s.handleOf i := hin.handleOf_eq
  have hcode : stateCode ((u.addRows i rows).entry i).st = 1 := hin.stateCode_eq
  have hans := answered_complete (u := u.addRows i rows) hin.cplRing_eq d (BitVec.ofNat 32 (s.handleOf i)) sOK 1 0
  have htbl : ((u.addRows i rows).tbl i).resRows = (s.tbl i).resRows + BitVec.ofNat 16 rows := by
    rw [addRows, tbl_modTbl, hin.rows]
  have hawaits : (u.addRows i rows).seq.awaits = s.seq.awaits := by
    rw [show (u.addRows i rows).seq = u.seq from rfl, hin.touches]
  rw [cmdDone, hhandle, Option.map_some, Option.getD_some, hcode]
  have hring := (u.addRows i rows).ringTouches_complete ⟨d.tag, BitVec.ofNat 32 (s.handleOf i), sOK, d.opcode, 1, 0⟩ true
  generalize (u.addRows i rows).complete _ true = t at hans hring
  refine ⟨hans, ?_, ?_, ?_, ?_, ?_⟩ <;> rw [hring]
  · exact hin.entry
  · exact hin.others
  · exact hin.input
  · exact htbl
  · exact hawaits

/-! SUBMIT (R217). -/

theorem submit_of_refusal {st : Byte} {reel smp : Option (List Byte)} (h : (s.unfetch d).submitCheck d reel smp = some st) (ok : Bool) :
    s.submit d reel smp ok = (s.unfetch d).cmdDone d 0 none st 0 ok := by
  rw [submit, h]

theorem submit_alone {reel smp : Option (List Byte)} (h : (s.unfetch d).submitCheck d reel smp = none)
    (hfree : (s.unfetch d).freeEntry = some i) (halone : (s.unfetch d).members = []) :
    s.submit d reel smp true = (s.unfetch d).admitNow d i (reel.getD []) (smp.getD []) ((s.unfetch d).submitRows d) := by
  rw [submit, h, hfree]
  exact if_pos (by rw [halone]; rfl)

/-- With members, a SUBMIT that passes its checks waits for their reservations. -/
theorem submit_await {reel smp : Option (List Byte)} (h : (s.unfetch d).submitCheck d reel smp = none)
    (hfree : (s.unfetch d).freeEntry = some i) (hmembers : (s.unfetch d).members ≠ []) : ∃ g a,
    s.submit d reel smp true = { s with
      rig := g
      seq := { (s.unfetch d).seq with awaits := s.seq.awaits ++ [a] } } ∧
    a.idx = i ∧ a.ctx = d.ctx ∧ a.cmd = d ∧ a.rows = s.submitRows d ∧ a.waiting = s.members ∧ a.acked = [] ∧ a.refused = false := by
  rw [submit, h, hfree]
  dsimp only
  rw [if_neg (by simpa using hmembers), sendMembers_frame]
  exact ⟨_, _, rfl, rfl, rfl, rfl, rfl, rfl, rfl, rfl⟩

end State

theorem exec_submit (d : Desc) (reel smp : Option (List Byte)) (ok : Bool) (s : State) : exec (.submit d reel smp ok) s =
    act (decide (d.opcode = 1) && s.seqMay d) s (fun s => (s.submit d reel smp ok).pfxResume) := rfl

section

open State

variable {s u : State} {n : Instr} {ok : Bool} {f : State → State} {P : State → Prop}

/-- A command completes with what it makes, the PFX command that had waited for it apart. -/
theorem completes_pfxResume (h : exec n s = act ok s (fun s => (f s).pfxResume)) (hok : ok = true) (hf : f s = u)
    (hp : ∀ t, PfxTouches u t → P (s.keepBoot t)) : Completes n s P := by
  refine completes_act h hok ?_
  rw [hf]
  exact hp _ u.pfxTouches_pfxResume

end

/-- Settles O35: the checks and the members decide between an admission, a wait and an answer, and a PFX command that goes on after
them touches no entry, table or input. -/
theorem submitAdmits : Obligations.SubmitAdmits := by
  intro s d reel smp hop hmay
  have hok : (decide (d.opcode = 1) && s.seqMay d) = true := by rw [hmay, decide_eq_true hop]; rfl
  refine ⟨fun i hcheck hfree => ⟨fun halone => ?_, fun hmembers => ?_⟩, fun st hcheck => ?_⟩
  · obtain ⟨hans, ⟨tables, input, hentry⟩, hothers, hinput, hrows, -⟩ :=
      (s.unfetch d).admitNow_spec d i (reel.getD []) (smp.getD []) ((s.unfetch d).submitRows d)
    refine completes_pfxResume (exec_submit ..) hok (State.submit_alone hcheck hfree halone) fun t ht => ?_
    have hans' := hans.mono (u := t) (by rw [ht.2]) ht.1
    generalize (s.unfetch d).admitNow d i _ _ _ = w at hentry hothers hinput hrows ht
    have hentry' : t.entry i = w.entry i := by rw [ht.2]; rfl
    rw [State.keepBoot_entry, hentry', hentry]
    refine ⟨rfl, rfl, rfl, rfl, rfl, rfl, rfl, rfl, rfl, rfl, ?_, ?_, fun j hj => ?_, hans'⟩
    all_goals rw [ht.2]
    · exact hrows
    · exact hinput
    · exact hothers j hj
  · obtain ⟨g, a, hwait, hidx, hctx, hcmd, hrows, hwaiting, hacked, hrefused⟩ := State.submit_await hcheck hfree hmembers
    refine completes_pfxResume (exec_submit ..) hok hwait fun t ht => ?_
    rw [ht.2]
    exact ⟨⟨a, rfl, hidx, hctx, hcmd, hrows, hwaiting, hacked, hrefused⟩, rfl, rfl, rfl, rfl⟩
  · refine completes_pfxResume (exec_submit ..) hok (State.submit_of_refusal hcheck true) fun t ht => ?_
    obtain ⟨hans, hring⟩ := State.cmdDone_spec (s := s) (u := s.unfetch d) rfl d 0 none st 0
    generalize (s.unfetch d).cmdDone d 0 none st 0 true = w at hans hring ht
    refine ⟨hans.mono (by rw [ht.2]; rfl) ht.1, ?_, ?_, ?_⟩
    all_goals
      rw [ht.2, hring]
      rfl

end Sys2Proof.Machine

/-! How a sequence leaves its turn (Table 10.3), and the commands on an entry (Table 10.6). -/

namespace Sys2Proof.Machine

namespace State

variable {s t u : State} {i : Nat} {d : Desc}

/-! The ends of a turn. -/

/-- What the end of a turn may change: the entry, its reserved rows, its reel, and the count of those expired. -/
def EndTouches (s t : State) : Prop := t = { s with
  entries := t.entries
  tables := t.tables
  reels := t.reels
  seq := { s.seq with expired := t.seq.expired } }

theorem EndTouches.trans (h : EndTouches s t) (k : EndTouches t u) : EndTouches s u := by
  rw [EndTouches] at h k ⊢
  rw [k, h]

theorem EndTouches.cplRing_eq (h : EndTouches s t) : t.cplRing = s.cplRing := by
  rw [h]
  rfl

theorem record_frame (s : State) (i typ flags step detail : Nat) : s.record i typ flags step detail = { s with
    entries := (s.record i typ flags step detail).entries
    reels := (s.record i typ flags step detail).reels } := by
  simp only [record, putReel, notePend]
  rfl

theorem pendOnly_putReel (s : State) (i : Nat) (r : ReelRec) : PendOnly i s (s.putReel i r) :=
  (pendOnly_of_entries rfl).trans (pendOnly_notePend (s.setReel i _) i)

theorem pendOnly_record (s : State) (i typ flags step detail : Nat) : PendOnly i s (s.record i typ flags step detail) :=
  pendOnly_putReel ..

/-- Entry i is `e` but for PEND_REC, and every other entry is as it was. -/
def EntryIs (i : Nat) (e : SeqEntry) (s t : State) : Prop :=
  t.entry i = { e with pendRec := (t.entry i).pendRec } ∧ ∀ k, k ≠ i → t.entry k = s.entry k

theorem entryIs_setEntry (s : State) (i : Nat) (e : SeqEntry) : EntryIs i e s (s.setEntry i e) :=
  ⟨by rw [entry_setEntry], fun _ hk => entry_setEntry_ne s e hk⟩

theorem EntryIs.pend {e : SeqEntry} (h : EntryIs i e s t) (k : PendOnly i t u) : EntryIs i e s u :=
  ⟨by rw [k.1, h.1], fun j hj => (k.2 j hj).trans (h.2 j hj)⟩

theorem endTouches_record (s : State) (i typ flags step detail : Nat) : EndTouches s (s.record i typ flags step detail) := by
  rw [record_frame]
  rfl

/-- A sequence settles in a state: its reserved rows return, and a deadline ends with WAITING and ENDED. -/
theorem settle_spec (s : State) (i : Nat) (st : SeqState) : EndTouches s (s.settle i st) ∧ ((s.settle i st).tbl i).resRows = 0 ∧
    (s.settle i st).entry i = { s.entry i with
      st := st
      deadline := if st = .waiting ∨ st = .ended then 0 else (s.entry i).deadline } ∧
    ∀ k, k ≠ i → (s.settle i st).entry k = s.entry k :=
  ⟨rfl, congrArg Tables.resRows (s.tbl_modTbl i (fun t => { t with resRows := 0, released := false })),
    entry_setEntry (s.dropRows i) i _, fun _ hk => entry_setEntry_ne (s.dropRows i) _ hk⟩

theorem toCancelled_spec (s : State) (i step : Nat) : EndTouches s (s.toCancelled i step) ∧ ((s.toCancelled i step).tbl i).resRows = 0 ∧
    EntryIs i { s.entry i with st := .cancelled } s (s.toCancelled i step) := by
  obtain ⟨htouches, hrows, hentry, hothers⟩ := s.settle_spec i .cancelled
  rw [toCancelled]
  generalize s.settle i .cancelled = w at htouches hrows hentry hothers
  refine ⟨htouches.trans (w.endTouches_record ..), ?_, EntryIs.pend ⟨?_, hothers⟩ (w.pendOnly_record ..)⟩
  · rwa [record_frame]
  · rw [hentry]
    rfl

theorem toFaulted_spec (s : State) (i step : Nat) (cause : BitVec 4) : EndTouches s (s.toFaulted i step cause) ∧
    EntryIs i { s.entry i with st := .faulted, fault := cause, stepFault := 0 } s (s.toFaulted i step cause) := by
  obtain ⟨htouches, -, hentry, hothers⟩ := s.settle_spec i .faulted
  rw [toFaulted]
  generalize s.settle i .faulted = w at htouches hentry hothers
  have hmod : EntryIs i { s.entry i with st := .faulted, fault := cause, stepFault := 0 } s
      (w.modEntry i (fun e => { e with fault := cause, stepFault := 0 })) := by
    refine ⟨?_, fun k hk => (entry_modEntry_ne w _ hk).trans (hothers k hk)⟩
    rw [entry_modEntry, hentry]
    rfl
  have htouches' : EndTouches s (w.modEntry i (fun e => { e with fault := cause, stepFault := 0 })) :=
    htouches.trans (t := w) (rfl : EndTouches w (w.modEntry i _))
  exact ⟨htouches'.trans (endTouches_record ..), hmod.pend (pendOnly_record ..)⟩

theorem toExpired_spec (s : State) (i step : Nat) : s.toExpired i step = { s with
      entries := (s.toExpired i step).entries
      reels := (s.toExpired i step).reels
      seq := { s.seq with expired := satAdd s.seq.expired 1 } } ∧
    EntryIs i { s.entry i with st := .expired, expFrom := decide ((s.entry i).input = 0) } s (s.toExpired i step) := by
  let w : State := { s.modEntry i (fun e => { e with st := .expired, expFrom := decide (e.input = 0) }) with
    seq := { s.seq with expired := satAdd s.seq.expired 1 } }
  have hmod : EntryIs i { s.entry i with st := .expired, expFrom := decide ((s.entry i).input = 0) } s w := entryIs_setEntry s i _
  refine ⟨?_, hmod.pend (w.pendOnly_record ..)⟩
  rw [toExpired]
  dsimp only
  rw [record_frame]
  rfl

/-! Refusals and answers. -/

/-- The state that an answer shows for an entry. -/
theorem code_of_entry {e : SeqEntry} {code : Nat} (h : s.entry i = e) (hcode : stateCode e.st = code) :
    ((some i).map (fun i => stateCode (s.entry i).st)).getD 0 = code := by
  rw [Option.map_some, Option.getD_some, h, hcode]

end State

section

open State

variable {s u : State} {n : Instr} {ok : Bool} {f : State → State} {P : State → Prop} {d : Desc} {h : W32} {i : Option Nat} {st : Byte}
  {b11 code : Nat}

/-- A command that comes to its answer in state u completes with it. -/
theorem completes_cmdDone (hexec : exec n s = act ok s f) (hok : ok = true) (hf : f s = u.cmdDone d h i st b11 true)
    (hring : u.cplRing = s.cplRing) (hcode : (i.map (fun i => stateCode (u.entry i).st)).getD 0 = code)
    (hp : ∀ t, RingTouches u t → Answered s t d h st code b11 → P (s.keepBoot t)) : Completes n s P := by
  obtain ⟨hans, htouches⟩ := cmdDone_spec hring d h i st b11
  refine completes_act hexec hok ?_
  rw [hf]
  exact hp _ htouches (hcode ▸ hans)

end

end Sys2Proof.Machine

/-! APPEND, RESUME, CANCEL, SET_PRIORITY and FORK (R215, R220, R230, R236). -/

namespace Sys2Proof.Machine

namespace State

variable {s t u : State} {i j : Nat} {d : Desc}

/-! APPEND (R220). -/

theorem appendNow_spec (s : State) (d : Desc) (i : Nat) : let t := s.appendNow d i
    (t = { s with
      entries := t.entries
      inputs := t.inputs
      smps := t.smps }) ∧
    t.entry i = { s.entry i with
      st := .admitted
      input := BitVec.ofNat 21 ((s.entry i).nextValid.toNat + d.count)
      nextValid := false
      deadline := s.fromNow d.deadline
      hint := 0 } ∧
    (∀ k, k ≠ i → t.entry k = s.entry k) ∧
    t.input i = {
      toks := if (s.entry i).nextValid then [(s.entry i).next.toNat] else []
      nextFirst := (s.entry i).nextValid
      copying := d.count } ∧ (t.smpOf i).new = 0 := by
  let w := s.setInput i { toks := if (s.entry i).nextValid then [(s.entry i).next.toNat] else [], nextFirst := (s.entry i).nextValid
                          copying := d.count }
  let x := w.setSmp i { w.smpOf i with new := 0, matches_ := [0, 0, 0, 0], due := none }
  exact ⟨rfl, entry_setEntry x i _, fun _ hk => entry_setEntry_ne x _ hk, input_setInput s i _, congrArg Smp.new (w.smpOf_setSmp i _)⟩

/-- An APPEND that passes its checks takes effect at once on a device without members. -/
theorem append_alone (halign : badAlign d = false) (hin : (s.unfetch d).entryRefusal d true = (none, i))
    (hst : (s.entry i).st = .waiting ∨ (s.entry i).st = .ended) (hcount : d.count ≠ 0)
    (hlen : (s.entry i).length.toNat + ((s.entry i).nextValid.toNat + d.count) ≤ 1048576)
    (hroom : ((s.entry i).nextValid.toNat + d.count + 1023) / 1024 ≤ (s.unfetch d).inputFree)
    (hfits : (s.unfetch d).cmdFits i (s.entry i).ctx.toNat (s.entry i).length.toNat ((s.unfetch d).cmdRows i (s.entry i).ctx.toNat
      (s.entry i).length.toNat ((s.entry i).nextValid.toNat + d.count)) false = true)
    (halone : (s.unfetch d).members = []) : s.append d true = (((s.unfetch d).addRows i ((s.unfetch d).cmdRows i (s.entry i).ctx.toNat
      (s.entry i).length.toNat ((s.entry i).nextValid.toNat + d.count))).appendNow d i).onEntry d i sOK true := by
  rw [append, if_neg (by rw [halign]; exact Bool.false_ne_true), hin]
  have hstate : ¬ ((s.entry i).st ≠ .waiting ∧ (s.entry i).st ≠ .ended) := fun h => hst.elim h.1 h.2
  refine (if_neg hstate).trans ((if_neg hcount).trans ((if_neg (Nat.not_lt.2 hlen)).trans ((if_neg (Nat.not_lt.2 hroom)).trans ?_)))
  refine (if_neg ?_).trans (if_pos (by rw [halone]; rfl))
  exact fun h => Bool.false_ne_true ((congrArg not hfits).symm.trans h)

/-! RESUME and CANCEL (R230, Table 10.6). -/

theorem resume_of_expired (hin : (s.unfetch d).entryRefusal d true = (none, i)) (hst : (s.entry i).st = .expired) : s.resume d true =
    (((s.unfetch d).setEntry i { s.entry i with
      st := if (s.entry i).expFrom then .decode else .prefill
      deadline := s.fromNow d.deadline }).park i).onEntry d i sOK true := by
  rw [resume, hin]
  exact if_neg (fun h => h hst)

/-- A CANCEL that waits for the commit point is kept with the entry. -/
def cancelWaits (s : State) (i : Nat) (d : Desc) : State :=
  s.setEntry i { s.entry i with cancelPend := true, cancels := (s.entry i).cancels ++ [d] }

theorem cancelOf_waits (h : (s.entry i).st = .admitted ∨ (s.entry i).st = .restarting ∨
    (((s.entry i).st = .prefill ∨ (s.entry i).st = .decode) ∧ (s.entry i).inFlight = true)) (d : Desc) :
    s.cancelOf i d = (s.cancelWaits i d, none) := by
  obtain h | h | ⟨h | h, hfly⟩ := h
  · simp only [cancelOf, cancelWaits, h]
  · simp only [cancelOf, cancelWaits, h]
  · simp only [cancelOf, cancelWaits, h, hfly, if_true]
  · simp only [cancelOf, cancelWaits, h, hfly, if_true]

theorem cancelOf_now (h : (s.entry i).st = .parked ∨ ((s.entry i).st = .waiting ∧ (s.entry i).moving = false) ∨
    (((s.entry i).st = .prefill ∨ (s.entry i).st = .decode) ∧ (s.entry i).inFlight = false)) (d : Desc) :
    s.cancelOf i d = (s.toCancelled i s.seqStep, some sOK) := by
  obtain h | ⟨h, hstill⟩ | ⟨h | h, hfly⟩ := h
  · simp only [cancelOf, cancelNow, h]
  · simp only [cancelOf, cancelNow, h, hstill, Bool.false_eq_true, if_false]
  · simp only [cancelOf, cancelNow, h, hfly, Bool.false_eq_true, if_false]
  · simp only [cancelOf, cancelNow, h, hfly, Bool.false_eq_true, if_false]

theorem cancelOf_ended (h : (s.entry i).st = .ended ∨ (s.entry i).st = .cancelled ∨ (s.entry i).st = .expired ∨ (s.entry i).st = .faulted)
    (d : Desc) : s.cancelOf i d = (s, some sAlreadyEnded) := by
  obtain h | h | h | h := h <;> simp only [cancelOf, h]

theorem cancel_of_waits (hi : (s.unfetch d).byHandle d.handle = some i) (h : (s.unfetch d).cancelOf i d = (t, none)) (ok : Bool) :
    s.cancel d ok = t := by
  simp only [cancel, hi, h]

theorem cancel_of_now {st : Byte} (hi : (s.unfetch d).byHandle d.handle = some i)
    (h : (s.unfetch d).cancelOf i d = (t, some st)) (ok : Bool) :
    s.cancel d ok = t.onEntry d i st ok := by
  simp only [cancel, hi, h]

theorem setPriority_of_byHandle (hi : (s.unfetch d).byHandle d.handle = some i) (ok : Bool) :
    s.setPriority d ok = ((s.unfetch d).setPriorityOf i d).onEntry d i sOK ok := by
  simp only [setPriority, hi]

theorem setPriorityOf_spec (s : State) (i : Nat) (d : Desc) : (s.setPriorityOf i d).entry i = { s.entry i with
      priority := if d.flags % 2 = 1 then BitVec.ofNat 3 d.priority else (s.entry i).priority
      deadline := if (d.flags >>> 1) % 2 = 1 then s.fromNow d.deadline else (s.entry i).deadline
      hint := if (d.flags >>> 2) % 2 = 1 then s.fromNow d.hint else (s.entry i).hint } ∧
    ∀ k, k ≠ i → (s.setPriorityOf i d).entry k = s.entry k :=
  ⟨entry_setEntry .., fun _ hk => entry_setEntry_ne s _ hk⟩

/-! FORK (R236, R259). -/

theorem pagesTaken_copied (s : State) (i : Nat) : PagesTaken i s { s with kv := { s.kv with copies := s.kv.copies + 1 } } := ⟨rfl, rfl⟩

/-- A fork takes a directory of its own for the new entry, and pages. As with `beatWork_takeFrame`, the searches for a block and a frame are
abstracted before `forkTables` is taken apart. -/
theorem forkTables_spec (s : State) (src new c : Nat) : PageTouches s (s.forkTables src new c) ∧
    (s.forkTables src new c).tbl new = { s.tbl new with
      owned := true
      ctx := c
      dir := ((s.forkTables src new c).tbl new).dir
      dirBlocks := ((s.forkTables src new c).tbl new).dirBlocks
      ptrs := ((s.forkTables src new c).tbl new).ptrs
      pages := ((s.forkTables src new c).tbl new).pages } := by
  obtain ⟨hdir, -, htbl⟩ := s.takeDir_spec new c
  have hdef : @forkTables = @forkTables := rfl
  conv at hdef => rhs; delta forkTables
  obtain ⟨blocks, hblocks⟩ : ∃ f, f = @takeBlocks := ⟨_, rfl⟩
  obtain ⟨frame, hframe⟩ : ∃ f, f = @takeFrame := ⟨_, rfl⟩
  have htake : ∀ s n, PagesTaken new s (blocks s n).2 := fun s n => hblocks ▸ s.pagesTaken_takeBlocks new n
  have hfind : ∀ s k c refs ro, PagesTaken new s (frame s k c refs ro).2 := fun s k c refs ro =>
    hframe ▸ s.pagesTaken_takeFrame new k c refs ro
  rw [← hblocks, ← hframe] at hdef
  rw [hdef]
  dsimp only
  generalize s.takeDir new c = w at hdir htbl
  have hptrs := foldl_pagesTaken (i := new) (f := fun s x => (blocks s 1).2.modTbl new (fun t => { t with
    ptrs := tabSet 0 t.ptrs x.1 ((blocks s 1).1 + 1) })) (fun s x => (htake s 1).trans (pagesTaken_modTbl _ new)) (s.tbl src).ptrs w
  generalize List.foldl _ w (s.tbl src).ptrs = x at hptrs
  generalize hy : List.foldl _ x (s.tbl src).pages = y
  have hpages : PagesTaken new x y := by
    rw [← hy]
    refine foldl_pagesTaken (fun s ep => ?_) _ x
    split
    · exact pagesTaken_setTblPage ..
    · split
      · have hr := hfind s (pageStack (ep.2 - 1)) c 1 false
        generalize frame s _ _ _ _ = r at hr
        obtain ⟨_ | q, w⟩ := r
        · exact hr
        · exact ((hr.trans (w.pagesTaken_writePage new q 0 _)).trans (pagesTaken_setTblPage ..)).trans (pagesTaken_copied _ new)
      · exact (pagesTaken_setPdesc ..).trans (pagesTaken_setTblPage ..)
  have htaken := hptrs.trans hpages
  suffices h : ∀ z, PagesTaken new y z → PageTouches s z ∧ z.tbl new = { s.tbl new with
      owned := true
      ctx := c
      dir := (z.tbl new).dir
      dirBlocks := (z.tbl new).dirBlocks
      ptrs := (z.tbl new).ptrs
      pages := (z.tbl new).pages } by
    split
    · exact h _ (pagesTaken_setPfx ..)
    · exact h _ (.refl new y)
  intro z hz
  obtain ⟨htouches, hz⟩ := htaken.trans hz
  exact ⟨hdir.trans htouches, by rw [hz, htbl]⟩

/-- The entry that a FORK makes, its tables at an address that the spec leaves open. -/
def forked (s : State) (d : Desc) (src i : Nat) (tables : W64) : SeqEntry :=
  { gen := (s.entry i).gen, st := (s.entry src).st, ctx := (s.entry src).ctx, priority := BitVec.ofNat 3 d.priority
    length := (s.entry src).length, nextValid := (s.entry src).nextValid, next := (s.entry src).next, pageTable := tables
    reel := d.reel, smp := BitVec.ofNat 32 i }

/-- The entry and what is kept beside it, once a FORK has its tables. -/
def forkSeated (s : State) (src i : Nat) (e : SeqEntry) (reel smp : List Byte) : State := { s with
  entries := tabSet {} s.entries i e
  reels := tabSet {} s.reels i (reelFrom reel s.now)
  smps := tabSet {} s.smps i { s.smpOf src with par := slice smp 0 216 }
  xrs := tabSet {} s.xrs i (s.xr src) }

theorem forkNow_eq (s : State) (d : Desc) (src i : Nat) (reel smp : List Byte) : s.forkNow d src i reel smp =
    let w := (s.setTbl i {}).forkTables src i (s.entry src).ctx.toNat
    w.forkSeated src i { s.forked d src i (w.dirAddr i) with gen := (w.entry i).gen } reel smp := by
  rw [forkNow]
  dsimp only
  generalize (s.setTbl i {}).forkTables src i (s.entry src).ctx.toNat = w
  rfl

theorem forkNow_spec (s : State) (d : Desc) (src i : Nat) (reel smp : List Byte) : let t := s.forkNow d src i reel smp
    AdmitTouches s t ∧ (∃ tables, t.entry i = s.forked d src i tables) ∧ ∀ k, k ≠ i → t.entry k = s.entry k := by
  obtain ⟨htouches, -⟩ := (s.setTbl i {}).forkTables_spec src i (s.entry src).ctx.toNat
  have hw : PageTouches s ((s.setTbl i {}).forkTables src i (s.entry src).ctx.toNat) :=
    PageTouches.trans (t := s.setTbl i {}) rfl htouches
  rw [forkNow_eq]
  generalize (s.setTbl i {}).forkTables src i (s.entry src).ctx.toNat = w at hw
  have hentries := entry_of_entries hw.entries_eq
  refine ⟨hw.admitTouches.trans rfl, ⟨w.dirAddr i, ?_⟩, fun k hk => (tabGet_tabSet_ne _ _ _ _ hk).trans (hentries k)⟩
  refine (tabGet_tabSet_self ..).trans ?_
  rw [hentries, forked]

theorem fork_alone {rb mb : List Byte} (halign : badAlign d = false) (hin : (s.unfetch d).entryRefusal d true = (none, i))
    (hst : (s.entry i).st = .waiting ∨ (s.entry i).st = .ended) (hreel : reelOk rb = true)
    (hsmp : smpOk mb ((s.unfetch d).vocabOf (s.entry i).ctx.toNat) = true) (hfree : (s.unfetch d).freeEntry = some j)
    (hroom : (s.unfetch d).ctxFull (s.entry i).ctx.toNat = false)
    (hfits : (s.unfetch d).fits (s.entry i).ctx.toNat ((s.unfetch d).forkNeed i) true = true)
    (hblocks : (s.unfetch d).dirSize (s.entry i).ctx.toNat + (s.tbl i).ptrs.length ≤ (s.unfetch d).ptbFree)
    (halone : (s.unfetch d).members = []) : s.fork d (some rb) (some mb) true =
      let t := (s.unfetch d).forkNow d i j rb mb
      t.cmdDone d (BitVec.ofNat 32 (t.handleOf j)) (some j) sOK 0 true := by
  rw [fork, if_neg (by rw [halign]; exact Bool.false_ne_true), hin]
  have hstate : ¬ ((s.entry i).st ≠ .waiting ∧ (s.entry i).st ≠ .ended) := fun h => hst.elim h.1 h.2
  refine (if_neg hstate).trans ((if_neg (by simp [hreel])).trans ((if_neg ?_).trans ?_))
  · rw [Option.map_some, Option.getD_some, show smpOk mb ((s.unfetch d).vocabOf ((s.unfetch d).entry i).ctx.toNat) = true from hsmp]
    exact Bool.false_ne_true
  · rw [hfree]
    have hfull : (s.unfetch d).ctxFull ((s.unfetch d).entry i).ctx.toNat = false := hroom
    refine (if_neg (by rw [hfull]; exact Bool.false_ne_true)).trans
      ((if_neg ?_).trans (if_pos (by rw [halone]; rfl)))
    rw [show (s.unfetch d).fits ((s.unfetch d).entry i).ctx.toNat _ true = true from hfits, Bool.not_true, Bool.false_or, decide_eq_true_eq,
      Nat.not_lt]
    exact hblocks

end State

theorem exec_append (d : Desc) (ok : Bool) (s : State) :
    exec (.append d ok) s = act (decide (d.opcode = 2) && s.seqMay d) s (·.append d ok) := rfl

theorem exec_resume (d : Desc) (ok : Bool) (s : State) :
    exec (.resume d ok) s = act (decide (d.opcode = 3) && s.seqMay d) s (·.resume d ok) := rfl

theorem exec_cancel (d : Desc) (ok : Bool) (s : State) :
    exec (.cancel d ok) s = act (decide (d.opcode = 4) && s.seqMay d) s (·.cancel d ok) := rfl

theorem exec_fork (d : Desc) (reel smp : Option (List Byte)) (ok : Bool) (s : State) :
    exec (.fork d reel smp ok) s = act (decide (d.opcode = 5) && s.seqMay d) s (·.fork d reel smp ok) := rfl

theorem exec_setPriority (d : Desc) (ok : Bool) (s : State) :
    exec (.setPriority d ok) s = act (decide (d.opcode = 9) && s.seqMay d) s (·.setPriority d ok) := rfl

/-- A command of its opcode that may be taken is. -/
theorem seqMay_of_opcode {s : State} {d : Desc} {n : Nat} (hop : d.opcode = n) (hmay : s.seqMay d = true) :
    (decide (d.opcode = n) && s.seqMay d) = true := by
  rw [hmay, decide_eq_true hop]
  rfl

section

open State

variable {s : State} {d : Desc} {i j : Nat}

theorem completes_append (hok : (decide (d.opcode = 2) && s.seqMay d) = true) (rows : Nat)
    (hf : s.append d true = (((s.unfetch d).addRows i rows).appendNow d i).onEntry d i sOK true) : Completes (.append d true) s (fun t =>
      t.entry i = { s.entry i with
        st := .admitted
        input := BitVec.ofNat 21 ((s.entry i).nextValid.toNat + d.count)
        nextValid := false
        deadline := s.fromNow d.deadline
        hint := 0 } ∧
      t.input i = {
        toks := if (s.entry i).nextValid then [(s.entry i).next.toNat] else []
        nextFirst := (s.entry i).nextValid
        copying := d.count } ∧
      (t.tbl i).resRows = (s.tbl i).resRows + BitVec.ofNat 16 rows ∧ (t.smpOf i).new = 0 ∧
      (∀ k, k ≠ i → t.entry k = s.entry k) ∧ Answered s t d d.handle sOK 1 0) := by
  obtain ⟨htouches, hentry, hothers, hinput, hnew⟩ := ((s.unfetch d).addRows i rows).appendNow_spec d i
  have hrows : (((s.unfetch d).addRows i rows).tbl i).resRows = (s.tbl i).resRows + BitVec.ofNat 16 rows := by
    rw [addRows, tbl_modTbl]
    rfl
  generalize ((s.unfetch d).addRows i rows).appendNow d i = u at hf htouches hentry hothers hinput hnew
  refine completes_cmdDone (exec_append ..) hok hf (by rw [htouches]; rfl) (code_of_entry hentry rfl) fun t ht hans => ?_
  have htbl : u.tbl i = ((s.unfetch d).addRows i rows).tbl i := by
    rw [htouches]
    rfl
  refine ⟨?_, ?_, ?_, ?_, ?_, hans⟩ <;> rw [ht]
  · exact hentry
  · exact hinput
  · exact (congrArg Tables.resRows htbl).trans hrows
  · exact hnew
  · exact hothers

theorem completes_resume (hok : (decide (d.opcode = 3) && s.seqMay d) = true) (hin : (s.unfetch d).entryRefusal d true = (none, i))
    (hst : (s.entry i).st = .expired) (hroom : 2 ≤ reelRoom (s.reel i)) (hheld : (s.reel i).held = []) (hqueued : (s.reel i).heldQ = 0) :
    Completes (.resume d true) s (fun t =>
      t.entry i = { s.entry i with
        st := if (s.entry i).expFrom then .decode else .prefill
        deadline := s.fromNow d.deadline } ∧ (∀ k, k ≠ i → t.entry k = s.entry k) ∧
      Answered s t d d.handle sOK (if (s.entry i).expFrom then 3 else 2) 0) := by
  let e : SeqEntry := { s.entry i with st := if (s.entry i).expFrom then .decode else .prefill, deadline := s.fromNow d.deadline }
  have hentry : ((s.unfetch d).setEntry i e).entry i = e := entry_setEntry ..
  have hpark : ((s.unfetch d).setEntry i e).park i = (s.unfetch d).setEntry i e := by
    refine park_of_roomy ?_ (reelShort_of_roomy (x := s.reel i) hroom hheld hqueued)
    rw [hentry]
    change (if (s.entry i).expFrom = true then SeqState.decode else SeqState.prefill) ≠ .parked
    split <;> exact fun h => nomatch h
  have hf := resume_of_expired hin hst
  rw [hpark] at hf
  have hcode : stateCode e.st = if (s.entry i).expFrom then 3 else 2 := apply_ite stateCode ..
  refine completes_cmdDone (exec_resume ..) hok hf rfl (code_of_entry hentry hcode) fun t ht hans => ?_
  refine ⟨?_, ?_, hans⟩ <;> rw [ht]
  · exact hentry
  · exact fun k hk => entry_setEntry_ne (s.unfetch d) e hk

end

/-- Settles O36: each command's checks leave one case, its effect writes one entry, and it is answered with that entry's state. -/
theorem entryCommands : Obligations.EntryCommands := by
  intro s d i hmay
  refine ⟨fun hop halign hin hst hcount hlen hroom hfits halone => ?_, fun hop hin hst _ hroom hheld hqueued => ?_,
    fun hop hi => ⟨fun h => ?_, fun h => ?_, fun h => ?_⟩, fun hop hi => ?_,
    fun j rb mb hop halign hin hst hreel hsmp hfree hctx hfits hblocks halone => ?_⟩
  all_goals have hok := seqMay_of_opcode hop hmay
  · exact completes_append hok _ (State.append_alone halign hin hst hcount hlen hroom hfits halone)
  · exact completes_resume hok hin hst hroom hheld hqueued
  · have hwait := State.cancel_of_waits hi (State.cancelOf_waits (s := s.unfetch d) h d) true
    exact completes_kept (exec_cancel ..) hok hwait (State.keepBoot_of rfl rfl rfl rfl rfl rfl)
      ⟨State.entry_setEntry .., fun _ hk => State.entry_setEntry_ne (s.unfetch d) _ hk, rfl⟩
  · have hnow := State.cancel_of_now hi (State.cancelOf_now (s := s.unfetch d) h d) true
    obtain ⟨htouches, hrows, hentry⟩ := (s.unfetch d).toCancelled_spec i (s.unfetch d).seqStep
    generalize (s.unfetch d).toCancelled i (s.unfetch d).seqStep = u at hnow htouches hrows hentry
    refine completes_cmdDone (exec_cancel ..) hok hnow htouches.cplRing_eq (State.code_of_entry hentry.1 rfl)
      fun t ht hans => ⟨?_, ?_, ?_, hans⟩
    all_goals rw [ht]
    · exact hentry.1
    · exact hrows
    · exact hentry.2
  · have hnow := State.cancel_of_now hi (State.cancelOf_ended (s := s.unfetch d) h d) true
    refine completes_cmdDone (exec_cancel ..) hok hnow rfl rfl fun t ht hans => ⟨?_, hans⟩
    rw [ht]
    rfl
  · obtain ⟨hentry, hothers⟩ := (s.unfetch d).setPriorityOf_spec i d
    refine completes_cmdDone (exec_setPriority ..) hok (State.setPriority_of_byHandle hi true) rfl (State.code_of_entry hentry rfl)
      fun t ht hans => ⟨?_, ?_, hans⟩
    all_goals rw [ht]
    · exact hentry
    · exact hothers
  · obtain ⟨htouches, ⟨tables, hentry⟩, hothers⟩ := (s.unfetch d).forkNow_spec d i j rb mb
    have hf := State.fork_alone halign hin hst hreel hsmp hfree hctx hfits hblocks halone
    have hhandle : ((s.unfetch d).forkNow d i j rb mb).handleOf j = s.handleOf j := by
      rw [State.handleOf, hentry]
      rfl
    dsimp only at hf
    rw [hhandle] at hf
    generalize (s.unfetch d).forkNow d i j rb mb = u at hf htouches hentry hothers
    refine completes_cmdDone (exec_fork ..) hok hf (by rw [htouches]; rfl) (State.code_of_entry hentry rfl)
      fun t ht hans => ?_
    have hentries : ∀ k, (s.keepBoot t).entry k = u.entry k := by
      intro k
      rw [ht]
      rfl
    refine ⟨?_, fun k hk => (hentries k).trans (hothers k hk), hans⟩
    rw [hentries, hentry]
    rfl

end Sys2Proof.Machine

/-! SPILL, RECALL and RELEASE (R235, R264 to R267). -/

namespace Sys2Proof.Machine

namespace State

variable {s t u : State} {i : Nat} {d : Desc} {m : Move}

/-! SPILL and RECALL are accepted (R264, R265). -/

theorem spill_accepted (hin : (s.unfetch d).entryRefusal d false = (none, i))
    (hst : (s.entry i).st = .waiting ∨ (s.entry i).st = .ended ∨ (s.entry i).st = .cancelled ∨ (s.entry i).st = .expired ∨
      (s.entry i).st = .faulted) (hfits : (s.unfetch d).spillFits i (s.entry i).ctx.toNat = true) (ok : Bool) : s.spill d ok =
    { s.setEntry i { s.entry i with moving := true, prior := (s.entry i).st } with
      kv := { s.kv with moves := s.kv.moves ++ [⟨false, i, d, []⟩] }
      seq := (s.unfetch d).seq } := by
  have hroom : ¬ (!(s.unfetch d).spillFits i ((s.unfetch d).entry i).ctx.toNat) = true := fun h =>
    Bool.false_ne_true ((congrArg not hfits).symm.trans h)
  have hsame : (s.unfetch d).entry i = s.entry i := rfl
  rw [spill, hin]
  dsimp only
  rw [if_neg hroom, hsame]
  obtain h | h | h | h | h := hst <;> rw [h] <;> rfl

theorem recallCmd_accepted (hin : (s.unfetch d).entryRefusal d false = (none, i)) (hst : (s.entry i).st = .spilled)
    (hfits : (s.unfetch d).recallFits i (s.entry i).ctx.toNat (decide ((s.entry i).prior = .expired)) = true) (ok : Bool) :
    ∃ tables, s.recallCmd d ok = { s.setEntry i { s.entry i with moving := true } with
      tables := tables
      kv := { s.kv with moves := s.kv.moves ++ [⟨true, i, d, []⟩] }
      seq := (s.unfetch d).seq } := by
  have hroom : ¬ (!(s.unfetch d).recallFits i ((s.unfetch d).entry i).ctx.toNat
      (decide (((s.unfetch d).entry i).prior = .expired))) = true :=
    fun h => Bool.false_ne_true ((congrArg not hfits).symm.trans h)
  rw [recallCmd, hin]
  dsimp only
  rw [if_neg (fun h => h hst), if_neg hroom]
  split
  · exact ⟨_, rfl⟩
  · exact ⟨_, rfl⟩

/-! The move that runs (R264 to R267). -/

theorem pagesTaken_moved (s : State) (i : Nat) : PagesTaken i s { s with kv := { s.kv with moved := s.kv.moved + 1 } } := ⟨rfl, rfl⟩

theorem pagesTaken_spillPage (s : State) (i c : Nat) (ep : Nat × Nat) : PagesTaken i s (s.spillPage i c ep) := by
  have hhost : ∀ h t, s.takeHost c = (h, t) → PagesTaken i s t := fun h t => pagesTaken_of_takeHost
  rw [spillPage]
  generalize s.takeHost c = r at hhost
  obtain ⟨_ | h, w⟩ := r
  · exact hhost _ w rfl
  · exact ((((hhost _ w rfl).trans (pagesTaken_of_tables (t := w.emit _) rfl rfl)).trans (pagesTaken_setTblPage ..)).trans
      (pagesTaken_unref ..)).trans (pagesTaken_moved _ i)

/-- As with `beatWork_takeFrame`, the search for a frame is abstracted before `recallPage` is taken apart. -/
theorem pagesTaken_recallPage (s : State) (i c : Nat) (ep : Nat × Nat) (b : List Byte) : PagesTaken i s (s.recallPage i c ep b) := by
  have hdef : @recallPage = @recallPage := rfl
  conv at hdef => rhs; delta recallPage
  obtain ⟨frame, hframe⟩ : ∃ f, f = @takeFrame := ⟨_, rfl⟩
  have hfind : PagesTaken i s (frame s (s.homeStack c (s.layerOfEntry c ep.1)) c 1 false).2 := hframe ▸ s.pagesTaken_takeFrame ..
  rw [← hframe] at hdef
  rw [hdef]
  dsimp only
  generalize frame s _ _ _ _ = r at hfind
  obtain ⟨_ | q, w⟩ := r
  · exact hfind
  · exact (((hfind.trans (pagesTaken_writePage ..)).trans (pagesTaken_setTblPage ..)).trans (pagesTaken_setPdesc ..)).trans
      (pagesTaken_moved _ i)

/-- The state of a sequence whose move has ended. -/
def movedState (m : Move) (e : SeqEntry) : SeqState := if m.back = false then .spilled else if e.st = .faulted then .faulted else e.prior

/-- The entry of a sequence whose move has ended. -/
def movedEntry (m : Move) (e : SeqEntry) : SeqEntry := { e with
  moving := false
  st := movedState m e
  prior := if m.back = false ∧ e.st = .faulted then .faulted else e.prior }

theorem movedEntry_of_back (hback : m.back = true) (e : SeqEntry) :
    movedEntry m e = { e with moving := false, st := if e.st = .faulted then .faulted else e.prior } := by
  simp [movedEntry, movedState, hback]

theorem movedEntry_of_spill (hback : m.back = false) (e : SeqEntry) :
    movedEntry m e = { e with moving := false, st := .spilled, prior := if e.st = .faulted then .faulted else e.prior } := by
  simp [movedEntry, movedState, hback]

/-- The state that the end of a move answers: FAULTED where a page was lost, which the entry shows at once or in PRIOR. -/
theorem movedCode (m : Move) (e : SeqEntry) :
    (if decide ((movedEntry m e).st = .faulted) || (decide ((movedEntry m e).st = .spilled) && decide ((movedEntry m e).prior = .faulted))
      then stateCode .faulted else stateCode (movedEntry m e).st) =
    if e.st = .faulted ∨ (m.back = false ∧ e.prior = .faulted) then 10 else stateCode (movedState m e) := by
  cases hback : m.back with
  | true =>
    rw [movedEntry_of_back hback]
    by_cases hst : e.st = .faulted
    · simp [hst, stateCode]
    · by_cases hprior : e.prior = .faulted
      · simp [movedState, hback, hst, hprior, stateCode]
      · simp +contextual [movedState, hback, hst, hprior]
  | false =>
    rw [movedEntry_of_spill hback]
    by_cases hst : e.st = .faulted
    · simp [hst, stateCode]
    · simp [movedState, hback, hst, stateCode]

/-- A move that ends touches its entry, its tables and the list of moves, and its command is answered. -/
theorem moveDone_eq (s : State) (m : Move) (ok : Bool) : ∃ tables, (tabGet ({} : Tables) tables m.idx).pages = (s.tbl m.idx).pages ∧
    let u : State := { s.setEntry m.idx (movedEntry m (s.entry m.idx)) with
      tables := tables
      kv := { s.kv with moves := s.kv.moves.erase m } }
    s.moveDone m ok = u.complete ⟨m.cmd.tag, m.cmd.handle, sOK, m.cmd.opcode,
      if (s.entry m.idx).st = .faulted ∨ (m.back = false ∧ (s.entry m.idx).prior = .faulted) then 10
      else stateCode (movedState m (s.entry m.idx)), 0⟩ ok := by
  have hcode := movedCode m (s.entry m.idx)
  rw [← hcode]
  cases hback : m.back with
  | true =>
    refine ⟨s.tables, rfl, ?_⟩
    simp only [moveDone, hback, if_true, entry_setEntry, movedEntry_of_back hback]
    rfl
  | false =>
    let f : Tables → Tables := fun t => if (s.entry m.idx).st = .expired then { t with released := true }
      else { t with resRows := 0, released := false }
    refine ⟨(s.modTbl m.idx f).tables, ?_, ?_⟩
    · have hpages : (f (s.tbl m.idx)).pages = (s.tbl m.idx).pages := by
        simp only [f]
        split <;> rfl
      exact (congrArg Tables.pages (s.tbl_modTbl m.idx f)).trans hpages
    · simp only [moveDone, hback, Bool.false_eq_true, if_false, entry_setEntry, movedEntry_of_spill hback]
      rfl

theorem moveComplete_of_stopped (hnext : s.nextMove = some m) (hmay : s.reelMay = false) (pages : List PageMove) (ok : Bool) :
    s.moveComplete pages ok = s := by
  rw [moveComplete, hnext]
  exact if_pos (by rw [hmay]; rfl)

/-- The pages that a move transfers, none lost. -/
def movesPages (s : State) (m : Move) (pages : List PageMove) : State := ((s.movePages m).zip pages).foldl (movePage m) s

/-- A move that loses no page, and has none left, ends. -/
theorem moveComplete_of_last {pages : List PageMove} (hnext : s.nextMove = some m) (hmay : s.reelMay = true)
    (hkept : ∀ x ∈ pages, x ≠ .linkError ∧ x ≠ .badBlock) (hlast : (s.movesPages m pages).movePages m = []) (ok : Bool) :
    s.moveComplete pages ok = (s.movesPages m pages).moveDone m ok := by
  have hlost : ((s.movePages m).zip pages).filter (fun x => decide (x.2 = .linkError) || decide (x.2 = .badBlock)) = [] := by
    refine List.filter_eq_nil_iff.2 fun x hx => ?_
    obtain ⟨hlink, hblock⟩ := hkept x.2 (List.of_mem_zip hx).2
    simp [hlink, hblock]
  have hmoves : ∀ l : List Move, l.map (fun x => if x = m then m else x) = l := fun l => by
    refine (List.map_congr_left fun x _ => ?_).trans l.map_id
    split
    · next h => exact h.symm
    · rfl
  rw [moveComplete, hnext]
  dsimp only
  rw [if_neg (by rw [hmay]; decide), hlost, List.map_nil, List.append_nil, hmoves]
  rw [movesPages] at hlast ⊢
  exact if_pos (by rw [show State.movePages _ m = [] from hlast]; rfl)

/-- What the end of a move leaves, its pages transferred before: the entry, its pages, the moves, and the answer. -/
theorem moveDone_spec (hu : PagesTaken m.idx s u) : let t := u.moveDone m true
    t.entry m.idx = movedEntry m (s.entry m.idx) ∧ (∀ k, k ≠ m.idx → t.entry k = s.entry k) ∧ t.kv.moves = s.kv.moves.erase m ∧
    (t.tbl m.idx).pages = (u.tbl m.idx).pages ∧
    Answered s t m.cmd m.cmd.handle sOK (if (s.entry m.idx).st = .faulted ∨ (m.back = false ∧ (s.entry m.idx).prior = .faulted) then 10
      else stateCode (movedState m (s.entry m.idx))) 0 := by
  obtain ⟨htouches, -⟩ := hu
  obtain ⟨tables, hpages, hdone⟩ := u.moveDone_eq m true
  have hentries := entry_of_entries htouches.entries_eq
  have hmoves : u.kv.moves = s.kv.moves := by rw [htouches]
  have hring : u.cplRing = s.cplRing := by rw [htouches]; rfl
  rw [hentries] at hdone
  dsimp only at hdone ⊢
  rw [hdone]
  generalize hw : ({ u.setEntry m.idx (movedEntry m (s.entry m.idx)) with
    tables := tables
    kv := { u.kv with moves := u.kv.moves.erase m } } : State) = w
  have hans := answered_complete (u := w) (s := s) (by rw [← hw]; exact hring) m.cmd m.cmd.handle sOK
    (if (s.entry m.idx).st = .faulted ∨ (m.back = false ∧ (s.entry m.idx).prior = .faulted) then 10
      else stateCode (movedState m (s.entry m.idx))) 0
  have ht := w.ringTouches_complete ⟨m.cmd.tag, m.cmd.handle, sOK, m.cmd.opcode,
    if (s.entry m.idx).st = .faulted ∨ (m.back = false ∧ (s.entry m.idx).prior = .faulted) then 10
      else stateCode (movedState m (s.entry m.idx)), 0⟩ true
  refine ⟨?_, ?_, ?_, ?_, hans⟩ <;> rw [ht, ← hw]
  · exact u.entry_setEntry m.idx _
  · exact fun k hk => (u.entry_setEntry_ne _ hk).trans (hentries k)
  · exact congrArg (List.erase · m) hmoves
  · exact hpages

/-! RELEASE (R235). -/

/-- What writes of a reel may change, its sequence parking or returning after each. -/
def FlushTouches (i : Nat) (s t : State) : Prop := (t = { s with
    entries := t.entries
    reels := t.reels
    smp := t.smp
    vecs := t.vecs
    out := t.out }) ∧ ∀ k, k ≠ i → t.entry k = s.entry k

theorem FlushTouches.refl (i : Nat) (s : State) : FlushTouches i s s := ⟨rfl, fun _ _ => rfl⟩

theorem FlushTouches.trans (h : FlushTouches i s t) (k : FlushTouches i t u) : FlushTouches i s u :=
  ⟨by rw [k.1, h.1], fun j hj => (k.2 j hj).trans (h.2 j hj)⟩

theorem ReelWrites.flushTouches (h : ReelWrites s t) (i : Nat) : FlushTouches i s t :=
  ⟨by rw [h.2], fun k _ => entry_of_entries h.entries_eq k⟩

theorem flushTouches_park (s : State) (i : Nat) : FlushTouches i s (s.park i) :=
  ⟨by rw [park_frame], fun _ hk => entry_park_ne s hk⟩

theorem reelWrites_writeRecord (s : State) (i : Nat) : ReelWrites s (s.writeRecord i true true) := by
  cases hqueue : (s.reel i).queue with
  | nil =>
    rw [writeRecord]
    simp only [hqueue]
    exact .refl s
  | cons b rest => exact (writeRecord_spec hqueue).1

theorem flushTouches_reelWrite (s : State) (i : Nat) : FlushTouches i s (s.reelWrite i true true) := by
  have hpaid := (s.payTail_spec i).1
  rw [reelWrite]
  split
  · exact .refl i s
  · dsimp only at hpaid ⊢
    generalize (if (s.reel i).tailOwed then s.writeTail i true else s) = w at hpaid
    refine ((hpaid.flushTouches i).trans ?_).trans (flushTouches_park ..)
    split
    · exact .refl i w
    · exact (w.reelWrites_writeRecord i).flushTouches i

theorem flushTouches_flushReel (s : State) (i : Nat) : FlushTouches i s (s.flushReel i) :=
  foldl_rel (FlushTouches.refl i) (fun _ _ _ => FlushTouches.trans) (fun _ _ s => s.flushTouches_reelWrite i) s

/-- The tables of a sequence are freed: its pages and its PFX slot have one user less. -/
theorem freeTables_spec (s : State) (i : Nat) : PageTouches s (s.freeTables i) ∧ (s.freeTables i).tbl i = {} := by
  rw [freeTables]
  have hpages := foldl_pagesTaken (i := i) (f := fun s (ep : Nat × Nat) => s.unref (ep.2 - 1)) (fun s ep => s.pagesTaken_unref i _)
    (s.tbl i).pages s
  dsimp only
  generalize List.foldl _ s (s.tbl i).pages = w at hpages
  suffices h : ∀ z, PagesTaken i w z → PageTouches s (z.setTbl i {}) ∧ (z.setTbl i {}).tbl i = {} by
    split
    · exact h _ (pagesTaken_setPfx ..)
    · exact h _ (.refl i w)
  exact fun z hz => ⟨(hpages.1.trans hz.1).trans rfl, tbl_setTbl ..⟩

/-- An entry of which no CANCEL waits has none to complete. -/
theorem cancelsDone_of_nil (h : (s.entry i).cancels = []) (st : Byte) (ok : Bool) : s.cancelsDone i st ok =
    s.modEntry i (fun e => { e with cancelPend := false, cancels := [] }) := by
  rw [cancelsDone, cancelsWith, h]
  rfl

/-- What is kept of a released sequence is its generation. -/
def releasedSeat (s : State) (i : Nat) (e : SeqEntry) : State := { s with
  entries := tabSet {} s.entries i e
  inputs := tabSet {} s.inputs i {}
  reels := tabSet {} s.reels i {}
  smps := tabSet {} s.smps i {}
  xrs := tabSet {} s.xrs i {} }

theorem releasedSeat_eq (s : State) (i : Nat) (e : SeqEntry) :
    ((((s.setXr i {}).dropInput i).setSmp i {}).setReel i {}).setEntry i e = s.releasedSeat i e := by
  simp only [setXr, dropInput, setInput, setSmp, setReel, setEntry, releasedSeat]

/-- The state in which a RELEASE has written out the reel of its sequence. -/
def releaseFlushed (s : State) (i : Nat) : State := ((s.cancelsDone i sAlreadyEnded true).disarm i 1).flushReel i

theorem release_of_ended (hin : (s.unfetch d).entryRefusal d false = (none, i)) (hended : endedState (s.entry i) = true)
    (hmay : s.reelMay = true ∨ (s.reel i).queue = []) : ∃ items step, s.release d true =
      let u := (s.unfetch d).releaseFlushed i
      (((u.sendMembers step items).freeTables i).releasedSeat i { gen := nextGen (s.entry i).gen }).cmdDone d d.handle (some i) sOK
        (u.reel i).held.length true := by
  refine ⟨[itemBytes kRelease 0 0 (((s.unfetch d).releaseFlushed i).handleOf i) 0 0 0 0], ((s.unfetch d).releaseFlushed i).seqStep, ?_⟩
  have hwrites : (!s.reelMay && !(s.reel i).queue.isEmpty) = false := by
    obtain h | h := hmay <;> simp [h]
  rw [release, hin]
  dsimp only
  rw [← releaseFlushed, releasedSeat_eq]
  refine (if_neg (by rw [show endedState ((s.unfetch d).entry i) = true from hended]; decide)).trans (if_neg ?_)
  rw [show (!(s.unfetch d).reelMay && !((s.unfetch d).reel i).queue.isEmpty) = false from hwrites]
  exact Bool.false_ne_true

theorem releaseFlushed_spec (hnone : (s.entry i).cancels = []) : (∀ k, k ≠ i → (s.releaseFlushed i).entry k = s.entry k) ∧
    (s.releaseFlushed i).cplRing = s.cplRing := by
  have hothers : ∀ k, k ≠ i → (s.cancelsDone i sAlreadyEnded true).entry k = s.entry k := fun k hk => by
    rw [cancelsDone_of_nil hnone]
    exact entry_modEntry_ne s _ hk
  have hring : (s.cancelsDone i sAlreadyEnded true).cplRing = s.cplRing := by
    rw [cancelsDone_of_nil hnone]
    rfl
  rw [releaseFlushed]
  generalize s.cancelsDone i sAlreadyEnded true = w at hothers hring
  have hdisarm := w.recorderTouches_disarm i 1
  generalize w.disarm i 1 = x at hdisarm
  obtain ⟨hflush, hkept⟩ := x.flushTouches_flushReel i
  refine ⟨fun k hk => (hkept k hk).trans (Eq.trans ?_ (hothers k hk)), Eq.trans ?_ hring⟩
  · rw [hdisarm]
    rfl
  · rw [hflush, hdisarm]
    rfl

theorem release_of_stopped (hin : (s.unfetch d).entryRefusal d false = (none, i)) (hended : endedState (s.entry i) = true)
    (hmay : s.reelMay = false) (hqueue : (s.reel i).queue ≠ []) (ok : Bool) : s.release d ok = s := by
  rw [release, hin]
  refine (if_neg (by rw [show endedState ((s.unfetch d).entry i) = true from hended]; decide)).trans (if_pos ?_)
  change (!s.reelMay && !(s.reel i).queue.isEmpty) = true
  simp [hmay, hqueue]

theorem release_of_not_ended (hin : (s.unfetch d).entryRefusal d false = (none, i)) (hended : endedState (s.entry i) = false) (ok : Bool) :
    s.release d ok = (s.unfetch d).cmdDone d d.handle (some i) sNotEnded 0 ok := by
  rw [release, hin]
  exact if_pos (by rw [show endedState ((s.unfetch d).entry i) = false from hended]; rfl)

end State

theorem exec_spill (d : Desc) (ok : Bool) (s : State) :
    exec (.spill d ok) s = act (decide (d.opcode = 6) && s.seqMay d) s (·.spill d ok) := rfl

theorem exec_recall (d : Desc) (ok : Bool) (s : State) :
    exec (.recall d ok) s = act (decide (d.opcode = 7) && s.seqMay d) s (·.recallCmd d ok) := rfl

theorem exec_moveComplete (pages : List PageMove) (ok : Bool) (s : State) :
    exec (.moveComplete pages ok) s = act true s (·.moveComplete pages ok) := rfl

theorem exec_release (d : Desc) (ok : Bool) (s : State) :
    exec (.release d ok) s = act (decide (d.opcode = 8) && s.seqMay d) s (·.release d ok) := rfl

section

open State

variable {s : State} {d : Desc} {i : Nat} {m : Move}

theorem completes_release (hok : (decide (d.opcode = 8) && s.seqMay d) = true) (hin : (s.unfetch d).entryRefusal d false = (none, i))
    (hended : endedState (s.entry i) = true) (hnone : (s.entry i).cancels = []) (hmay : s.reelMay = true ∨ (s.reel i).queue = []) :
    Completes (.release d true) s (fun t =>
      t.entry i = { gen := nextGen (s.entry i).gen } ∧ (∀ k, k ≠ i → t.entry k = s.entry k) ∧ t.tbl i = {} ∧ t.input i = {} ∧
      t.reel i = {} ∧ Answered s t d d.handle sOK 0 (((s.unfetch d).releaseFlushed i).reel i).held.length) := by
  obtain ⟨items, step, hf⟩ := release_of_ended hin hended hmay
  obtain ⟨hothers, hring⟩ := releaseFlushed_spec (s := s.unfetch d) hnone
  dsimp only at hf
  generalize (s.unfetch d).releaseFlushed i = u at hf hothers hring
  have hfreed := (u.sendMembers step items).freeTables_spec i
  have hsend := u.sendMembers_frame step items
  generalize u.sendMembers step items = v at hf hfreed hsend
  obtain ⟨htouches, htbl⟩ := hfreed
  generalize v.freeTables i = w at hf htouches htbl
  have hentries : w.entries = u.entries := by rw [htouches, hsend]
  have hring' : w.cplRing = s.cplRing := by
    refine Eq.trans ?_ hring
    rw [htouches, hsend]
    rfl
  have hentry : (w.releasedSeat i { gen := nextGen (s.entry i).gen }).entry i = { gen := nextGen (s.entry i).gen } := tabGet_tabSet_self ..
  refine completes_cmdDone (exec_release ..) hok hf hring' (code_of_entry hentry rfl) fun t ht hans => ⟨?_, ?_, ?_, ?_, ?_, hans⟩
  all_goals rw [ht]
  · exact hentry
  · exact fun k hk => (tabGet_tabSet_ne _ _ _ _ hk).trans ((entry_of_entries hentries k).trans (hothers k hk))
  · exact htbl
  · exact tabGet_tabSet_self ..
  · exact tabGet_tabSet_self ..

end

/-- Settles O37: an accepted move marks its entry, the end of a move writes it, and a RELEASE writes out the reel and clears what was kept
of the sequence. -/
theorem movesAndRelease : Obligations.MovesAndRelease := by
  intro s d i
  refine ⟨fun hmay hop hin hst hfits => ?_, fun hmay hop hin hst hfits => ?_, fun m hnext => ⟨fun hmay pages => ?_,
    fun hmay pages u hpages hlast => ?_⟩, fun hmay hop hin => ⟨fun hended hnone => ⟨fun hwrites => ?_, fun hstopped hqueue => ?_⟩,
    fun hended => ?_⟩⟩
  · have hback : decide (d.opcode = 7) = false := by rw [hop]; rfl
    refine completes_kept (exec_spill ..) (seqMay_of_opcode hop hmay) (State.spill_accepted hin hst hfits true)
      (State.keepBoot_of rfl rfl rfl rfl rfl rfl) ⟨s.entry_setEntry i _, fun k hk => s.entry_setEntry_ne _ hk, ?_⟩
    rw [hback]
    rfl
  · have hback : decide (d.opcode = 7) = true := by rw [hop]; rfl
    obtain ⟨tables, hf⟩ := State.recallCmd_accepted hin hst hfits true
    refine completes_kept (exec_recall ..) (seqMay_of_opcode hop hmay) hf
      (State.keepBoot_of rfl rfl rfl rfl rfl rfl) ⟨s.entry_setEntry i _, fun k hk => s.entry_setEntry_ne _ hk, ?_⟩
    rw [hback]
    rfl
  · exact completes_kept (exec_moveComplete ..) rfl (State.moveComplete_of_stopped hnext hmay pages true)
      (State.keepBoot_of rfl rfl rfl rfl rfl rfl) rfl
  · have hmoved : s.movesPages m pages = u ∧ State.PagesTaken m.idx s u ∧ ∀ x ∈ pages, x ≠ .linkError ∧ x ≠ .badBlock := by
      obtain ⟨rfl, rfl⟩ | ⟨b, ep, rfl, hep, rfl⟩ := hpages
      · exact ⟨by rw [State.movesPages, List.zip_nil_right]; rfl, .refl .., fun x hx => absurd hx List.not_mem_nil⟩
      · refine ⟨by rw [State.movesPages, hep]; rfl, ?_, fun x hx => ?_⟩
        · split
          · exact State.pagesTaken_recallPage ..
          · exact State.pagesTaken_spillPage ..
        · rw [List.mem_singleton.1 hx]
          exact ⟨(nomatch ·), (nomatch ·)⟩
    obtain ⟨rfl, htaken, hkept⟩ := hmoved
    refine completes_act (exec_moveComplete ..) rfl ?_
    rw [State.moveComplete_of_last hnext hmay hkept hlast]
    exact State.moveDone_spec htaken
  · exact completes_release (seqMay_of_opcode hop hmay) hin hended hnone hwrites
  · exact completes_kept (exec_release ..) (seqMay_of_opcode hop hmay) (State.release_of_stopped hin hended hstopped hqueue true)
      (State.keepBoot_of rfl rfl rfl rfl rfl rfl) rfl
  · refine completes_cmdDone (exec_release ..) (seqMay_of_opcode hop hmay) (State.release_of_not_ended hin hended true) rfl rfl
      fun t ht hans => ⟨?_, hans⟩
    rw [ht]
    rfl

end Sys2Proof.Machine

/-! The commit sweep (R226 to R229). -/

namespace Sys2Proof.Machine

namespace State

variable {s t u : State} {i : Nat} {b : Batch} {m : Member}

/-! The members' turns. -/

/-- A change of the entry follows another, PEND_REC apart. -/
theorem EntryIs.andThen {e : SeqEntry} (g : SeqEntry → SeqEntry) (h : EntryIs i e s t) (k : EntryIs i (g (t.entry i)) t u)
    (hg : ∀ x p, g { x with pendRec := p } = { g x with pendRec := p } := by exact fun _ _ => rfl) : EntryIs i (g e) s u := by
  refine ⟨?_, fun j hj => (k.2 j hj).trans (h.2 j hj)⟩
  rw [k.1, h.1, hg]

theorem PendOnly.entryIs (h : PendOnly i s t) : EntryIs i (s.entry i) s t := h

theorem pendOnly_restartRec (s : State) (b : Batch) (m : Member) : PendOnly m.idx s (s.restartRec b m) := by
  rw [restartRec]
  split
  · exact s.pendOnly_record ..
  · exact pendOnly_of_entries rfl

theorem restartRec_frame (s : State) (b : Batch) (m : Member) : s.restartRec b m = { s with
    entries := (s.restartRec b m).entries
    reels := (s.restartRec b m).reels } := by
  rw [restartRec]
  split
  · exact s.record_frame ..
  · rfl

theorem entries_oweStep (s : State) (b : Batch) (m : Member) (k tauL length outcome token lp : Nat) :
    (s.oweStep b m k tauL length outcome token lp).entries = s.entries := by
  rw [oweStep]
  split <;> rfl

/-- A step that takes no effect: its rows return, and its sequence is no longer in flight (R263). -/
def stepBack (s : State) (b : Batch) (m : Member) (len : Nat) : State :=
  (s.returnRows m.idx b.ctx len m.toks.length).modEntry m.idx (fun e => { e with inFlight := false })

theorem entryIs_stepBack (s : State) (b : Batch) (m : Member) (len : Nat) :
    EntryIs m.idx { s.entry m.idx with inFlight := false } s (s.stepBack b m len) := by
  obtain ⟨d, x, hframe⟩ := s.returnRows_frame m.idx b.ctx len m.toks.length
  rw [stepBack, hframe]
  exact entryIs_setEntry s m.idx _

/-- Completions that join the queue, and ecalls that return, leave the entries. -/
theorem entryIs_cancelsQueue (s : State) (i : Nat) :
    EntryIs i { s.entry i with cancelPend := false, cancels := [] } s (s.cancelsQueue i) := by
  rw [cancelsQueue, cancelsWith]
  refine (entryIs_setEntry s i _).pend (pendOnly_of_entries ?_)
  exact foldl_keeps State.entries (fun s d => by split <;> rfl) _ _

/-- What the commit point of a member's step makes of its entry (R227 to R229). -/
def StepTaken (s : State) (b : Batch) (m : Member) (u : SeqEntry) : Prop :=
  let e := s.entry m.idx
  u.inFlight = false ∧
  (if e.cancelPend then u.st = .cancelled ∧ u.length = e.length
   else if e.stepFault ≠ 0 ∨ s.badInput b.ctx m = true then
     u.st = .faulted ∧ u.fault = (if e.stepFault ≠ 0 then e.stepFault else 2) ∧ u.length = e.length
   else if s.deadlinePassed e then u.st = .expired ∧ u.length = e.length
   else if m.samples = false then u.length = BitVec.ofNat 21 (e.length.toNat + m.toks.length) ∧ u.nextValid = e.nextValid ∧
     u.next = e.next ∧ u.commits = e.commits
   else match s.sampled.find? (fun v => v.step = b.step && v.idx = m.idx) with
     | none => u.st = .faulted ∧ u.fault = 4 ∧ u.length = e.length
     | some v => u.length = BitVec.ofNat 21 (e.length.toNat + m.toks.length) ∧ u.nextValid = true ∧ u.next = BitVec.ofNat 20 v.token ∧
       u.commits = e.commits + 1)

/-- Entry i is `e` but for its state, deadline and PEND_REC, and every other entry is as it was. -/
def SettledIs (i : Nat) (e : SeqEntry) (s t : State) : Prop :=
  t.entry i = { e with st := (t.entry i).st, deadline := (t.entry i).deadline, pendRec := (t.entry i).pendRec } ∧
  ∀ k, k ≠ i → t.entry k = s.entry k

theorem SettledIs.pend {e : SeqEntry} (h : SettledIs i e s t) (k : PendOnly i t u) : SettledIs i e s u :=
  ⟨by rw [k.1, h.1], fun j hj => (k.2 j hj).trans (h.2 j hj)⟩

theorem SettledIs.settle {e : SeqEntry} (h : SettledIs i e s t) (st : SeqState) : SettledIs i e s (t.settle i st) := by
  obtain ⟨-, -, hentry, hothers⟩ := t.settle_spec i st
  exact ⟨by rw [hentry, h.1], fun j hj => (hothers j hj).trans (h.2 j hj)⟩

/-- The entry of a sequence whose step has committed, with its token or with none. -/
def committed (e : SeqEntry) (m : Member) (t : Option Sampled) : SeqEntry :=
  let e1 := { e with
    length := BitVec.ofNat 21 (e.length.toNat + m.toks.length)
    input := if m.prefill then e.input - BitVec.ofNat 21 m.toks.length else e.input
    inFlight := false }
  match t with
  | none => e1
  | some v => { e1 with nextValid := true, next := BitVec.ofNat 20 v.token, commits := e1.commits + 1 }

theorem settledIs_seat {e : SeqEntry} (h : t.entries = s.entries) (x : Smp) (st : SeqState) :
    SettledIs i e s ((t.setSmp i x).setEntry i { e with st := st }) := by
  refine ⟨?_, fun k hk => (entry_setEntry_ne (t.setSmp i x) _ hk).trans (entry_of_entries h k)⟩
  rw [entry_setEntry]

theorem pendOnly_oweNotice (s : State) (i : Nat) (b : Batch) (m : Member) (token : Nat) : PendOnly i s (s.oweNotice b m token) :=
  pendOnly_of_entries rfl

theorem settledIs_commitStep (s : State) (b : Batch) (m : Member) (t : Option Sampled) :
    SettledIs m.idx (committed (s.entry m.idx) m t) s (s.commitStep b m t) := by
  cases t with
  | none =>
    rw [commitStep]
    refine (settledIs_seat ?_ _ _).pend (pendOnly_oweNotice ..)
    split <;> split <;> rfl
  | some v =>
    rw [commitStep]
    refine SettledIs.pend ?_ (pendOnly_oweNotice ..)
    have hreel := fun (w : State) (x : Smp) (st : SeqState) (h : w.entries = s.entries) (r : ReelRec) =>
      (settledIs_seat (e := committed (s.entry m.idx) m (some v)) h x st).pend (pendOnly_putReel _ m.idx r)
    split
    · refine (SettledIs.settle ?_ _).pend (pendOnly_record ..)
      refine hreel _ _ _ ?_ _
      split <;> split <;> rfl
    · split
      · refine SettledIs.settle ?_ _
        refine hreel _ _ _ ?_ _
        split <;> split <;> rfl
      · refine hreel _ _ _ ?_ _
        split <;> split <;> rfl

/-- Parking leaves what the commit point has made of an entry: it only turns a sequence that goes on. -/
theorem StepTaken.park {x : State} (h : StepTaken s b m (x.entry m.idx)) : StepTaken s b m ((x.park m.idx).entry m.idx) := by
  have hrest : ∀ st, (x.entry m.idx).st = st → st ≠ .prefill → st ≠ .decode → st ≠ .parked → x.park m.idx = x := by
    rintro st rfl h1 h2 h3
    exact park_of_resting h1 h2 h3
  have hkept := x.entry_park m.idx
  obtain ⟨hfly, h⟩ := h
  refine ⟨by rw [hkept]; exact hfly, ?_⟩
  split
  · next hcancel =>
    rw [if_pos hcancel] at h
    rwa [hrest _ h.1 (nomatch ·) (nomatch ·) (nomatch ·)]
  · next hcancel =>
    rw [if_neg hcancel] at h
    split
    · next hfault =>
      rw [if_pos hfault] at h
      rwa [hrest _ h.1 (nomatch ·) (nomatch ·) (nomatch ·)]
    · next hfault =>
      rw [if_neg hfault] at h
      split
      · next hlate =>
        rw [if_pos hlate] at h
        rwa [hrest _ h.1 (nomatch ·) (nomatch ·) (nomatch ·)]
      · next hlate =>
        rw [if_neg hlate] at h
        split
        · next hno =>
          rw [if_pos hno] at h
          rw [hkept]
          exact h
        · next hsamples =>
          rw [if_neg hsamples] at h
          split
          · next hnone =>
            simp only [hnone] at h
            rwa [hrest _ h.1 (nomatch ·) (nomatch ·) (nomatch ·)]
          · next v hsome =>
            simp only [hsome] at h
            rw [hkept]
            exact h

/-- A member's step is taken, and no other entry changes. -/
def TurnTaken (s : State) (b : Batch) (m : Member) (t : State) : Prop :=
  StepTaken s b m (t.entry m.idx) ∧ ∀ j, j ≠ m.idx → t.entry j = s.entry j

/-- The record owed for a step, and parking, follow it. -/
theorem TurnTaken.owedAndParked {x : State} (h : TurnTaken s b m x) (k a len out tok lp : Nat) :
    TurnTaken s b m ((x.oweStep b m k a len out tok lp).park m.idx) := by
  have howed := entry_of_entries (x.entries_oweStep b m k a len out tok lp)
  exact ⟨StepTaken.park (by rw [howed]; exact h.1), fun j hj => (entry_park_ne _ hj).trans ((howed j).trans (h.2 j hj))⟩

theorem turnTaken_commitOne (s : State) (b : Batch) (k tau : Nat) (m : Member) : TurnTaken s b m (commitOne b (s, k, tau) m).1 := by
  have hpend := s.pendOnly_restartRec b m
  have hframe := s.restartRec_frame b m
  rw [commitOne]
  dsimp only
  generalize s.restartRec b m = w at hpend hframe
  have hlate : w.deadlinePassed (s.entry m.idx) = s.deadlinePassed (s.entry m.idx) := by rw [hframe]; rfl
  have hbad : w.badInput b.ctx m = s.badInput b.ctx m := by rw [hframe]; rfl
  have hsampled : w.sampled = s.sampled := by rw [hframe]
  have hback := hpend.entryIs.andThen (fun e => { e with inFlight := false }) (w.entryIs_stepBack b m (s.entry m.idx).length.toNat)
  rw [hlate, hbad, hsampled]
  rw [← stepBack]
  generalize w.stepBack b m (s.entry m.idx).length.toNat = x at hback
  refine TurnTaken.owedAndParked ?_ ..
  have hfaulted := fun cause => hback.andThen (fun e => { e with st := .faulted, fault := cause, stepFault := 0 })
    (x.toFaulted_spec m.idx b.step cause).2
  split
  · next hcancel =>
    obtain ⟨-, -, hcancelled⟩ := x.toCancelled_spec m.idx b.step
    obtain ⟨hentry, hothers⟩ := (hback.andThen (fun e => { e with st := .cancelled }) hcancelled).andThen
      (fun e => { e with cancelPend := false, cancels := [] }) (entryIs_cancelsQueue ..)
    refine ⟨?_, hothers⟩
    rw [hentry, StepTaken, if_pos hcancel]
    exact ⟨rfl, rfl, rfl⟩
  · next hcancel =>
    split
    · next hfault =>
      obtain ⟨hentry, hothers⟩ := hfaulted (if (s.entry m.idx).stepFault ≠ 0 then (s.entry m.idx).stepFault else 2)
      refine ⟨?_, hothers⟩
      rw [hentry, StepTaken, if_neg hcancel, if_pos hfault]
      exact ⟨rfl, rfl, rfl, rfl⟩
    · next hfault =>
      split
      · next hlate =>
        obtain ⟨hentry, hothers⟩ := hback.andThen (fun e => { e with st := .expired, expFrom := decide (e.input = 0) })
          (x.toExpired_spec m.idx b.step).2
        refine ⟨?_, hothers⟩
        rw [hentry, StepTaken, if_neg hcancel, if_neg hfault, if_pos hlate]
        exact ⟨rfl, rfl, rfl⟩
      · next hlate =>
        split
        · next hmissing =>
          obtain ⟨hsamples, hnone⟩ := Bool.and_eq_true_iff.1 hmissing
          obtain ⟨hentry, hothers⟩ := hfaulted 4
          refine ⟨?_, hothers⟩
          rw [hentry, StepTaken, if_neg hcancel, if_neg hfault, if_neg hlate, if_neg (by rw [hsamples]; decide),
            Option.isNone_iff_eq_none.1 hnone]
          exact ⟨rfl, rfl, rfl, rfl⟩
        · next hmissing =>
          obtain ⟨hentry, hothers⟩ := w.settledIs_commitStep b m
            (if m.samples then s.sampled.find? (fun v => v.step = b.step && v.idx = m.idx) else none)
          refine ⟨?_, fun j hj => (hothers j hj).trans (hpend.2 j hj)⟩
          rw [hentry, hpend.1, StepTaken, if_neg hcancel, if_neg hfault, if_neg hlate]
          cases hsamples : m.samples with
          | false => exact ⟨rfl, rfl, rfl, rfl, rfl⟩
          | true =>
            rw [hsamples] at hmissing
            rw [if_pos rfl, if_neg (by decide)]
            cases hv : s.sampled.find? (fun v => v.step = b.step && v.idx = m.idx) with
            | none => exact absurd (by rw [hv]; rfl) hmissing
            | some v => exact ⟨rfl, rfl, rfl, rfl, rfl⟩

/-! What follows the members' turns (R179, R226, R467). -/

theorem ringTouches_cplRetry : ∀ (k n : Nat) (s : State), RingTouches s (s.cplRetry n k)
  | 0, _, _ => rfl
  | k + 1, n, s => by
    rw [cplRetry]
    split
    · rfl
    · next c l _ =>
      split
      · rfl
      · split
        · rfl
        · let w : State := { s with seq := { s.seq with held := l } }
          exact (RingTouches.trans (s := s) (t := w) rfl (w.ringTouches_cplPut c)).trans (ringTouches_cplRetry k (n - 1) _)

/-- What goes on after a sweep leaves the entries, and of a batch its step, its context and whether it has been swept. -/
def PassTouches (s t : State) : Prop := t.entries = s.entries ∧
  ∀ x ∈ t.batches, ∃ y ∈ s.batches, x.step = y.step ∧ x.ctx = y.ctx ∧ x.replay = y.replay ∧ x.swept = y.swept

theorem passTouches_of_eq (hentries : t.entries = s.entries) (hbatches : t.batches = s.batches) : PassTouches s t :=
  ⟨hentries, fun x hx => ⟨x, hbatches ▸ hx, rfl, rfl, rfl, rfl⟩⟩

theorem PassTouches.trans (h : PassTouches s t) (k : PassTouches t u) : PassTouches s u := by
  refine ⟨k.1.trans h.1, fun x hx => ?_⟩
  obtain ⟨y, hy, hstep, hctx, hreplay, hswept⟩ := k.2 x hx
  obtain ⟨z, hz, hstep', hctx', hreplay', hswept'⟩ := h.2 y hy
  exact ⟨z, hz, hstep.trans hstep', hctx.trans hctx', hreplay.trans hreplay', hswept.trans hswept'⟩

theorem passTouches_raiseSpindles (s : State) (m e : Nat) : PassTouches s (s.raiseSpindles m e) := by
  obtain ⟨x, h⟩ := s.raiseSpindles_frame m e
  rw [h]
  exact passTouches_of_eq rfl rfl

theorem passTouches_raised (s : State) : PassTouches s ((upTo 4).foldl (fun s m => s.raiseSpindles m 1) s) :=
  foldl_frame PassTouches (fun _ => passTouches_of_eq rfl rfl) (fun _ _ _ => PassTouches.trans) _
    (fun s m => s.passTouches_raiseSpindles m 1) _ s

theorem passTouches_sendMembers (s : State) (step : Nat) (items : List (List Byte)) : PassTouches s (s.sendMembers step items) := by
  rw [sendMembers_frame]
  exact passTouches_of_eq rfl rfl

theorem passTouches_endPass (s : State) (m : Nat) (b : Batch) : PassTouches s (s.endPass m b) := by
  rw [endPass]
  dsimp only
  split
  · exact (s.passTouches_raiseSpindles m 0).trans (passTouches_of_eq rfl rfl)
  · refine ⟨rfl, fun x hx => ?_⟩
    obtain ⟨y, hy, rfl⟩ := List.mem_map.1 hx
    refine ⟨y, hy, ?_⟩
    split <;> exact ⟨rfl, rfl, rfl, rfl⟩

theorem passTouches_complete_ (s : State) (m : Nat) (a : At) : PassTouches s (s.complete_ m a) := by
  rw [complete_, goTo]
  split
  · exact passTouches_of_eq rfl rfl
  · exact s.passTouches_endPass m a.b

theorem passTouches_samplesDone (s : State) : PassTouches s s.samplesDone := by
  refine foldl_frame PassTouches (fun _ => passTouches_of_eq rfl rfl) (fun _ _ _ => PassTouches.trans) _ (fun s m => ?_) _ s
  split
  · split
    · exact s.passTouches_complete_ m _
    · exact passTouches_of_eq rfl rfl
  · exact passTouches_of_eq rfl rfl

/-- The sweep of a batch of one sequence: its member's turn, and the batch has then been swept. -/
theorem sweep_of_one {c : Nat} (hfind : s.batches.find? (fun b => b.ctx = c && b.sampledAll && !b.swept && !b.replay) = some b)
    (hone : b.members = [m]) (written : Nat) : let t := s.sweep c written
    TurnTaken s b m t ∧ ∀ x ∈ t.batches, x.step = b.step → x.ctx = c → x.replay = false → x.swept = true := by
  have hturn := s.turnTaken_commitOne b 0 0 m
  rw [sweep, commitSweep, hfind]
  dsimp only
  rw [hone]
  dsimp only [List.foldl_cons, List.foldl_nil]
  generalize (commitOne b (s, 0, 0) m).1 = u at hturn
  have hretry : (if s.seq.held.isEmpty = true then u.cplRetry written u.seq.held.length else u).entries = u.entries := by
    split
    · rw [ringTouches_cplRetry]
    · rfl
  generalize (if s.seq.held.isEmpty = true then u.cplRetry written u.seq.held.length else u) = v at hretry
  suffices hafter : ∀ w : State, w.entries = u.entries →
      (∀ x ∈ w.batches, x.step = b.step → x.ctx = c → x.replay = false → x.swept = true) →
      ∀ t, PassTouches w t → TurnTaken s b m t ∧ ∀ x ∈ t.batches, x.step = b.step → x.ctx = c → x.replay = false → x.swept = true by
    refine hafter _ ?_ ?_ _ (((passTouches_sendMembers ..).trans (passTouches_raised _)).trans (passTouches_samplesDone _))
    · exact hretry
    · intro x hx hstep hctx hreplay
      obtain ⟨y, -, rfl⟩ := List.mem_map.1 hx
      split
      · rfl
      · next hother =>
        rw [if_neg hother] at hstep hctx hreplay
        exact absurd ⟨hstep, hctx, by rw [hreplay]; rfl⟩ hother
  rintro w hentries hswept t ⟨hkept, hbatches⟩
  refine ⟨?_, fun x hx hstep hctx hreplay => ?_⟩
  · have hentry := entry_of_entries (hkept.trans hentries)
    rw [TurnTaken, hentry]
    exact ⟨hturn.1, fun j hj => (hentry j).trans (hturn.2 j hj)⟩
  · obtain ⟨y, hy, hstep', hctx', hreplay', hswept'⟩ := hbatches x hx
    rw [hswept']
    exact hswept y hy (hstep'.symm.trans hstep) (hctx'.symm.trans hctx) (hreplay'.symm.trans hreplay)

end State

end Sys2Proof.Machine

/-! Input copies, deadlines, the sampler, notices and records (R219, R231, R292, R298 to R305, R349). -/

namespace Sys2Proof.Machine

namespace State

variable {s t u : State} {i c : Nat} {b : Batch} {m : Member}

/-! Input copies (R219). -/

/-- The tokens that a copy brings. -/
def copied (s : State) (i : Nat) (l : List Nat) : List Nat := (upTo (s.input i).copying).map (fun k => l.getD k 0 % 2 ^ 32)

theorem inputCopy_some (hst : (s.entry i).st = .admitted) (hcancel : (s.entry i).cancelPend = false)
    (hlate : s.deadlinePassed (s.entry i) = false) (l : List Nat) (ok : Bool) : s.inputCopy i (some l) ok =
      ((s.setInput i { s.input i with toks := (s.input i).toks ++ s.copied i l, copying := 0 }).setEntry i { s.entry i with
        st := .prefill
        input := BitVec.ofNat 21 ((s.input i).toks.length + (s.input i).copying) }).park i := by
  have hl : (upTo (s.input i).copying).map (fun k => bitsOf (l.getD k 0) 0 32) = s.copied i l := by
    simp only [bitsOf, Nat.shiftRight_zero, copied]
  have hlen : (s.copied i l).length = (s.input i).copying := by
    rw [copied, List.length_map, upTo, List.length_range]
  rw [inputCopy]
  dsimp only
  rw [hl, hlen, if_neg (by rw [hst]; decide), if_neg (fun h => h hst), if_neg (by rw [hcancel]; decide)]
  exact if_neg fun h => Bool.false_ne_true (hlate.symm.trans h)

theorem inputCopy_none (hst : (s.entry i).st = .admitted) (hcancel : (s.entry i).cancelPend = false) (ok : Bool) :
    s.inputCopy i none ok = (s.dropInput i).toFaulted i s.seqStep 1 := by
  rw [inputCopy]
  dsimp only
  rw [if_neg (by rw [hst]; decide), if_neg (fun h => h hst), if_neg (by rw [hcancel]; decide)]
  rfl

/-! The sampler (R298, R305). -/

/-- A batch of one sampling sequence, its logits there, is sampled: its member's draw, and the batch has then been sampled. -/
theorem samplerFinish_of_one (hfind : s.batches.find? (fun b => b.ctx = c && b.released && !b.sampledAll) = some b)
    (hpresent : s.logitsPresent b = true) (hone : samplingOf b = [m]) (hreplay : b.replay = false) : s.samplerFinish c =
    { (sampleOne b (s, 0) m).1 with
      logits := ((sampleOne b (s, 0) m).1.clearLogits c).logits
      batches := (sampleOne b (s, 0) m).1.batches.map (fun (x : Batch) =>
        if x.step = b.step ∧ x.ctx = c ∧ x.replay = false then { x with sampledAll := true } else x) } := by
  simp only [samplerFinish, hfind, hpresent, hone, hreplay]
  rfl

theorem sampleOne_spec (hreplay : b.replay = false) : let t := (sampleOne b (s, 0) m).1
    (t = { s with
      freeCtr := s.freeCtr + 1
      smp := t.smp
      sampled := t.sampled
      entries := t.entries }) ∧
    (match sample (s.smpOf m.idx).par (s.logitsOf b.ctx 0) (fun v => tabGet 0 (s.smpOf m.idx).counts v)
        (drawOf (smpSeed (s.smpOf m.idx).par) b.step) (Config.freeNat s.freeCtr % s.vocabOf b.ctx) with
      | .fault => t.smp = { s.smp with faults := satAdd s.smp.faults 1 } ∧ t.sampled = s.sampled ∧
        t.entry m.idx = { s.entry m.idx with stepFault := if (s.entry m.idx).stepFault = 0 then 4 else (s.entry m.idx).stepFault } ∧
        (∀ j, j ≠ m.idx → t.entry j = s.entry j)
      | .token tok lp _ => t.smp = { s.smp with draws := s.smp.draws + 1 } ∧
        t.sampled = s.sampled ++ [⟨b.step, m.idx, tok, BitVec.ofNat 32 lp, 0⟩] ∧ t.entries = s.entries) := by
  simp only [sampleOne, smpFor, hreplay, free, Bool.false_eq_true, if_false]
  have hlogits : ({ s with freeCtr := s.freeCtr + 1 } : State).logitsOf b.ctx 0 = s.logitsOf b.ctx 0 := rfl
  have hvocab : ({ s with freeCtr := s.freeCtr + 1 } : State).vocabOf b.ctx = s.vocabOf b.ctx := rfl
  rw [hlogits, hvocab]
  cases sample (s.smpOf m.idx).par (s.logitsOf b.ctx 0) (fun v => tabGet 0 (s.smpOf m.idx).counts v)
      (drawOf (smpSeed (s.smpOf m.idx).par) b.step) (Config.freeNat s.freeCtr % s.vocabOf b.ctx) with
  | fault => exact ⟨rfl, rfl, rfl, entry_setEntry s m.idx _, fun _ hj => entry_setEntry_ne s _ hj⟩
  | token tok lp _ => exact ⟨rfl, rfl, rfl, rfl⟩

/-! Notices (R292). -/

theorem opCtx_modSpn (s : State) (m k : Nat) {f : Spn → Spn} (hf : ∀ x, (f x).opCtx = x.opCtx := by exact fun _ => rfl) :
    ((s.modSpn m f).spn k).opCtx = (s.spn k).opCtx := by
  by_cases h : k = m
  · subst h
    rw [modSpn, spn_setSpn, hf]
  · exact congrArg Spn.opCtx (tabGet_tabSet_ne _ _ _ _ h)

/-- What a notice may change: the ring, the count of those dropped, and the spindles that it wakes. -/
def NoticeTouches (s t : State) : Prop := (t = { s with
    hbm := t.hbm
    spns := t.spns
    spindles := t.spindles }) ∧ ∀ k, (t.spn k).opCtx = (s.spn k).opCtx

theorem NoticeTouches.refl (s : State) : NoticeTouches s s := ⟨rfl, fun _ => rfl⟩

theorem NoticeTouches.trans (h : NoticeTouches s t) (k : NoticeTouches t u) : NoticeTouches s u :=
  ⟨by rw [k.1, h.1], fun j => (k.2 j).trans (h.2 j)⟩

theorem noticeTouches_hbmWrite (s : State) (k o : Nat) (l : List Byte) : NoticeTouches s (s.hbmWrite k o l) := by
  rw [hbmWrite_frame]
  exact ⟨rfl, fun _ => rfl⟩

theorem noticeTouches_events (s : State) (m : Nat) (l : List Nat) : NoticeTouches s (l.foldl (fun s j => s.event m (127 - j) 5) s) :=
  foldl_frame NoticeTouches .refl (fun _ _ _ => NoticeTouches.trans) (fun s j => s.event m (127 - j) 5) (fun _ _ => ⟨rfl, fun _ => rfl⟩) l s

theorem noticeTouches_putNotice (s : State) (m : Nat) (n : List Byte) : NoticeTouches s (s.putNotice m n) := by
  rw [putNotice]
  dsimp only
  split
  · exact ⟨rfl, fun k => s.opCtx_modSpn m k⟩
  · exact ((s.noticeTouches_hbmWrite ..).trans (noticeTouches_hbmWrite ..)).trans (noticeTouches_events ..)

/-- A notice goes to the partitions that named its context when it went, in mast order: none of them leaves or joins meanwhile. -/
theorem foldl_putNotice (s : State) (c : Nat) (n : List Byte) : ∀ (l : List Nat) (u : State), (∀ k, (u.spn k).opCtx = (s.spn k).opCtx) →
    l.foldl (fun s m => if (s.spn m).opCtx.getLsbD c then s.putNotice m n else s) u =
    (l.filter (fun m => (s.spn m).opCtx.getLsbD c)).foldl (fun u m => u.putNotice m n) u
  | [], _, _ => rfl
  | m :: l, u, h => by
    rw [List.foldl_cons, List.filter_cons, h]
    split
    · rw [List.foldl_cons]
      exact foldl_putNotice s c n l _ fun k => ((u.noticeTouches_putNotice m n).2 k).trans (h k)
    · exact foldl_putNotice s c n l u h

theorem noticeWrite_of_due {n : List Byte} {rest : List (Nat × List Byte)} (h : s.noticesDue = (c, n) :: rest) : s.noticeWrite =
    ((upTo 4).filter (fun m => (s.spn m).opCtx.getLsbD c)).foldl (fun u m => u.putNotice m n) { s with noticesDue := rest } := by
  rw [noticeWrite, h]
  exact foldl_putNotice s c n (upTo 4) _ fun _ => rfl

/-! Records (R347, R349). -/

/-- A write into HBM goes by nothing of the recorder's. -/
theorem hbmWrite_recorder (x : Recorder) (k : Nat) : ∀ (l : List Byte) (s : State) (o : Nat),
    ({ s with recorder := x } : State).hbmWrite k o l = { s.hbmWrite k o l with recorder := x }
  | [], _, _ => rfl
  | b :: l, s, o => hbmWrite_recorder x k l (s.setHbmByte k o b) (o + 1)

/-- Records are laid into the ring under the sequence number that the recorder held before them. -/
theorem foldl_records (x : Recorder) : ∀ (l : List (Nat × Nat × RecBody)) (s : State),
    l.foldl (fun (s : State) kx => s.hbmWrite 1 (ringBase + 64 * kx.2.1) (recImage (s.recorder.seqno.toNat + kx.1) kx.2.2))
      { s with recorder := x } =
    { l.foldl (fun (u : State) kx => u.hbmWrite 1 (ringBase + 64 * kx.2.1) (recImage (x.seqno.toNat + kx.1) kx.2.2)) s with recorder := x }
  | [], _ => rfl
  | kx :: l, s => by
    rw [List.foldl_cons, List.foldl_cons, hbmWrite_recorder, foldl_records x l]

/-- The recorder once the record due for an armed sequence has left the list. -/
def dueTaken (x : Recorder) (r : RecDue) (ranges : List W64) : Recorder := { x with
  due := []
  armed := x.armed.map (fun (y : Nat × List W64) => if y.1 = r.idx then (y.1, ranges) else y) }

theorem armed_dueTaken (x : Recorder) (r : RecDue) (ranges : List W64) : (dueTaken x r ranges).armed.map (·.1) = x.armed.map (·.1) := by
  rw [dueTaken, List.map_map]
  refine List.map_congr_left fun y _ => ?_
  dsimp only [Function.comp]
  split <;> rfl

/-- The record due of a sequence whose ranges are those recorded last is a STEP record alone. -/
theorem recorderWrite_of_same {r : RecDue} {a : Nat × List W64} (hdue : s.recorder.due = [r])
    (harmed : s.recorder.armed.find? (fun a => a.1 = r.idx) = some a) (hranges : (upTo 8).map (fun k => r.ranges.getD k 0) = a.2) :
    s.recorderWrite = ({ s with recorder := dueTaken s.recorder r a.2 } : State).putRecords r.idx [s.stepBody r] := by
  rw [recorderWrite, hdue]
  refine (show _ = writeDue { s with recorder := { s.recorder with due := [] } } r from rfl).trans ?_
  simp only [writeDue, harmed, hranges, if_true, List.nil_append]
  rfl

/-- The units that records take from the ring. -/
def recordUnits (s : State) (rs : List RecBody) : Nat :=
  ((layRecords s.ringUnits s.recorder.tail.toNat rs).map (fun x => recUnits x.2)).foldl (· + ·) 0

/-- Records laid into the ring. -/
def recordsLaid (s : State) (rs : List RecBody) : State :=
  ((layRecords s.ringUnits s.recorder.tail.toNat rs).mapIdx (fun k x => (k, x))).foldl (fun (u : State) kx =>
    u.hbmWrite 1 (ringBase + 64 * kx.2.1) (recImage (s.recorder.seqno.toNat + kx.1) kx.2.2)) s

theorem recordsLaid_frame (s : State) (rs : List RecBody) : s.recordsLaid rs = { s with hbm := (s.recordsLaid rs).hbm } :=
  foldl_frame (fun s t : State => t = { s with hbm := t.hbm }) (fun _ => rfl) (fun _ _ _ h k => by rw [k, h]) _
    (fun s kx => hbmWrite_frame 1 _ s _) _ s

/-- The ring's TAIL and sequence number go on behind k records of n units. -/
def ringMoved (s : State) (n k : Nat) : State := { s with recorder := { s.recorder with
  tail := BitVec.ofNat 22 ((s.recorder.tail.toNat + n) % s.ringUnits)
  seqno := s.recorder.seqno + BitVec.ofNat 32 k } }

theorem recorderWrite_of_room {r : RecDue} {a : Nat × List W64} (hdue : s.recorder.due = [r])
    (harmed : s.recorder.armed.find? (fun a => a.1 = r.idx) = some a) (hranges : (upTo 8).map (fun k => r.ranges.getD k 0) = a.2)
    (hroom : s.ringUsed + s.recordUnits [s.stepBody r] ≤ s.ringUnits - 1) : s.recorderWrite =
    { s with
      hbm := (s.recordsLaid [s.stepBody r]).hbm
      recorder := { dueTaken s.recorder r a.2 with
        tail := BitVec.ofNat 22 ((s.recorder.tail.toNat + s.recordUnits [s.stepBody r]) % s.ringUnits)
        seqno := s.recorder.seqno + BitVec.ofNat 32 (layRecords s.ringUnits s.recorder.tail.toNat [s.stepBody r]).length } } := by
  have hlaid : _ = { s.recordsLaid [s.stepBody r] with recorder := dueTaken s.recorder r a.2 } := foldl_records (dueTaken s.recorder r a.2)
    ((layRecords s.ringUnits s.recorder.tail.toNat [s.stepBody r]).mapIdx (fun k x => (k, x))) s
  rw [recorderWrite_of_same hdue harmed hranges, putRecords]
  refine (if_pos hroom).trans ((congrArg (ringMoved · _ _) hlaid).trans ?_)
  rw [recordsLaid_frame]
  rfl

theorem recorderWrite_of_full {r : RecDue} {a : Nat × List W64} (hdue : s.recorder.due = [r])
    (harmed : s.recorder.armed.find? (fun a => a.1 = r.idx) = some a) (hranges : (upTo 8).map (fun k => r.ranges.getD k 0) = a.2)
    (hfull : s.ringUnits - 1 < s.ringUsed + s.recordUnits [s.stepBody r]) : s.recorderWrite =
    { s with recorder := { dueTaken s.recorder r a.2 with
      armed := (dueTaken s.recorder r a.2).armed.filter (fun a => a.1 ≠ r.idx)
      ovf := true
      dropped := satAdd s.recorder.dropped 1 } } := by
  rw [recorderWrite_of_same hdue harmed hranges, putRecords]
  exact if_neg (Nat.not_le.2 hfull)

/-! Deadlines and MATCH words (R231, R303). -/

theorem deadlineExpiry_of_passed (hst : (s.entry i).st = .prefill ∨ (s.entry i).st = .decode ∨ (s.entry i).st = .parked)
    (hfly : (s.entry i).inFlight = false) (hlate : s.deadlinePassed (s.entry i) = true) : s.deadlineExpiry i = s.toExpired i s.seqStep :=
  if_pos ⟨hst, by rw [hfly]; rfl, hlate⟩

theorem matchUpdate_of_due {tok : Nat} (h : (s.smpOf i).due = some tok) : s.matchUpdate i = s.setSmp i { s.smpOf i with
    due := none
    matches_ := (upTo 4).map (fun q => BitVec.ofNat 8 (matchNext (s.smpOf i).par q (((s.smpOf i).matches_.getD q 0).toNat) tok)) } := by
  rw [matchUpdate]
  simp only [h]

end State

theorem exec_inputCopyComplete (i : Nat) (toks : Option (List Nat)) (ok : Bool) (s : State) :
    exec (.inputCopyComplete i toks ok) s = act (okEntry i) s (·.inputCopy i toks ok) := rfl

theorem exec_deadlineExpiry (i : Nat) (s : State) : exec (.deadlineExpiry i) s = act (okEntry i) s (·.deadlineExpiry i) := rfl

theorem exec_matchUpdate (i : Nat) (s : State) : exec (.matchUpdate i) s = act (okEntry i) s (·.matchUpdate i) := rfl

theorem exec_samplerFinish (c : Nat) (s : State) : exec (.samplerFinish c) s = act (okCtx c) s (·.samplerFinish c) := rfl

theorem exec_commitSweep (x : SweepOf) (s : State) : exec (.commitSweep x) s = act (okCtx x.ctx) s (·.sweep x.ctx x.written) := rfl

theorem exec_noticeWrite (s : State) : exec .noticeWrite s = act true s State.noticeWrite := rfl

theorem exec_recorderWrite (s : State) : exec .recorderWrite s = act true s State.recorderWrite := rfl

section

open State

variable {s : State} {i c : Nat} {b : Batch} {m : Member}

theorem completes_inputCopy (hi : okEntry i = true) (hst : (s.entry i).st = .admitted) (hcancel : (s.entry i).cancelPend = false)
    (hlate : s.deadlinePassed (s.entry i) = false) (hroom : 2 ≤ reelRoom (s.reel i)) (hheld : (s.reel i).held = [])
    (hqueued : (s.reel i).heldQ = 0) (l : List Nat) : Completes (.inputCopyComplete i (some l) true) s (fun t =>
      t.entry i = { s.entry i with
        st := .prefill
        input := BitVec.ofNat 21 ((s.input i).toks.length + (s.input i).copying) } ∧
      t.input i = { s.input i with
        toks := (s.input i).toks ++ s.copied i l
        copying := 0 } ∧ (∀ j, j ≠ i → t.entry j = s.entry j) ∧
      t = { s with
        entries := t.entries
        inputs := t.inputs }) := by
  let w := s.setInput i { s.input i with toks := (s.input i).toks ++ s.copied i l, copying := 0 }
  let e : SeqEntry := { s.entry i with st := .prefill, input := BitVec.ofNat 21 ((s.input i).toks.length + (s.input i).copying) }
  have hentry : (w.setEntry i e).entry i = e := entry_setEntry ..
  have hpark : (w.setEntry i e).park i = w.setEntry i e :=
    park_of_roomy (by rw [hentry]; exact (nomatch ·)) (reelShort_of_roomy (x := s.reel i) hroom hheld hqueued)
  exact completes_kept (exec_inputCopyComplete ..) hi ((inputCopy_some hst hcancel hlate l true).trans hpark)
    (keepBoot_of rfl rfl rfl rfl rfl rfl) ⟨hentry, input_setInput s i _, fun _ hj => entry_setEntry_ne w e hj, rfl⟩

theorem completes_samplerFinish (hc : okCtx c = true) (hfind : s.batches.find? (fun b => b.ctx = c && b.released && !b.sampledAll) = some b)
    (hpresent : s.logitsPresent b = true) (hone : samplingOf b = [m])
    (hreplay : b.replay = false) : Completes (.samplerFinish c) s (fun t =>
      (∀ x ∈ t.batches, x.step = b.step → x.ctx = c → x.replay = false → x.sampledAll = true) ∧
      t = { s with
        batches := t.batches
        logits := (s.clearLogits c).logits
        freeCtr := s.freeCtr + 1
        smp := t.smp
        sampled := t.sampled
        entries := t.entries } ∧
      (match sample (s.smpOf m.idx).par (s.logitsOf c 0) (fun v => tabGet 0 (s.smpOf m.idx).counts v)
          (drawOf (smpSeed (s.smpOf m.idx).par) b.step) (Config.freeNat s.freeCtr % s.vocabOf c) with
        | .fault => t.smp = { s.smp with faults := satAdd s.smp.faults 1 } ∧ t.sampled = s.sampled ∧
          t.entry m.idx = { s.entry m.idx with stepFault := if (s.entry m.idx).stepFault = 0 then 4 else (s.entry m.idx).stepFault } ∧
          (∀ j, j ≠ m.idx → t.entry j = s.entry j)
        | .token tok lp _ => t.smp = { s.smp with draws := s.smp.draws + 1 } ∧
          t.sampled = s.sampled ++ [⟨b.step, m.idx, tok, BitVec.ofNat 32 lp, 0⟩] ∧ t.entries = s.entries)) := by
  have hfound := List.find?_some hfind
  simp only [Bool.and_eq_true, decide_eq_true_eq] at hfound
  obtain ⟨⟨hctx, -⟩, -⟩ := hfound
  obtain ⟨hframe, hdraw⟩ := sampleOne_spec (s := s) (b := b) (m := m) hreplay
  have hf := samplerFinish_of_one hfind hpresent hone hreplay
  rw [hctx] at hdraw
  generalize (sampleOne b (s, 0) m).1 = w at hf hframe hdraw
  have hlogits : (w.clearLogits c).logits = (s.clearLogits c).logits := by
    rw [hframe]
    rfl
  rw [hlogits] at hf
  refine completes_kept (exec_samplerFinish ..) hc hf ?_ ⟨fun x hx hstep hctx' hown => ?_, ?_, hdraw⟩
  · rw [hframe]
    exact keepBoot_of rfl rfl rfl rfl rfl rfl
  · obtain ⟨y, -, rfl⟩ := List.mem_map.1 hx
    split
    · rfl
    · next hother =>
      rw [if_neg hother] at hstep hctx' hown
      exact absurd ⟨hstep, hctx', hown⟩ hother
  · rw [hframe]

end

/-- Settles O38: each command's function, taken apart for the state that the statement names, writes the entry, the batch, the ring or the
notices, and the rest is as it was. -/
theorem stepsOfASequence : Obligations.StepsOfASequence := by
  refine ⟨fun s i hi => ⟨fun hst hcancel => ⟨fun l hlate _ hroom hheld hqueued => ?_, ?_⟩, fun hst hfly hlate => ?_, fun tok hdue => ?_,
    fun c b m hc hfind hpresent hone hreplay => ?_⟩, fun s c written hc => ⟨fun b m hfind hone => ?_, fun b rest hdue => ?_,
    fun r a hdue harmed hranges => ⟨fun hroom => ?_, fun hfull => ?_⟩⟩⟩
  · exact completes_inputCopy (decide_eq_true hi) hst hcancel hlate hroom hheld hqueued l
  · obtain ⟨htouches, hentry, hothers⟩ := (s.dropInput i).toFaulted_spec i s.seqStep 1
    refine completes_act (exec_inputCopyComplete ..) (decide_eq_true hi) ?_
    rw [State.inputCopy_none hst hcancel]
    generalize (s.dropInput i).toFaulted i s.seqStep 1 = t at htouches hentry hothers
    refine ⟨hentry, ?_, hothers⟩
    rw [State.keepBoot_input, htouches]
    exact s.input_setInput i _
  · obtain ⟨hframe, hentry, hothers⟩ := s.toExpired_spec i s.seqStep
    refine completes_act (exec_deadlineExpiry ..) (decide_eq_true hi) ?_
    rw [State.deadlineExpiry_of_passed hst hfly hlate]
    generalize s.toExpired i s.seqStep = t at hframe hentry hothers
    refine ⟨hentry, ?_, ?_, hothers⟩
    · rw [State.keepBoot_seq, hframe]
    · rw [hframe]
      rfl
  · exact completes_kept (exec_matchUpdate ..) (decide_eq_true hi) (State.matchUpdate_of_due hdue)
      (State.keepBoot_of rfl rfl rfl rfl rfl rfl)
      ⟨s.smpOf_setSmp i _, rfl⟩
  · exact completes_samplerFinish (decide_eq_true hc) hfind hpresent hone hreplay
  · obtain ⟨⟨⟨hfly, htaken⟩, hothers⟩, hswept⟩ := State.sweep_of_one hfind hone written
    have hfound := List.find?_some hfind
    simp only [Bool.and_eq_true, decide_eq_true_eq] at hfound
    obtain ⟨⟨⟨hctx, -⟩, -⟩, -⟩ := hfound
    rw [hctx] at htaken
    exact completes_act (exec_commitSweep ..) (decide_eq_true hc) ⟨hswept, hfly, hothers, htaken⟩
  · have hkept : State.NoticeTouches { s with noticesDue := rest } (((upTo 4).filter (fun m => (s.spn m).opCtx.getLsbD c)).foldl
        (fun u m => u.putNotice m b) { s with noticesDue := rest }) :=
      foldl_frame State.NoticeTouches .refl (fun _ _ _ => State.NoticeTouches.trans) _ (fun s m => s.noticeTouches_putNotice m b) _ _
    refine completes_kept (exec_noticeWrite s) rfl (State.noticeWrite_of_due hdue) ?_ rfl
    rw [hkept.1]
    exact State.keepBoot_of rfl rfl rfl rfl rfl rfl
  · exact completes_kept (exec_recorderWrite s) rfl (State.recorderWrite_of_room hdue harmed hranges hroom)
      (State.keepBoot_of rfl rfl rfl rfl rfl rfl) ⟨rfl, rfl, rfl, rfl, State.armed_dueTaken .., rfl⟩
  · refine completes_kept (exec_recorderWrite s) rfl (State.recorderWrite_of_full hdue harmed hranges hfull)
      (State.keepBoot_of rfl rfl rfl rfl rfl rfl) ⟨rfl, rfl, rfl, rfl, fun x hx => ?_, rfl⟩
    simpa using (List.mem_filter.1 hx).2

end Sys2Proof.Machine

/-! The items that a member takes (R238, R239, R270, R370, Table 16.5). -/

namespace Sys2Proof.Machine

namespace State

variable {s t u v w : State} {i c : Nat} {it : List Byte} {q : Pkt}

/-! An item is taken (R369). -/

/-- Taking an item changes what has been delivered, and the credits owed for its packet. -/
theorem takeItem_frame {kind : Nat} (h : s.takeItem kind = some (it, q, u)) : ∃ l p, u = { s with
    rig := { s.rig with delivered := l }
    ports := p } := by
  rw [takeItem] at h
  split at h
  · cases h
  · simp only [Option.some.injEq, Prod.mk.injEq] at h
    obtain ⟨-, -, rfl⟩ := h
    split
    · rw [giveBack]
      split <;> exact ⟨_, _, rfl⟩
    · exact ⟨_, _, rfl⟩

/-- An item of the epoch, its payload whole, is used. -/
theorem withItem_of_fresh {kind : Nat} (h : s.takeItem kind = some (it, q, u)) (hfresh : s.freshPkt q = true) (hwhole : pchkOk q = true)
    (f : State → List Byte → Pkt → State) : s.withItem kind f = f u it q := by
  rw [withItem, h]
  dsimp only
  rw [hfresh, hwhole]
  rfl

/-! The answer to a reservation (R239). -/

/-- What a reservation may change. -/
def SeatTouches (s t : State) : Prop := t = { s with
  freeCtr := t.freeCtr
  out := t.out
  hbm := t.hbm
  pdescs := t.pdescs
  tables := t.tables
  prefixes := t.prefixes
  kv := { s.kv with
    copies := t.kv.copies
    moved := t.kv.moved }
  xrs := t.xrs }

theorem SeatTouches.refl (s : State) : SeatTouches s s := rfl

theorem SeatTouches.trans (h : SeatTouches s t) (k : SeatTouches t u) : SeatTouches s u := by
  rw [SeatTouches] at h k ⊢
  rw [k, h]

theorem PageTouches.seatTouches (h : PageTouches s t) : SeatTouches s t := by
  rw [h]
  rfl

/-- One item goes out in a packet of its own. -/
theorem sendItems_one {rank : Nat} (s : State) (step : Nat) (x : List Byte) (hrank : rank < s.jobSize)
    (hroute : (s.routeTo (s.rankId rank) 3).isSome = true) : ∃ p : Pkt, (s.sendItems rank step [x]).rig.inq = s.rig.inq ++ [p] ∧
    p.typ = pkHead ∧ p.dest = s.rankId rank ∧ p.payload = x := by
  obtain ⟨r, hr⟩ := Option.isSome_iff_exists.1 hroute
  have hsend : s.sendItems rank step [x] = s.sendData rank 3 pkHead (s.descHead x step 1) x := by
    have hflat : [x].flatten = x := by simp
    have hitems : s.sendItems rank step [x] = s.sendData rank 3 pkHead (s.descHead [x].flatten step 1) [x].flatten := rfl
    rw [hitems, hflat]
  rw [hsend, sendData, if_neg (Nat.not_le.2 hrank)]
  simp only [hr]
  exact ⟨_, rfl, rfl, rfl, rfl⟩

/-- The head is answered with an item of a kind, and no entry changes. -/
def Answers (s : State) (head kind h : Nat) (t : State) : Prop :=
  (head < s.jobSize → (s.routeTo (s.rankId head) 3).isSome = true → ∃ p : Pkt, t.rig.inq = s.rig.inq ++ [p] ∧ p.typ = pkHead ∧
    p.dest = s.rankId head ∧ p.payload = itemBytes kind 0 0 h 0 0 0 0) ∧ t.entries = s.entries

theorem answers_sendItems {l : List Pkt} {p : Tab Port} (hw : SeatTouches { s with rig := { s.rig with delivered := l }, ports := p } w)
    (head kind h step : Nat) : Answers s head kind h (w.sendItems head step [itemBytes kind 0 0 h 0 0 0 0]) := by
  refine ⟨fun hrank hroute => ?_, ?_⟩
  · have hsize : w.jobSize = s.jobSize := by rw [hw]; rfl
    have hid : w.rankId head = s.rankId head := by rw [hw]; rfl
    have hsame : w.routeTo (s.rankId head) 3 = s.routeTo (s.rankId head) 3 := by rw [hw]; rfl
    have hinq : w.rig.inq = s.rig.inq := by rw [hw]
    obtain ⟨x, hx⟩ := w.sendItems_one step (itemBytes kind 0 0 h 0 0 0 0) (hsize ▸ hrank) (by rw [hid, hsame]; exact hroute)
    rw [hinq, hid] at hx
    exact ⟨x, hx⟩
  · rw [sendItems_frame, hw]

/-! RESERVE (R239, R270). -/

/-- The answer to a reservation. -/
def answer (s : State) (q : Pkt) (it : List Byte) (kind : Nat) (head : Nat) : State :=
  s.sendItems head (pktStep q) [itemBytes kind 0 0 (leAt it 4 4) 0 0 0 0]

/-- A reservation is entered beside the sequence that it is for. -/
def reserved (s : State) (i head rows : Nat) : State :=
  s.modTbl i (fun t => { t with headRank := head, resRows := t.resRows + BitVec.ofNat 16 rows })

/-- Rows for a sequence that the member holds. -/
theorem memberReserve_held (htake : s.takeItem kReserve = some (it, q, u)) (hfresh : s.freshPkt q = true) (hwhole : pchkOk q = true)
    (howned : (u.tbl (shadowKey c (leAt it 4 4))).owned = true) (hslot : leAt it 12 4 = 0xFFFF) : s.memberReserve c none =
    let i := shadowKey c (leAt it 4 4)
    let head := (u.rankOf q.src).getD 0
    let v := u.dropRows i
    if v.cmdFits i c (v.tbl i).shadow (leAt it 8 4) false then (v.reserved i head (leAt it 8 4)).answer q it kReserveAck head
    else v.answer q it kRefuse head := by
  rw [memberReserve, withItem_of_fresh htake hfresh hwhole]
  simp only [howned, hslot, Bool.not_true, Bool.false_eq_true, if_false, Option.filter_none, Option.map_none, decide_true, Bool.true_or,
    Bool.true_and, Bool.false_and]
  rfl

theorem memberReserve_new (htake : s.takeItem kReserve = some (it, q, u)) (hfresh : s.freshPkt q = true) (hwhole : pchkOk q = true)
    (howned : (u.tbl (shadowKey c (leAt it 4 4))).owned = false) (hslot : leAt it 12 4 = 0xFFFF) : s.memberReserve c none =
    let i := shadowKey c (leAt it 4 4)
    let head := (u.rankOf q.src).getD 0
    if u.cmdFits i c (u.tbl i).shadow (leAt it 8 4) true then ((u.takeDir i c).reserved i head (leAt it 8 4)).answer q it kReserveAck head
    else u.answer q it kRefuse head := by
  rw [memberReserve, withItem_of_fresh htake hfresh hwhole]
  simp only [howned, hslot, Bool.not_false, if_true, Option.filter_none, Option.map_none, decide_true, Bool.true_or,
    Bool.true_and, ne_eq, not_true_eq_false, decide_false, Bool.false_eq_true, Bool.and_false, if_false]
  rfl

/-- The learned rows of a PFX slot head those of a new sequence. -/
def prefixed (s : State) (i c slot : Nat) : State :=
  let v := (s.takeDir i c).placePrefix i c slot
  (v.setXr i { v.xr i with prefixSlot := some slot, p0 := (v.pfx c slot).length }).modTbl i
    (fun t => { t with shadow := (v.pfx c slot).length })

theorem memberReserve_prefixed (htake : s.takeItem kReserve = some (it, q, u)) (hfresh : s.freshPkt q = true) (hwhole : pchkOk q = true)
    (howned : (u.tbl (shadowKey c (leAt it 4 4))).owned = false) (hslot : leAt it 12 4 ≠ 0xFFFF) : s.memberReserve c none =
    let i := shadowKey c (leAt it 4 4)
    let head := (u.rankOf q.src).getD 0
    if (u.pfx c (leAt it 12 4)).loaded && u.cmdFits i c (u.pfx c (leAt it 12 4)).length (leAt it 8 4) true then
      ((u.prefixed i c (leAt it 12 4)).reserved i head (leAt it 8 4)).answer q it kReserveAck head
    else u.answer q it kRefuse head := by
  rw [memberReserve, withItem_of_fresh htake hfresh hwhole]
  simp only [howned, hslot, Bool.not_false, if_true, Option.filter_none, Option.map_none, decide_false, Bool.false_or,
    Bool.true_and, ne_eq, not_false_eq_true, decide_true, if_false]
  rfl

theorem memberReserve_forked {h : W32} (htake : s.takeItem kReserve = some (it, q, u)) (hfresh : s.freshPkt q = true)
    (hwhole : pchkOk q = true)
    (howned : (u.tbl (shadowKey c (leAt it 4 4))).owned = false) (hslot : leAt it 12 4 = 0xFFFF) : s.memberReserve c (some h) =
    let i := shadowKey c (leAt it 4 4)
    let j := shadowKey c h.toNat
    let head := (u.rankOf q.src).getD 0
    if (u.tbl j).owned && u.fits c (u.forkNeed j) true && decide (u.dirSize c + (u.tbl j).ptrs.length ≤ u.ptbFree) then
      ((((u.forkTables j i c).setXr i (u.xr j)).modTbl i (fun t => { t with shadow := (u.tbl j).shadow })).reserved i head
        (leAt it 8 4)).answer q it kReserveAck head
    else u.answer q it kRefuse head := by
  rw [memberReserve, withItem_of_fresh htake hfresh hwhole]
  simp only [howned, hslot, Bool.not_false, if_true, Option.filter_some, Option.map_some, decide_true, Bool.true_or, Bool.true_and]
  rfl

theorem tbl_reserved (s : State) (i head rows : Nat) : (s.reserved i head rows).tbl i = { s.tbl i with
    headRank := head
    resRows := (s.tbl i).resRows + BitVec.ofNat 16 rows } := tbl_modTbl ..

theorem tbl_reserved_dropRows (s : State) (i head rows : Nat) : ((s.dropRows i).reserved i head rows).tbl i = { s.tbl i with
    resRows := BitVec.ofNat 16 rows
    released := false
    headRank := head } := by
  rw [tbl_reserved, dropRows, tbl_modTbl]
  simp

theorem tables_answer (s : State) (q : Pkt) (it : List Byte) (kind head : Nat) : (s.answer q it kind head).tables = s.tables := by
  rw [answer, sendItems_frame]

theorem xrs_answer (s : State) (q : Pkt) (it : List Byte) (kind head : Nat) : (s.answer q it kind head).xrs = s.xrs := by
  rw [answer, sendItems_frame]

theorem prefixed_spec (s : State) (i c slot : Nat) : SeatTouches s (s.prefixed i c slot) ∧
    ((s.prefixed i c slot).tbl i).owned = true ∧ ((s.prefixed i c slot).tbl i).shadow = (s.pfx c slot).length ∧
    ((s.prefixed i c slot).tbl i).pages = (s.pfx c slot).pages ∧ ((s.prefixed i c slot).xr i).prefixSlot = some slot ∧
    ((s.prefixed i c slot).xr i).p0 = (s.pfx c slot).length := by
  obtain ⟨hdir, hprefixes, htbl⟩ := s.takeDir_spec i c
  have hpfx : (s.takeDir i c).pfx c slot = s.pfx c slot := by
    rw [pfx, hprefixes]
    rfl
  obtain ⟨⟨hplaced, hkept⟩, hpages, hlen⟩ := (s.takeDir i c).placePrefix_spec i c slot
  rw [prefixed]
  dsimp only
  generalize (s.takeDir i c).placePrefix i c slot = v at hplaced hkept hpages hlen
  rw [hpfx] at hpages hlen
  have hentry := (v.setXr i { v.xr i with prefixSlot := some slot, p0 := (v.pfx c slot).length }).tbl_modTbl i
    (fun t => { t with shadow := (v.pfx c slot).length })
  have hxr := v.xr_setXr i { v.xr i with prefixSlot := some slot, p0 := (v.pfx c slot).length }
  refine ⟨(hdir.trans hplaced).seatTouches.trans rfl, ?_, ?_, ?_, congrArg Xr.prefixSlot hxr, (congrArg Xr.p0 hxr).trans hlen⟩
  · rw [hentry]
    refine (congrArg Tables.owned (show State.tbl _ i = _ from hkept)).trans ?_
    rw [htbl]
  · rw [hentry]
    exact hlen
  · rw [hentry]
    exact hpages

/-! BATCH and RANGES (R238, R370). -/

/-- The member that a BATCH item names. -/
def batchMember (i : Nat) (it : List Byte) : Member :=
  { idx := i
    base := leAt it 8 4
    toks := List.replicate (leAt it 2 2) 0
    prefill := decide (1 < leAt it 2 2)
    samples := decide (leAt it 20 4 % 2 = 1)
    ranges := List.replicate 8 0
    p0 := leAt it 16 4 }

/-- The waiting batches with a member entered: into the batch of its step, or into one of its own. -/
def withMember (l : List Batch) (step c tau : Nat) (m : Member) : List Batch :=
  if l.any (fun b => b.step = step && b.ctx = c) then
    l.map (fun b => if b.step = step ∧ b.ctx = c then { b with members := b.members ++ [m], taus := b.taus ++ [tau] } else b)
  else l ++ [{ step := step, ctx := c, group := 0, members := [m], taus := [tau], remote := true }]

theorem mem_withMember (l : List Batch) (step c tau : Nat) (m : Member) : ∃ b ∈ withMember l step c tau m, b.step = step ∧ b.ctx = c ∧
    m ∈ b.members := by
  rw [withMember]
  split
  · next hany =>
    obtain ⟨b, hb, hsame⟩ := List.any_eq_true.1 hany
    simp only [Bool.and_eq_true, decide_eq_true_eq] at hsame
    refine ⟨_, List.mem_map_of_mem hb, ?_⟩
    rw [if_pos hsame]
    exact ⟨hsame.1, hsame.2, List.mem_append_right _ (List.mem_singleton_self m)⟩
  · exact ⟨_, List.mem_append_right _ (List.mem_singleton_self _), rfl, rfl, List.mem_singleton_self m⟩

theorem mem_withMember_of_other {l : List Batch} {step c : Nat} {b : Batch} (hb : b ∈ l) (hother : b.step ≠ step ∨ b.ctx ≠ c) (tau : Nat)
    (m : Member) : b ∈ withMember l step c tau m := by
  rw [withMember]
  split
  · refine List.mem_map.2 ⟨b, hb, if_neg fun h => ?_⟩
    exact hother.elim (· h.1) (· h.2)
  · exact List.mem_append_left _ hb

theorem memberBatch_of_fresh (htake : s.takeItem kBatch = some (it, q, u)) (hfresh : s.freshPkt q = true) (hwhole : pchkOk q = true) :
    s.memberBatch c = { u with
      remoteWait := withMember u.remoteWait (pktStep q) c (leAt it 12 4) (batchMember (shadowKey c (leAt it 4 4)) it) } := by
  rw [memberBatch, withItem_of_fresh htake hfresh hwhole]
  dsimp only
  rw [withMember]
  split <;> rfl

theorem memberRanges_of_fresh (htake : s.takeItem kRanges = some (it, q, u)) (hfresh : s.freshPkt q = true) (hwhole : pchkOk q = true) :
    s.memberRanges c = { u with
      remoteWait := u.remoteWait.map (putRanges (shadowKey c (leAt it 4 4)) (pktStep q) (leAt it 1 1) it)
      batches := u.batches.map (putRanges (shadowKey c (leAt it 4 4)) (pktStep q) (leAt it 1 1) it) } := by
  rw [memberRanges, withItem_of_fresh htake hfresh hwhole]

/-! COMMIT (R239, R254, R270). -/

/-- A member whose step is resolved leaves the batch of its step, which has been swept with its last one. -/
def memberLeaves (i step c : Nat) (b : Batch) : Batch :=
  if b.step = step ∧ b.ctx = c ∧ b.remote then
    let left := b.members.filter (fun m => m.idx ≠ i)
    { b with members := if left.isEmpty then b.members else left, swept := b.swept || left.isEmpty }
  else b

theorem memberLeaves_left {i step c : Nat} {b : Batch} (hstep : (memberLeaves i step c b).step = step)
    (hctx : (memberLeaves i step c b).ctx = c)
    (hremote : (memberLeaves i step c b).remote = true) :
    (memberLeaves i step c b).swept = true ∨ ∀ m ∈ (memberLeaves i step c b).members, m.idx ≠ i := by
  by_cases h : b.step = step ∧ b.ctx = c ∧ b.remote
  · rw [memberLeaves, if_pos h]
    dsimp only
    split
    · next hempty => exact .inl (by rw [hempty, Bool.or_true])
    · exact .inr fun m hm => by simpa using (List.mem_filter.1 hm).2
  · rw [memberLeaves, if_neg h] at hstep hctx hremote
    exact absurd ⟨hstep, hctx, hremote⟩ h

theorem memberCommit_of_done (htake : s.takeItem kCommit = some (it, q, u)) (hfresh : s.freshPkt q = true) (hwhole : pchkOk q = true)
    (hdone : leAt it 1 1 = 0) : s.memberCommit c = { u with
      tables := (u.modTbl (shadowKey c (leAt it 4 4)) (fun t => { t with shadow := leAt it 8 4 })).tables
      batches := u.batches.map (memberLeaves (shadowKey c (leAt it 4 4)) (pktStep q) c) } := by
  rw [memberCommit, withItem_of_fresh htake hfresh hwhole]
  dsimp only
  rw [if_pos hdone]
  rfl

theorem memberCommit_of_back (htake : s.takeItem kCommit = some (it, q, u)) (hfresh : s.freshPkt q = true) (hwhole : pchkOk q = true)
    (hback : leAt it 1 1 ≠ 0) : s.memberCommit c =
    let i := shadowKey c (leAt it 4 4)
    let v := u.returnRows i c (u.tbl i).shadow (leAt it 2 2)
    let w := if leAt it 1 1 = 1 ∨ leAt it 1 1 = 2 then v.dropRows i else v
    { w with batches := w.batches.map (memberLeaves i (pktStep q) c) } := by
  rw [memberCommit, withItem_of_fresh htake hfresh hwhole]
  dsimp only
  rw [if_neg hback]
  rfl

theorem tbl_returnRows (s : State) (i c len n : Nat) : (s.returnRows i c len n).tbl i = { s.tbl i with
    ptrs := ((s.returnRows i c len n).tbl i).ptrs
    pages := ((s.returnRows i c len n).tbl i).pages
    resRows := (s.tbl i).resRows + BitVec.ofNat 16 (pagesFor (len + n) - pagesFor len) } := by
  rw [returnRows]
  dsimp only
  generalize hw : List.foldl _ s (upTo ((pagesFor (len + n) - pagesFor len) * s.layerCount c)) = w
  have htaken : PagesTaken i s w := by
    rw [← hw]
    refine foldl_pagesTaken (fun s x => ?_) _ s
    split
    · exact (pagesTaken_setPdesc ..).trans (pagesTaken_setTblPage ..)
    · exact .refl i s
  rw [addRows, tbl_modTbl, htaken.2]

/-! HEAD_RELEASE (R239, R270). -/

theorem memberRelease_of_fresh (htake : s.takeItem kRelease = some (it, q, u)) (hfresh : s.freshPkt q = true) (hwhole : pchkOk q = true)
    (whole : Bool) : s.memberRelease c whole =
    let i := shadowKey c (leAt it 4 4)
    if whole then (u.freeTables i).setXr i {} else u.dropRows i := by
  rw [memberRelease, withItem_of_fresh htake hfresh hwhole]

end State

theorem exec_reserve (x : ReserveFor) (s : State) : exec (.reserve x) s = act (okCtx x.ctx) s (·.memberReserve x.ctx x.fork) := rfl

section

open State

variable {s u w : State} {c : Nat} {it : List Byte} {q : Pkt} {n : Instr} {ok : Bool} {f : State → State} {P : State → Prop}

/-- A reservation that comes to its answer completes with it. -/
theorem completes_answer {l : List Pkt} {p : Tab Port} (hexec : exec n s = act ok s f) (hok : ok = true) {kind head : Nat}
    (hf : f s = w.answer q it kind head) (hw : SeatTouches { s with rig := { s.rig with delivered := l }, ports := p } w)
    (hp : ∀ t, t.tables = w.tables → t.xrs = w.xrs → Answers s head kind (leAt it 4 4) t → P t) : Completes n s P := by
  refine completes_act hexec hok ?_
  rw [hf]
  exact hp _ (w.tables_answer ..) (w.xrs_answer ..) (answers_sendItems hw ..)

variable {l : List Pkt} {p : Tab Port}

theorem completes_reserve_held (hc : okCtx c = true)
    (htake : s.takeItem kReserve = some (it, q, { s with rig := { s.rig with delivered := l }, ports := p }))
    (hfresh : s.freshPkt q = true) (hwhole : pchkOk q = true) (howned : (s.tbl (shadowKey c (leAt it 4 4))).owned = true)
    (hslot : leAt it 12 4 = 0xFFFF) :
    let i := shadowKey c (leAt it 4 4)
    let head := (s.rankOf q.src).getD 0
    let v := s.dropRows i
    (v.cmdFits i c (s.tbl i).shadow (leAt it 8 4) false = true → Completes (.reserve ⟨c, none⟩) s (fun t =>
      Answers s head kReserveAck (leAt it 4 4) t ∧ t.tbl i = { s.tbl i with
        resRows := BitVec.ofNat 16 (leAt it 8 4)
        released := false
        headRank := head })) ∧
    (v.cmdFits i c (s.tbl i).shadow (leAt it 8 4) false = false → Completes (.reserve ⟨c, none⟩) s (fun t =>
      Answers s head kRefuse (leAt it 4 4) t ∧ t.tables = v.tables)) := by
  have hf := memberReserve_held (c := c) htake hfresh hwhole howned hslot
  dsimp only at hf ⊢
  generalize shadowKey c (leAt it 4 4) = i at hf
  have hshadow : ((s.dropRows i).tbl i).shadow = (s.tbl i).shadow := by rw [dropRows, tbl_modTbl]
  have hsame : ∀ (l : List Pkt) (p : Tab Port) (b : Bool), (s.dropRows i).cmdFits i c (s.tbl i).shadow (leAt it 8 4) false = b →
      (({ s with rig := { s.rig with delivered := l }, ports := p } : State).dropRows i).cmdFits i c
        ((({ s with rig := { s.rig with delivered := l }, ports := p } : State).dropRows i).tbl i).shadow (leAt it 8 4) false = b := by
    exact fun _ _ _ h => (congrArg (fun x => (s.dropRows i).cmdFits i c x (leAt it 8 4) false) hshadow).trans h
  refine ⟨fun hfits => ?_, fun hfull => ?_⟩
  · rw [if_pos (hsame l p true hfits)] at hf
    refine completes_answer (exec_reserve ..) hc hf rfl fun t htables _ hans => ⟨hans, ?_⟩
    rw [tbl_of_tables htables, tbl_reserved_dropRows]
    rfl
  · rw [if_neg (by rw [hsame l p false hfull]; exact Bool.false_ne_true)] at hf
    exact completes_answer (exec_reserve ..) hc hf rfl fun t htables _ hans => ⟨hans, htables⟩

theorem completes_reserve_new (hc : okCtx c = true)
    (htake : s.takeItem kReserve = some (it, q, { s with rig := { s.rig with delivered := l }, ports := p }))
    (hfresh : s.freshPkt q = true) (hwhole : pchkOk q = true) (howned : (s.tbl (shadowKey c (leAt it 4 4))).owned = false)
    (hslot : leAt it 12 4 = 0xFFFF) (hfits : s.cmdFits (shadowKey c (leAt it 4 4)) c (s.tbl (shadowKey c (leAt it 4 4))).shadow
      (leAt it 8 4) true = true) :
    let i := shadowKey c (leAt it 4 4)
    let head := (s.rankOf q.src).getD 0
    Completes (.reserve ⟨c, none⟩) s (fun t => Answers s head kReserveAck (leAt it 4 4) t ∧ (t.tbl i).owned = true ∧ (t.tbl i).ctx = c ∧
      (t.tbl i).resRows = (s.tbl i).resRows + BitVec.ofNat 16 (leAt it 8 4) ∧ (t.tbl i).headRank = head) := by
  have hf := memberReserve_new (c := c) htake hfresh hwhole howned hslot
  dsimp only at hf ⊢
  generalize shadowKey c (leAt it 4 4) = i at hf hfits
  replace hf := hf.trans (if_pos hfits)
  obtain ⟨htouches, -, htbl⟩ := State.takeDir_spec { s with rig := { s.rig with delivered := l }, ports := p } i c
  generalize State.takeDir { s with rig := { s.rig with delivered := l }, ports := p } i c = v at hf htouches htbl
  refine completes_answer (exec_reserve ..) hc hf (htouches.seatTouches.trans rfl) fun t htables _ hans => ?_
  rw [tbl_of_tables htables, tbl_reserved, htbl]
  exact ⟨hans, rfl, rfl, rfl, rfl⟩

theorem completes_reserve_prefixed (hc : okCtx c = true)
    (htake : s.takeItem kReserve = some (it, q, { s with rig := { s.rig with delivered := l }, ports := p }))
    (hfresh : s.freshPkt q = true) (hwhole : pchkOk q = true) (howned : (s.tbl (shadowKey c (leAt it 4 4))).owned = false)
    (hslot : leAt it 12 4 ≠ 0xFFFF) :
    let i := shadowKey c (leAt it 4 4)
    let head := (s.rankOf q.src).getD 0
    let x := s.pfx c (leAt it 12 4)
    (x.loaded = true → s.cmdFits i c x.length (leAt it 8 4) true = true → Completes (.reserve ⟨c, none⟩) s (fun t =>
      Answers s head kReserveAck (leAt it 4 4) t ∧ (t.tbl i).owned = true ∧ (t.tbl i).shadow = x.length ∧ (t.tbl i).pages = x.pages ∧
      (t.xr i).prefixSlot = some (leAt it 12 4) ∧ (t.xr i).p0 = x.length)) ∧
    (x.loaded = false → Completes (.reserve ⟨c, none⟩) s (fun t => Answers s head kRefuse (leAt it 4 4) t ∧ t.tables = s.tables)) := by
  have hf := memberReserve_prefixed (c := c) htake hfresh hwhole howned hslot
  dsimp only at hf ⊢
  generalize shadowKey c (leAt it 4 4) = i at hf
  refine ⟨fun hloaded hfits => ?_, fun hempty => ?_⟩
  · replace hf := hf.trans (if_pos (Bool.and_eq_true_iff.2 ⟨hloaded, hfits⟩))
    obtain ⟨htouches, howned, hshadow, hpages, hslot, hp0⟩ :=
      State.prefixed_spec { s with rig := { s.rig with delivered := l }, ports := p } i c (leAt it 12 4)
    generalize State.prefixed { s with rig := { s.rig with delivered := l }, ports := p } i c (leAt it 12 4) = v at *
    refine completes_answer (exec_reserve ..) hc hf (htouches.trans rfl) fun t htables hxrs hans => ?_
    have hxr : t.xr i = v.xr i := congrArg (tabGet ({} : Xr) · i) hxrs
    rw [tbl_of_tables htables, tbl_reserved, hxr]
    exact ⟨hans, howned, hshadow, hpages, hslot, hp0⟩
  · replace hf := hf.trans (if_neg fun h => Bool.false_ne_true (hempty.symm.trans (Bool.and_eq_true_iff.1 h).1))
    exact completes_answer (exec_reserve ..) hc hf (.refl _) fun t htables _ hans => ⟨hans, htables⟩

theorem completes_reserve_forked {h : W32} (hc : okCtx c = true)
    (htake : s.takeItem kReserve = some (it, q, { s with rig := { s.rig with delivered := l }, ports := p }))
    (hfresh : s.freshPkt q = true) (hwhole : pchkOk q = true) (howned : (s.tbl (shadowKey c (leAt it 4 4))).owned = false)
    (hslot : leAt it 12 4 = 0xFFFF) :
    let i := shadowKey c (leAt it 4 4)
    let head := (s.rankOf q.src).getD 0
    let j := shadowKey c h.toNat
    (s.tbl j).owned = true → s.fits c (s.forkNeed j) true = true → s.dirSize c + (s.tbl j).ptrs.length ≤ s.ptbFree →
    Completes (.reserve ⟨c, some h⟩) s (fun t => Answers s head kReserveAck (leAt it 4 4) t ∧
      (t.tbl i).owned = true ∧ (t.tbl i).shadow = (s.tbl j).shadow ∧ t.xr i = s.xr j ∧ (t.tbl i).headRank = head) := by
  have hf := memberReserve_forked (c := c) (h := h) htake hfresh hwhole howned hslot
  dsimp only at hf ⊢
  intro hsource hfits hblocks
  generalize shadowKey c (leAt it 4 4) = i at hf
  generalize shadowKey c h.toNat = j at hf hsource hfits hblocks
  replace hf := hf.trans (if_pos (Bool.and_eq_true_iff.2 ⟨Bool.and_eq_true_iff.2 ⟨hsource, hfits⟩, decide_eq_true hblocks⟩))
  obtain ⟨htouches, htbl⟩ := State.forkTables_spec { s with rig := { s.rig with delivered := l }, ports := p } j i c
  generalize State.forkTables { s with rig := { s.rig with delivered := l }, ports := p } j i c = v at hf htouches htbl
  refine completes_answer (exec_reserve ..) hc hf (htouches.seatTouches.trans rfl) fun t htables hxrs hans => ?_
  have hxr : t.xr i = s.xr j := (congrArg (tabGet ({} : Xr) · i) hxrs).trans (v.xr_setXr i (s.xr j))
  rw [tbl_of_tables htables, tbl_reserved, tbl_modTbl, hxr]
  exact ⟨hans, (congrArg Tables.owned htbl).trans rfl, rfl, rfl, rfl⟩

end

end Sys2Proof.Machine

/-! The items that a head takes (R239, R268, Table 16.5), and the route window (R463). -/

namespace Sys2Proof.Machine

namespace State

variable {s t u v w : State} {a : Await} {k r : Nat} {it : List Byte} {q : Pkt}

/-- What an item has been taken from differs in the packets delivered and the credits owed alone. -/
def Taken (s u : State) : Prop := u = { s with
  rig := u.rig
  ports := u.ports }

theorem taken_of_takeItem {kind : Nat} (h : s.takeItem kind = some (it, q, u)) : Taken s u := by
  obtain ⟨l, p, rfl⟩ := takeItem_frame h
  rfl

/-- An answer goes by the ring alone of the state that its command was taken in. -/
theorem Answered.of_cplRing {d : Desc} {h : W32} {st : Byte} {code b11 : Nat} (ha : Answered u t d h st code b11)
    (hring : u.cplRing = s.cplRing) : Answered s t d h st code b11 := by
  have htakes := ringTakes_of_cplRing hring
  simp only [cplRing, CplRing.mk.injEq] at hring
  obtain ⟨-, hbase, hsize, htail, -, hheld, -⟩ := hring
  rw [Answered, htakes, hbase, hsize, htail, hheld] at ha
  exact ha

/-! A member's answer is counted (R239). -/

/-- A waiting command once member r has answered; `no` says that it has refused. -/
def counted (a : Await) (r : Nat) (no : Bool) : Await := { a with
  waiting := a.waiting.filter (· ≠ r)
  acked := if no then a.acked else a.acked ++ [r]
  refused := a.refused || no }

/-- The waiting command of entry k is replaced. -/
def setAwait (s : State) (k : Nat) (b : Await) : State :=
  { s with seq := { s.seq with awaits := s.seq.awaits.map (fun x => if x.idx = k then b else x) } }

theorem find_setAwait {b : Await} (hfind : s.seq.awaits.find? (fun a => a.idx = k) = some a) (hb : b.idx = k) :
    (s.setAwait k b).seq.awaits.find? (fun a => a.idx = k) = some b := by
  have hsame : ((fun a : Await => decide (a.idx = k)) ∘ fun x => if x.idx = k then b else x) = fun a => decide (a.idx = k) := by
    funext x
    simp only [Function.comp]
    split
    · next hx => rw [hb, hx]
    · rfl
  have hidx : a.idx = k := by simpa using List.find?_some hfind
  rw [setAwait]
  dsimp only
  rw [List.find?_map, hsame, hfind, Option.map_some, if_pos hidx]

theorem answered_eq (hfind : s.seq.awaits.find? (fun a => a.idx = k) = some a) (no : Bool) : s.answered r k (!no) true =
    let v := s.setAwait k (counted a r no)
    if !(counted a r no).waiting.isEmpty then v
    else if (counted a r no).refused then v.awaitFails (counted a r no) sNoPages true
    else v.awaitDone (counted a r no) true := by
  rw [answered, hfind]
  cases no <;> rfl

theorem waiting_counted_of_other (h : ∃ j ∈ a.waiting, j ≠ r) (no : Bool) : (counted a r no).waiting.isEmpty = false := by
  obtain ⟨j, hj, hne⟩ := h
  cases hw : (counted a r no).waiting with
  | nil => exact absurd (hw ▸ List.mem_filter.2 ⟨hj, by simpa using hne⟩ : j ∈ ([] : List Nat)) List.not_mem_nil
  | cons _ _ => rfl

theorem waiting_counted_of_last (h : ∀ j ∈ a.waiting, j = r) (no : Bool) : (counted a r no).waiting.isEmpty = true := by
  rw [List.isEmpty_iff]
  exact List.filter_eq_nil_iff.2 fun j hj => by simp [h j hj]

/-! The last answer decides (R239). -/

theorem idx_of_unawait {b : Await} (hb : b ∈ (s.unawait a).seq.awaits) : b.idx ≠ a.idx := by
  simpa using (List.mem_filter.1 hb).2

theorem releaseAcked_frame (s : State) (a : Await) : s.releaseAcked a = { s with rig := (s.releaseAcked a).rig } :=
  foldl_frame (fun s t : State => t = { s with rig := t.rig }) (fun _ => rfl) (fun _ _ _ h k => by rw [k, h]) _
    (fun s _ => s.sendItems_frame ..) _ s

/-- A command that some member has refused completes with NO_PAGES, and no longer waits. -/
theorem awaitFails_spec (hring : v.cplRing = s.cplRing) (a : Await) : let t := v.awaitFails a sNoPages true
    t.entries = v.entries ∧ (∀ b ∈ t.seq.awaits, b.idx ≠ a.idx) ∧
    (a.cmd.opcode = 2 → (t.tbl a.idx).resRows = 0 ∧ Answered s t a.cmd a.cmd.handle sNoPages (stateCode (v.entry a.idx).st) 0) ∧
    (a.cmd.opcode ≠ 2 → Answered s t a.cmd 0 sNoPages 0 0) := by
  have hleft : ∀ b ∈ (v.unawait a).seq.awaits, b.idx ≠ a.idx := fun _ hb => idx_of_unawait hb
  have hframe := (v.unawait a).releaseAcked_frame a
  rw [awaitFails]
  dsimp only
  generalize (v.unawait a).releaseAcked a = w at hframe
  have hw : w.cplRing = s.cplRing := by
    rw [hframe]
    exact hring
  have hentries : w.entries = v.entries := by rw [hframe]; rfl
  have hawaits : w.seq.awaits = (v.unawait a).seq.awaits := by rw [hframe]
  split
  · next hop =>
    obtain ⟨hans, hring'⟩ := cmdDone_spec (s := s) (u := w.dropRows a.idx) hw a.cmd a.cmd.handle (some a.idx) sNoPages 0
    have href : (w.dropRows a.idx).refuse a.cmd a.idx sNoPages true =
      (w.dropRows a.idx).cmdDone a.cmd a.cmd.handle (some a.idx) sNoPages 0 true := congrArg (cmdDone _ _ _ · _ _ _) (if_neg (by decide))
    have hrows : ((w.dropRows a.idx).tbl a.idx).resRows = 0 := by rw [dropRows, tbl_modTbl]
    rw [href]
    generalize (w.dropRows a.idx).cmdDone a.cmd a.cmd.handle (some a.idx) sNoPages 0 true = t at hans hring'
    refine ⟨?_, ?_, fun _ => ⟨?_, ?_⟩, fun h => absurd hop h⟩
    · rw [hring']
      exact hentries
    · rw [hring']
      exact fun b hb => hleft b (hawaits ▸ hb)
    · rw [hring']
      exact hrows
    · rw [← entry_of_entries hentries]
      exact hans
  · next hop =>
    obtain ⟨hans, hring'⟩ := cmdDone_spec (s := s) hw a.cmd 0 none sNoPages 0
    generalize w.cmdDone a.cmd 0 none sNoPages 0 true = t at hans hring'
    refine ⟨?_, ?_, fun h => absurd h hop, fun _ => hans⟩
    · rw [hring']
      exact hentries
    · rw [hring']
      exact fun b hb => hleft b (hawaits ▸ hb)

/-- Every member has reserved: an APPEND takes effect. -/
theorem awaitDone_append (hop : a.cmd.opcode = 2) (hst : (s.entry a.idx).st = .waiting ∨ (s.entry a.idx).st = .ended) :
    s.awaitDone a true = ((s.unawait a).appendNow a.cmd a.idx).onEntry a.cmd a.idx sOK true := by
  rw [awaitDone]
  rw [if_pos hop, if_neg (fun h => hst.elim h.2.1 h.2.2), if_neg (by rw [hop]; decide), if_pos hop]

/-- Every member has reserved: a SUBMIT is admitted. -/
theorem awaitDone_submit (hop : a.cmd.opcode = 1) :
    s.awaitDone a true = (s.unawait a).admitNow a.cmd a.idx a.reel a.smp a.rows := by
  rw [awaitDone]
  rw [if_neg (fun h => h.1 hop), if_pos hop]
  rfl

theorem reserveAck_of_fresh (htake : s.takeItem kReserveAck = some (it, q, u)) (hfresh : s.freshPkt q = true) (hwhole : pchkOk q = true)
    (hrank : u.rankOf q.src = some r) (ok : Bool) : s.reserveAck ok = u.answered r (leAt it 4 4 % 131072) true ok := by
  rw [reserveAck, withItem_of_fresh htake hfresh hwhole, hrank]

theorem refuseItem_of_fresh (htake : s.takeItem kRefuse = some (it, q, u)) (hfresh : s.freshPkt q = true) (hwhole : pchkOk q = true)
    (hrank : u.rankOf q.src = some r) (ok : Bool) : s.refuseItem ok = u.answered r (leAt it 4 4 % 131072) false ok := by
  rw [refuseItem, withItem_of_fresh htake hfresh hwhole, hrank]

/-! PAGE_LOST (R268). -/

theorem pageLost_of_step {i : Nat} (htake : s.takeItem kPageLost = some (it, q, u)) (hfresh : s.freshPkt q = true)
    (hwhole : pchkOk q = true)
    (hi : u.byHandle (BitVec.ofNat 32 (leAt it 4 4)) = some i) (hst : (u.entry i).st = .prefill ∨ (u.entry i).st = .decode ∨
      (u.entry i).st = .parked ∨ (u.entry i).st = .restarting) : s.pageLost =
    u.setEntry i { u.entry i with stepFault := if (u.entry i).stepFault = 0 then 3 else (u.entry i).stepFault } := by
  rw [pageLost, withItem_of_fresh htake hfresh hwhole]
  dsimp only
  rw [hi]
  dsimp only
  obtain h | h | h | h := hst <;> simp only [h]

theorem pageLost_of_idle {i : Nat} (htake : s.takeItem kPageLost = some (it, q, u)) (hfresh : s.freshPkt q = true)
    (hwhole : pchkOk q = true)
    (hi : u.byHandle (BitVec.ofNat 32 (leAt it 4 4)) = some i) (hst : (u.entry i).st = .admitted ∨ (u.entry i).st = .waiting ∨
      (u.entry i).st = .ended ∨ (u.entry i).st = .expired) : s.pageLost = u.toFaulted i u.seqStep 5 := by
  rw [pageLost, withItem_of_fresh htake hfresh hwhole]
  dsimp only
  rw [hi]
  dsimp only
  obtain h | h | h | h := hst <;> simp only [h]

theorem routeRead_eq (s : State) : s.routeRead =
    let ws := (s.sail.routes[s.rig.routeSel.toNat]?).elim [0, 0] routeWords
    { s with
      rig := { s.rig with copy := ws }
      out := s.out ++ [.completion true (ws.getD 0 0).toNat] } := by
  rw [routeRead]
  cases s.sail.routes[s.rig.routeSel.toNat]? <;> rfl

end State

theorem exec_batch (c : Nat) (s : State) : exec (.batch c) s = act (okCtx c) s (·.memberBatch c) := rfl

theorem exec_ranges (c : Nat) (s : State) : exec (.ranges c) s = act (okCtx c) s (·.memberRanges c) := rfl

theorem exec_commit (c : Nat) (s : State) : exec (.commit c) s = act (okCtx c) s (·.memberCommit c) := rfl

theorem exec_headRelease (x : ReleaseFor) (s : State) :
    exec (.headRelease x) s = act (okCtx x.ctx) s (·.memberRelease x.ctx x.whole) := rfl

theorem exec_reserveAck (ok : Bool) (s : State) : exec (.reserveAck ok) s = act true s (fun s => (s.reserveAck ok).pfxResume) := rfl

theorem exec_refuse (ok : Bool) (s : State) : exec (.refuse ok) s = act true s (fun s => (s.refuseItem ok).pfxResume) := rfl

theorem exec_pageLost (s : State) : exec .pageLost s = act true s State.pageLost := rfl

theorem exec_rigRouteRead (s : State) : exec .rigRouteRead s = act s.hostReads s State.routeRead := rfl

section

open State

variable {s u : State} {c : Nat} {it : List Byte} {q : Pkt} {a : Await} {k r : Nat} {n : Instr} {f : State → State} {no : Bool}

/-- An answer that is not the last one is counted. -/
theorem completes_counted (hexec : exec n s = act true s (fun s => (f s).pfxResume)) (hf : f s = u.answered r k (!no) true)
    (hu : Taken s u) (hfind : s.seq.awaits.find? (fun a => a.idx = k) = some a) (hmore : ∃ j ∈ a.waiting, j ≠ r) :
    Completes n s (fun t => t.entries = s.entries ∧ t.seq.cplTail = s.seq.cplTail ∧ t.seq.held = s.seq.held ∧
      t.seq.awaits.find? (fun a => a.idx = k) = some (counted a r no)) := by
  have hidx : a.idx = k := by simpa using List.find?_some hfind
  have hseq : u.seq = s.seq := by rw [hu]
  have hfind' : u.seq.awaits.find? (fun a => a.idx = k) = some a := hseq ▸ hfind
  refine completes_pfxResume hexec rfl (hf.trans ((answered_eq hfind' no).trans (if_pos ?_))) fun t ht => ?_
  · rw [waiting_counted_of_other hmore]
    rfl
  · rw [ht.2]
    have hentries : u.entries = s.entries := by rw [hu]
    have htail : u.seq.cplTail = s.seq.cplTail := by rw [hseq]
    have hheld : u.seq.held = s.seq.held := by rw [hseq]
    exact ⟨hentries, htail, hheld, find_setAwait hfind' hidx⟩

/-- The last answer, where a member has refused, completes the command with NO_PAGES. -/
theorem completes_awaitFails (hexec : exec n s = act true s (fun s => (f s).pfxResume)) (hf : f s = u.answered r k (!no) true)
    (hu : Taken s u) (hfind : s.seq.awaits.find? (fun a => a.idx = k) = some a) (hlast : ∀ j ∈ a.waiting, j = r)
    (hrefused : (counted a r no).refused = true) :
    Completes n s (fun t => t.entries = s.entries ∧ (∀ b ∈ t.seq.awaits, b.idx ≠ a.idx) ∧
      (a.cmd.opcode = 2 → (t.tbl a.idx).resRows = 0 ∧ Answered s t a.cmd a.cmd.handle sNoPages (stateCode (s.entry a.idx).st) 0) ∧
      (a.cmd.opcode ≠ 2 → Answered s t a.cmd 0 sNoPages 0 0)) := by
  have hentries : u.entries = s.entries := by rw [hu]
  have hring : u.cplRing = s.cplRing := by rw [hu]; rfl
  have hfind' : u.seq.awaits.find? (fun a => a.idx = k) = some a := by rw [hu]; exact hfind
  have hanswer : u.answered r k (!no) true = (u.setAwait k (counted a r no)).awaitFails (counted a r no) sNoPages true :=
    (answered_eq hfind' no).trans ((if_neg (by rw [waiting_counted_of_last hlast]; decide)).trans (if_pos hrefused))
  have hspec := awaitFails_spec (s := s) (v := u.setAwait k (counted a r no)) hring (counted a r no)
  refine completes_pfxResume hexec rfl (hf.trans hanswer) fun t ht => ?_
  generalize (u.setAwait k (counted a r no)).awaitFails (counted a r no) sNoPages true = w at ht hspec
  obtain ⟨hkept, hawaits, happend, hother⟩ := hspec
  have hseq : t.seq = w.seq := by rw [ht.2]
  have hst : ((u.setAwait k (counted a r no)).entry a.idx).st = (s.entry a.idx).st :=
    congrArg SeqEntry.st (entry_of_entries hentries a.idx)
  refine ⟨?_, ?_, fun hop => ⟨?_, ?_⟩, fun hop => (hother hop).mono hseq ht.1⟩
  · rw [ht.2]
    exact hkept.trans hentries
  · rw [keepBoot_seq, hseq]
    exact hawaits
  · rw [ht.2]
    exact (happend hop).1
  · exact hst ▸ (happend hop).2.mono hseq ht.1

/-- The last answer, where none has refused, lets the command take effect. -/
theorem answered_done (hu : Taken s u) (hfind : s.seq.awaits.find? (fun a => a.idx = k) = some a) (hlast : ∀ j ∈ a.waiting, j = r)
    (hyes : a.refused = false) : ∃ v : State, u.answered r k true true = v.awaitDone (counted a r false) true ∧ v.cplRing = s.cplRing ∧
      v.entries = s.entries ∧ v.time = s.time := by
  have hfind' : u.seq.awaits.find? (fun a => a.idx = k) = some a := by rw [hu]; exact hfind
  have hrefused : (counted a r false).refused = false := (Bool.or_false _).trans hyes
  refine ⟨u.setAwait k (counted a r false), ?_, by rw [hu]; rfl, by rw [hu]; rfl, by rw [hu]; rfl⟩
  exact (answered_eq hfind' false).trans ((if_neg (by rw [waiting_counted_of_last hlast]; decide)).trans
    (if_neg (by rw [hrefused]; decide)))

theorem completes_appendDone (hexec : exec n s = act true s (fun s => (f s).pfxResume)) (hf : f s = u.answered r k true true)
    (hu : Taken s u) (hfind : s.seq.awaits.find? (fun a => a.idx = k) = some a) (hlast : ∀ j ∈ a.waiting, j = r) (hyes : a.refused = false)
    (hop : a.cmd.opcode = 2) (hst : (s.entry a.idx).st = .waiting ∨ (s.entry a.idx).st = .ended) : Completes n s (fun t =>
      t.entry a.idx = { s.entry a.idx with
        st := .admitted
        input := BitVec.ofNat 21 ((s.entry a.idx).nextValid.toNat + a.cmd.count)
        nextValid := false
        deadline := s.fromNow a.cmd.deadline
        hint := 0 } ∧ (∀ j, j ≠ a.idx → t.entry j = s.entry j) ∧ (∀ b ∈ t.seq.awaits, b.idx ≠ a.idx) ∧
      Answered s t a.cmd a.cmd.handle sOK 1 0) := by
  obtain ⟨v, hdone, hring, hentries, htime⟩ := answered_done hu hfind hlast hyes
  have hentry := entry_of_entries hentries
  have hfrom : v.fromNow a.cmd.deadline = s.fromNow a.cmd.deadline := by rw [fromNow, htime]; rfl
  have happend := awaitDone_append (s := v) (a := counted a r false) hop (by rw [hentry]; exact hst)
  obtain ⟨htouches, hnow, hothers, -, -⟩ := (v.unawait (counted a r false)).appendNow_spec a.cmd a.idx
  have hleft : ∀ b ∈ (v.unawait (counted a r false)).seq.awaits, b.idx ≠ a.idx := fun _ hb => idx_of_unawait hb
  replace hf := hf.trans (hdone.trans happend)
  rw [show (counted a r false).cmd = a.cmd from rfl, show (counted a r false).idx = a.idx from rfl] at hf
  have hring' : (v.unawait (counted a r false)).cplRing = s.cplRing := hring
  generalize hw : v.unawait (counted a r false) = w at hf htouches hnow hothers hleft hring'
  have hwentry : ∀ j, w.entry j = s.entry j := fun j => by rw [← hw]; exact hentry j
  have hwfrom : w.fromNow a.cmd.deadline = s.fromNow a.cmd.deadline := by rw [← hw]; exact hfrom
  rw [hwentry, hwfrom] at hnow
  generalize w.appendNow a.cmd a.idx = x at hf htouches hnow hothers
  have hx : x.cplRing = s.cplRing := by rw [htouches]; exact hring'
  have hawaits : x.seq.awaits = w.seq.awaits := by rw [htouches]
  obtain ⟨hans, hring''⟩ := cmdDone_spec hx a.cmd a.cmd.handle (some a.idx) sOK 0
  rw [code_of_entry hnow rfl] at hans
  refine completes_pfxResume hexec rfl hf fun t ht => ?_
  rw [onEntry] at ht
  generalize x.cmdDone a.cmd a.cmd.handle (some a.idx) sOK 0 true = y at ht hans hring''
  refine ⟨?_, fun j hj => ?_, fun b hb => hleft b ?_, hans.mono (by rw [ht.2]; rfl) ht.1⟩
  · rw [ht.2, hring'']
    exact hnow
  · rw [ht.2, hring'']
    exact (hothers j hj).trans (hwentry j)
  · rw [ht.2, hring''] at hb
    exact hawaits ▸ hb

theorem completes_submitDone (hexec : exec n s = act true s (fun s => (f s).pfxResume)) (hf : f s = u.answered r k true true)
    (hu : Taken s u) (hfind : s.seq.awaits.find? (fun a => a.idx = k) = some a) (hlast : ∀ j ∈ a.waiting, j = r) (hyes : a.refused = false)
    (hop : a.cmd.opcode = 1) : Completes n s (fun t =>
      (t.entry a.idx).st = .admitted ∧ (t.entry a.idx).gen = (s.entry a.idx).gen ∧ (t.entry a.idx).ctx = BitVec.ofNat 4 a.cmd.ctx ∧
      (∀ j, j ≠ a.idx → t.entry j = s.entry j) ∧ (∀ b ∈ t.seq.awaits, b.idx ≠ a.idx) ∧
      Answered s t a.cmd (BitVec.ofNat 32 (s.handleOf a.idx)) sOK 1 0) := by
  obtain ⟨v, hdone, hring, hentries, -⟩ := answered_done hu hfind hlast hyes
  have hentry := entry_of_entries hentries
  have hleft : ∀ b ∈ (v.unawait (counted a r false)).seq.awaits, b.idx ≠ a.idx := fun _ hb => idx_of_unawait hb
  obtain ⟨hans, ⟨tables, input, hnow⟩, hothers, -, -, hawaits⟩ :=
    (v.unawait (counted a r false)).admitNow_spec a.cmd a.idx a.reel a.smp a.rows
  have hhandle : (v.unawait (counted a r false)).handleOf a.idx = s.handleOf a.idx :=
    congrArg (fun e : SeqEntry => e.gen.toNat <<< 17 ||| a.idx)
    (hentry a.idx)
  have hring' : (v.unawait (counted a r false)).cplRing = s.cplRing := hring
  rw [hhandle] at hans
  replace hans := hans.of_cplRing hring'
  replace hf : f s = (v.unawait (counted a r false)).admitNow a.cmd a.idx a.reel a.smp a.rows :=
    hf.trans (hdone.trans (awaitDone_submit (s := v) (a := counted a r false) hop))
  have hwentry : ∀ j, (v.unawait (counted a r false)).entry j = s.entry j := hentry
  generalize v.unawait (counted a r false) = w at *
  generalize w.admitNow a.cmd a.idx a.reel a.smp a.rows = x at *
  refine completes_pfxResume hexec rfl hf fun t ht => ?_
  have hkept : ∀ j, (s.keepBoot t).entry j = x.entry j := fun j => by
    rw [ht.2]
    rfl
  rw [hkept, hnow]
  have hgen : (w.entry a.idx).gen = (s.entry a.idx).gen := by rw [hwentry]
  refine ⟨rfl, hgen, rfl, fun j hj => (hkept j).trans ((hothers j hj).trans (hwentry j)), fun b hb => hleft b ?_,
    hans.mono (by rw [ht.2]; rfl) ht.1⟩
  rw [ht.2] at hb
  exact hawaits ▸ hb

end

section

open State

variable {s u : State} {c : Nat} {it : List Byte} {q : Pkt}

theorem completes_batch (hc : okCtx c = true) (hfresh : s.freshPkt q = true) (hwhole : pchkOk q = true)
    (htake : s.takeItem kBatch = some (it, q, u)) : Completes (.batch c) s (fun t =>
      (∃ b ∈ t.remoteWait, b.step = pktStep q ∧ b.ctx = c ∧ ∃ m ∈ b.members, m.idx = shadowKey c (leAt it 4 4) ∧ m.base = leAt it 8 4 ∧
        m.p0 = leAt it 16 4 ∧ m.samples = decide (leAt it 20 4 % 2 = 1) ∧ m.toks.length = leAt it 2 2) ∧
      (∀ b ∈ s.remoteWait, (b.step ≠ pktStep q ∨ b.ctx ≠ c) → b ∈ t.remoteWait) ∧ t = { u with remoteWait := t.remoteWait }) := by
  have hf := memberBatch_of_fresh (c := c) htake hfresh hwhole
  obtain ⟨l, p, rfl⟩ := takeItem_frame htake
  obtain ⟨b, hb, hstep, hctx, hm⟩ := mem_withMember s.remoteWait (pktStep q) c (leAt it 12 4) (batchMember (shadowKey c (leAt it 4 4)) it)
  exact completes_kept (exec_batch ..) hc hf (keepBoot_of rfl rfl rfl rfl rfl rfl)
    ⟨⟨b, hb, hstep, hctx, _, hm, rfl, rfl, rfl, rfl, List.length_replicate⟩, fun _ hb hother => mem_withMember_of_other hb hother .., rfl⟩

theorem completes_commitDone (hc : okCtx c = true) (hfresh : s.freshPkt q = true) (hwhole : pchkOk q = true)
    (htake : s.takeItem kCommit = some (it, q, u)) (hdone : leAt it 1 1 = 0) :
    let i := shadowKey c (leAt it 4 4)
    Completes (.commit c) s (fun t => t.tbl i = { s.tbl i with shadow := leAt it 8 4 } ∧ (∀ j, j ≠ i → t.tbl j = s.tbl j) ∧
      (∀ b ∈ t.batches, b.step = pktStep q → b.ctx = c → b.remote = true → b.swept = true ∨ ∀ m ∈ b.members, m.idx ≠ i) ∧
      t = { u with
        tables := t.tables
        batches := t.batches }) := by
  have hf := memberCommit_of_done (c := c) htake hfresh hwhole hdone
  obtain ⟨l, p, rfl⟩ := takeItem_frame htake
  refine completes_kept (exec_commit ..) hc hf (keepBoot_of rfl rfl rfl rfl rfl rfl)
    ⟨s.tbl_modTbl _ (fun t => { t with shadow := leAt it 8 4 }), fun j hj => s.tbl_modTbl_ne (fun t => { t with shadow := leAt it 8 4 }) hj,
      fun b hb hstep hctx hremote => ?_, rfl⟩
  obtain ⟨y, -, rfl⟩ := List.mem_map.1 hb
  exact memberLeaves_left hstep hctx hremote

theorem completes_commitBack (hc : okCtx c = true) (hfresh : s.freshPkt q = true) (hwhole : pchkOk q = true)
    (htake : s.takeItem kCommit = some (it, q, u)) (hback : leAt it 1 1 ≠ 0) :
    let i := shadowKey c (leAt it 4 4)
    let x := s.tbl i
    Completes (.commit c) s (fun t => (t.tbl i).shadow = x.shadow ∧
      (t.tbl i).resRows = (if leAt it 1 1 = 1 ∨ leAt it 1 1 = 2 then 0
        else x.resRows + BitVec.ofNat 16 (pagesFor (x.shadow + leAt it 2 2) - pagesFor x.shadow))) := by
  have hf := memberCommit_of_back (c := c) htake hfresh hwhole hback
  have hu : ∀ i, u.tbl i = s.tbl i := fun i => by
    rw [taken_of_takeItem htake]
    rfl
  dsimp only at hf ⊢
  generalize shadowKey c (leAt it 4 4) = i at hf
  have htbl := u.tbl_returnRows i c (u.tbl i).shadow (leAt it 2 2)
  generalize u.returnRows i c (u.tbl i).shadow (leAt it 2 2) = v at hf htbl
  rw [hu] at htbl
  refine completes_act (exec_commit ..) hc ?_
  rw [hf]
  split
  · have hrows : (v.dropRows i).tbl i = { v.tbl i with resRows := 0, released := false } := tbl_modTbl ..
    have hshadow : ((v.dropRows i).tbl i).shadow = (s.tbl i).shadow := by rw [hrows, htbl]
    exact ⟨hshadow, congrArg Tables.resRows hrows⟩
  · have hshadow : (v.tbl i).shadow = (s.tbl i).shadow := by rw [htbl]
    have hrows : (v.tbl i).resRows = (s.tbl i).resRows +
        BitVec.ofNat 16 (pagesFor ((s.tbl i).shadow + leAt it 2 2) - pagesFor (s.tbl i).shadow) := by rw [htbl]
    exact ⟨hshadow, hrows⟩

theorem completes_headRelease (hc : okCtx c = true) (hfresh : s.freshPkt q = true) (hwhole : pchkOk q = true)
    (htake : s.takeItem kRelease = some (it, q, u)) :
    let i := shadowKey c (leAt it 4 4)
    Completes (.headRelease ⟨c, true⟩) s (fun t => t.tbl i = {} ∧ t.xr i = {} ∧ t.entries = s.entries) ∧
    Completes (.headRelease ⟨c, false⟩) s (fun t =>
      t.tbl i = { s.tbl i with
        resRows := 0
        released := false } ∧ (∀ j, j ≠ i → t.tbl j = s.tbl j) ∧ t = { u with tables := t.tables }) := by
  have hf := memberRelease_of_fresh (c := c) htake hfresh hwhole
  dsimp only at hf ⊢
  generalize shadowKey c (leAt it 4 4) = i at hf
  refine ⟨?_, ?_⟩
  · obtain ⟨htouches, htbl⟩ := u.freeTables_spec i
    have hentries : (u.freeTables i).entries = s.entries := by
      rw [htouches.entries_eq, taken_of_takeItem htake]
    refine completes_act (exec_headRelease ..) hc ?_
    rw [show s.memberRelease c true = _ from (hf true).trans (if_pos rfl)]
    generalize u.freeTables i = v at htbl hentries
    exact ⟨htbl, v.xr_setXr i {}, hentries⟩
  · obtain ⟨l, p, rfl⟩ := takeItem_frame htake
    exact completes_kept (exec_headRelease ..) hc ((hf false).trans (if_neg Bool.false_ne_true)) (keepBoot_of rfl rfl rfl rfl rfl rfl)
      ⟨s.tbl_modTbl i (fun t => { t with resRows := 0, released := false }),
        fun j hj => s.tbl_modTbl_ne (fun t => { t with resRows := 0, released := false }) hj, rfl⟩

theorem completes_pageLost {i : Nat} (hfresh : s.freshPkt q = true) (hwhole : pchkOk q = true)
    (htake : s.takeItem kPageLost = some (it, q, u)) (hi : s.byHandle (BitVec.ofNat 32 (leAt it 4 4)) = some i) :
    let e := s.entry i
    ((e.st = .prefill ∨ e.st = .decode ∨ e.st = .parked ∨ e.st = .restarting) → Completes .pageLost s (fun t =>
      t.entry i = { e with stepFault := if e.stepFault = 0 then 3 else e.stepFault } ∧ (∀ j, j ≠ i → t.entry j = s.entry j) ∧
      t = { u with entries := t.entries })) ∧
    ((e.st = .admitted ∨ e.st = .waiting ∨ e.st = .ended ∨ e.st = .expired) → Completes .pageLost s (fun t =>
      (t.entry i).st = .faulted ∧ (t.entry i).fault = 5 ∧ ∀ j, j ≠ i → t.entry j = s.entry j)) := by
  have hu : Taken s u := taken_of_takeItem htake
  have hi' : u.byHandle (BitVec.ofNat 32 (leAt it 4 4)) = some i := by
    rw [hu]
    exact hi
  have hentry := entry_of_entries (show u.entries = s.entries by rw [hu])
  refine ⟨fun hst => ?_, fun hst => ?_⟩
  · have hf := pageLost_of_step htake hfresh hwhole hi' (by rwa [hentry])
    obtain ⟨l, p, rfl⟩ := takeItem_frame htake
    exact completes_kept (exec_pageLost s) rfl hf (keepBoot_of rfl rfl rfl rfl rfl rfl)
      ⟨s.entry_setEntry i _, fun j hj => s.entry_setEntry_ne _ hj, rfl⟩
  · have hf := pageLost_of_idle htake hfresh hwhole hi' (by rwa [hentry])
    obtain ⟨-, hfaulted, hothers⟩ := u.toFaulted_spec i u.seqStep 5
    refine completes_act (exec_pageLost s) rfl ?_
    rw [hf]
    generalize u.toFaulted i u.seqStep 5 = t at hfaulted hothers
    have hst' : (t.entry i).st = .faulted := by rw [hfaulted]
    have hfault : (t.entry i).fault = 5 := by rw [hfaulted]
    exact ⟨hst', hfault, fun j hj => (hothers j hj).trans (hentry j)⟩

end

/-- Settles O49: an item of the epoch, its payload whole, is used by the function of its kind; the answers of members are counted until
the last one decides. -/
theorem itemsOfHeads : Obligations.ItemsOfHeads := by
  intro s it q u hfresh hwhole
  refine ⟨fun c hc => ?_, fun a r hrank hfind => ?_, fun i htake hi => completes_pageLost hfresh hwhole htake hi, fun hreads =>
    completes_kept (exec_rigRouteRead s) hreads s.routeRead_eq (State.keepBoot_of rfl rfl rfl rfl rfl rfl) rfl⟩
  · have hok : okCtx c = true := decide_eq_true hc
    refine ⟨completes_batch hok hfresh hwhole, fun htake => ?_, fun htake => ⟨completes_commitDone hok hfresh hwhole htake,
      completes_commitBack hok hfresh hwhole htake⟩, fun htake => ?_, completes_headRelease hok hfresh hwhole⟩
    · have hf := State.memberRanges_of_fresh (c := c) htake hfresh hwhole
      obtain ⟨l, p, rfl⟩ := State.takeItem_frame htake
      exact completes_kept (exec_ranges ..) hok hf (State.keepBoot_of rfl rfl rfl rfl rfl rfl) rfl
    · obtain ⟨l, p, rfl⟩ := State.takeItem_frame htake
      refine ⟨fun howned hslot => completes_reserve_held hok htake hfresh hwhole howned hslot, fun howned =>
        ⟨fun hslot hfits => completes_reserve_new hok htake hfresh hwhole howned hslot hfits,
        fun hslot => (completes_reserve_prefixed hok htake hfresh hwhole howned hslot).1,
        fun hslot => (completes_reserve_prefixed hok htake hfresh hwhole howned hslot).2,
        fun w hslot => completes_reserve_forked hok htake hfresh hwhole howned hslot⟩⟩
  · refine ⟨fun htake => ?_, fun htake => ?_⟩
    · have hu := State.taken_of_takeItem htake
      have hf := State.reserveAck_of_fresh htake hfresh hwhole (r := r) (by rw [hu]; exact hrank) true
      exact ⟨completes_counted (no := false) (exec_reserveAck ..) hf hu hfind,
        fun hlast hno => completes_awaitFails (no := false) (exec_reserveAck ..) hf hu hfind hlast ((Bool.or_false _).trans hno),
        completes_appendDone (exec_reserveAck ..) hf hu hfind, completes_submitDone (exec_reserveAck ..) hf hu hfind⟩
    · have hu := State.taken_of_takeItem htake
      have hf := State.refuseItem_of_fresh htake hfresh hwhole (r := r) (by rw [hu]; exact hrank) true
      exact ⟨completes_counted (no := true) (exec_refuse ..) hf hu hfind,
        fun hlast => completes_awaitFails (no := true) (exec_refuse ..) hf hu hfind hlast (Bool.or_true _)⟩

end Sys2Proof.Machine
